-- ==== Sys2Proof/Word.lean ====
section
/-! DEFINITION. The word types of the Bozcet TH1614's three ports: bytes of the host link and the rack bus, 16-bit audio
samples, superframe counts and device ids. Everything that computes with them stands in Machine/. -/

namespace Sys2Proof

/-- A byte of the host link, of the rack bus or of a front-end cell (R1, R173 to R176). -/
abbrev Byte := BitVec 8

/-- A signed 16-bit audio sample, moved about but never computed with (R30, R174). -/
abbrev Sample := BitVec 16

/-- A superframe count, 0 to 2^32 - 1, compared modulo 2^32 (R17, R18). -/
abbrev Count := BitVec 32

/-- The 32-bit identity a device reports at a PROBE (chapter 9). -/
abbrev DeviceId := BitVec 32

end Sys2Proof
end

