-- ==== Sys2Proof/Config.lean ====
section
/-! DEFINITION. What the part fixes once for all: how many objects of each kind it has (IDENTIFY reports the same
capacities, R14), and the one value the spec leaves open, as a constant with no body. -/

namespace Sys2Proof

/-- Source numbers: uplink sources 0-11 and line sources 12-13 (00_scope.md, Names). -/
abbrev SourceId := Fin 14

/-- Channel numbers 0-15. -/
abbrev ChannelId := Fin 16

/-- Tour group numbers 0-23. -/
abbrev GroupId := Fin 24

/-- Uplink roster entries 0-11; entry k, uplink slot k and source k use the same k. -/
abbrev RosterId := Fin 12

/-- Rack window indices 0-7. -/
abbrev RackId := Fin 8

/-- Slot addresses 0-255 on the rack bus. -/
abbrev SlotAddr := Fin 256

/-- Cells 0-511 of the cell store. -/
abbrev CellId := Fin 512

/-- Event kind numbers 0-24 (10.4). -/
abbrev EventId := Fin 25

/-- DESIGN CHOICE (assumption 9): R176 gives the fault byte of a PROBE or POLL answer the values 0 and 1 and says nothing
of the others. What the part makes of another byte is this free value: no body, so nothing can be proved of it. -/
opaque Config.faultFlag : Byte → Bool

end Sys2Proof
end

