-- ==== Sys2Proof/Syntax.lean ====
section
/-! DEFINITION. The commands of the block: one constructor per row of spec/opcode_table.json, in the table's order. A host
request carries the tag and the body bytes of its frame (R10, R173); an event of a port or of a timer carries what the
port brings. Where the spec lets objects of one mark be taken in either order (R164, R166), the command carries the order. -/

namespace Sys2Proof

/-- One character received on RXD: its eight bits, and whether its stop bit was found low (a framing error, R1). -/
structure RxChar where
  byte : Byte
  framingError : Bool
deriving DecidableEq, Repr

/-- The commands of the TH1614, one constructor per row of spec/opcode_table.json. -/
inductive Instr where
  /-- RESETN is released with these levels on the straps RATE1, RATE0 and on the front-end ready line (R1, R16, R29). -/
  | hardReset (rate1 rate0 ready : Bool)
  /-- These characters arrive on RXD, in order; a frame may be split over several commands (R2 to R8). -/
  | frameReceive (chars : List RxChar)
  /-- 5 ms pass after the last character of a frame under reception (R6, cause GAP). -/
  | gapExpiry
  /-- The head of the request queue is served if it may be (R9). -/
  | requestService
  /-- The last character of the frame at the head of the outbound queue leaves on TXD (R7). -/
  | frameTransmitted
  /-- The soft reset after the OK reply of SOFT_RESET has left the part (R15). -/
  | softResetPerform
  | identify (tag : Byte) (body : List Byte)
  | softReset (tag : Byte) (body : List Byte)
  /-- The 10 ms point: a new superframe starts (R17). -/
  | superframeStart
  /-- Downlink slot `slot` of the superframe in progress comes (R17, R175). -/
  | downlinkSlot (slot : Fin 24)
  /-- The transceiver delivers the bytes it received in uplink slot `slot` with their check result (R30, R174). -/
  | uplinkBlockDelivery (slot : RosterId) (bytes : List Byte) (checkGood : Bool)
  /-- The line interface delivers the block of line input `line` (source 12 + line) (R35). -/
  | lineBlockDelivery (line : Fin 2) (samples : Vector Sample 160)
  /-- The OUTPUT mark; `order` is the order in which the sources' raises fall (R19, R58). -/
  | outputMark (order : List SourceId)
  /-- The REVIEW mark; `order` is the order in which the channels' raises fall (R76). -/
  | reviewMark (order : List ChannelId)
  /-- The BUILD mark; `order` is the order of the channels' raises at a stop (R20, R24, R90). -/
  | buildMark (order : List ChannelId)
  /-- The front-end ready line falls; `order` as for the BUILD mark (R27). -/
  | readyLineFall (order : List ChannelId)
  /-- The front-end ready line rises (R27). -/
  | readyLineRise
  | airStart (tag : Byte) (body : List Byte)
  | airStop (tag : Byte) (body : List Byte)
  | airStatus (tag : Byte) (body : List Byte)
  | poolStatus (tag : Byte) (body : List Byte)
  | sourceConfig (tag : Byte) (body : List Byte)
  | sourceMode (tag : Byte) (body : List Byte)
  | sourceMute (tag : Byte) (body : List Byte)
  | sourceStatus (tag : Byte) (body : List Byte)
  | sourceLolSet (tag : Byte) (body : List Byte)
  | channelStage (tag : Byte) (body : List Byte)
  | channelApply (tag : Byte) (body : List Byte)
  | channelClose (tag : Byte) (body : List Byte)
  | channelStatus (tag : Byte) (body : List Byte)
  | noticePost (tag : Byte) (body : List Byte)
  | noticeCancel (tag : Byte) (body : List Byte)
  | noticeStatus (tag : Byte) (body : List Byte)
  | schedConfig (tag : Byte) (body : List Byte)
  | rackDefine (tag : Byte) (body : List Byte)
  | rackRemove (tag : Byte) (body : List Byte)
  /-- The arbiter starts an exchange if the bus is free and one waits (R117). -/
  | exchangeStart
  /-- An answer frame arrives on the rack bus (R118, R176). -/
  | exchangeAnswer (bytes : List Byte)
  /-- The completion moment of an exchange that has its good answer (R118). -/
  | exchangeComplete
  /-- 40 ms have passed since the exchange in flight started (R118). -/
  | exchangeTimeout
  /-- The 1 s scan timer of a rack expires (R123). -/
  | scanTimerExpiry (rack : RackId)
  /-- The rack attention line falls (R123). -/
  | attentionFall
  | slotStatus (tag : Byte) (body : List Byte)
  | slotClearFault (tag : Byte) (body : List Byte)
  /-- The poll timer of a slot expires (R136). -/
  | pollTimerExpiry (slot : SlotAddr)
  | rackBudget (tag : Byte) (body : List Byte)
  | chargeConfig (tag : Byte) (body : List Byte)
  | deviceRead (tag : Byte) (body : List Byte)
  | deviceForget (tag : Byte) (body : List Byte)
  | groupOpen (tag : Byte) (body : List Byte)
  | groupClose (tag : Byte) (body : List Byte)
  | groupStatus (tag : Byte) (body : List Byte)
  | issue (tag : Byte) (body : List Byte)
  | issueCancel (tag : Byte) (body : List Byte)
  | issueStatus (tag : Byte) (body : List Byte)
  | eventRead (tag : Byte) (body : List Byte)
  | eventClear (tag : Byte) (body : List Byte)
  | eventSet (tag : Byte) (body : List Byte)
  | eventEnable (tag : Byte) (body : List Byte)
  | eventDisable (tag : Byte) (body : List Byte)
deriving DecidableEq, Repr

end Sys2Proof
end

