-- ==== Sys2Proof/WellFormed.lean ====
section
/-! DEFINITION. Which commands the ports can bring: a request body is at most 256 bytes (R3, R173),
FRAME_RECEIVE brings at least one character, and an order names every object once. An uplink block and an answer frame are
whatever bytes the port brings: R174 and R176 judge them. `exec` is total on ill-formed commands too. -/

namespace Sys2Proof

/-- A request body fits a host frame: length 0-256 (R3). -/
def bodyFits (body : List Byte) : Bool := decide (body.length ≤ 256)

/-- The order of a mark names each of the `n` objects exactly once. -/
def orderFull {n : Nat} (order : List (Fin n)) : Bool :=
  decide (order.length = n) && decide order.Nodup

/-- The operands of a command are such as the ports can bring. -/
def Instr.wellFormed : Instr → Bool
  | .hardReset _ _ _ => true
  | .frameReceive chars => decide (chars ≠ [])
  | .gapExpiry => true
  | .requestService => true
  | .frameTransmitted => true
  | .softResetPerform => true
  | .identify _ body => bodyFits body
  | .softReset _ body => bodyFits body
  | .superframeStart => true
  | .downlinkSlot _ => true
  | .uplinkBlockDelivery _ _ _ => true
  | .lineBlockDelivery _ _ => true
  | .outputMark order => orderFull order
  | .reviewMark order => orderFull order
  | .buildMark order => orderFull order
  | .readyLineFall order => orderFull order
  | .readyLineRise => true
  | .airStart _ body => bodyFits body
  | .airStop _ body => bodyFits body
  | .airStatus _ body => bodyFits body
  | .poolStatus _ body => bodyFits body
  | .sourceConfig _ body => bodyFits body
  | .sourceMode _ body => bodyFits body
  | .sourceMute _ body => bodyFits body
  | .sourceStatus _ body => bodyFits body
  | .sourceLolSet _ body => bodyFits body
  | .channelStage _ body => bodyFits body
  | .channelApply _ body => bodyFits body
  | .channelClose _ body => bodyFits body
  | .channelStatus _ body => bodyFits body
  | .noticePost _ body => bodyFits body
  | .noticeCancel _ body => bodyFits body
  | .noticeStatus _ body => bodyFits body
  | .schedConfig _ body => bodyFits body
  | .rackDefine _ body => bodyFits body
  | .rackRemove _ body => bodyFits body
  | .exchangeStart => true
  | .exchangeAnswer _ => true
  | .exchangeComplete => true
  | .exchangeTimeout => true
  | .scanTimerExpiry _ => true
  | .attentionFall => true
  | .slotStatus _ body => bodyFits body
  | .slotClearFault _ body => bodyFits body
  | .pollTimerExpiry _ => true
  | .rackBudget _ body => bodyFits body
  | .chargeConfig _ body => bodyFits body
  | .deviceRead _ body => bodyFits body
  | .deviceForget _ body => bodyFits body
  | .groupOpen _ body => bodyFits body
  | .groupClose _ body => bodyFits body
  | .groupStatus _ body => bodyFits body
  | .issue _ body => bodyFits body
  | .issueCancel _ body => bodyFits body
  | .issueStatus _ body => bodyFits body
  | .eventRead _ body => bodyFits body
  | .eventClear _ body => bodyFits body
  | .eventSet _ body => bodyFits body
  | .eventEnable _ body => bodyFits body
  | .eventDisable _ body => bodyFits body

end Sys2Proof
end

