-- ==== Sys2Proof/Decode.lean ====
section
/-! DEFINITION. spec/opcode_table.json gives none of its 60 rows any bits (every row's "fields" list is empty and no row
has fixed bits), so no word spells a command and the decoder answers none on every word. -/

namespace Sys2Proof

/-- The command that a word of `nbits` bits spells by the table: none, since no row of the table gives bits. -/
def decodeTableWord (_nbits _w : Nat) : Option Instr := none

end Sys2Proof
end

