-- ==== Sys2Proof/Machine/State.lean ====
section
/-! DEFINITION. Everything the spec gives the TH1614 to hold, block by block, as plain data; the queue of waiting commands;
and the state right after a hard reset. -/

namespace Sys2Proof.Machine

/-! ## The link controller (chapter 1) -/

/-- The line rates the straps select (R1). -/
inductive LineRate where
  | b115200
  | b460800
  | b921600
deriving DecidableEq, Repr

/-- The receiver states of the host link (1.2). -/
inductive RxState where
  | hunt
  | length
  | body
  | check
deriving DecidableEq, Repr

/-- The frame under reception: its parts as far as received, and the check being accumulated (R2 to R5). -/
structure FrameUnderReception where
  lengthLow : Option Byte
  length : Nat
  kind : Option Byte
  tag : Option Byte
  body : List Byte
  check : BitVec 16
  checkLow : Option Byte
deriving DecidableEq, Repr

/-- A complete frame of the host link, less its start byte, length and check, which its parts determine (R173). -/
structure Frame where
  kind : Byte
  tag : Byte
  body : List Byte
deriving DecidableEq, Repr

/-- An entry of the outbound queue: a complete frame, or one reserved for a reply being formed (R7). -/
inductive OutEntry where
  | frame (f : Frame)
  | reserved
deriving DecidableEq, Repr

/-- The state of the link controller. `gapTimer` is set while the 5 ms gap timer runs. -/
structure Link where
  rate : LineRate
  rx : RxState
  under : Option FrameUnderReception
  gapTimer : Bool
  requests : List Frame
  outbound : List OutEntry
  resetPending : Bool
deriving DecidableEq, Repr

/-! ## The air timer (chapter 2) -/

/-- The reason of the last stop of the air (R24, R28). -/
inductive StopReason where
  | none
  | request
  | readyLost
  | softReset
deriving DecidableEq, Repr

/-- The three kinds of notice (chapter 6). -/
inductive NoticeKind where
  | text
  | call
  | retune
deriving DecidableEq, Repr

/-- Which receivers a notice addresses, by type (chapter 6). -/
inductive TargetType where
  | all
  | channel
  | group
  | device
deriving DecidableEq, Repr

/-- One notice cell as the scheduler hands it to the air timer (R108). `content` is the cell's 64 bytes. -/
structure NoticeCell where
  handle : Nat
  kind : NoticeKind
  targetType : TargetType
  targetValue : BitVec 32
  retuneChannel : Option ChannelId
  cellIndex : Nat
  cellTotal : Nat
  payloadLength : Nat
  transmission : Nat
  content : List Byte
deriving DecidableEq, Repr

/-- The three letters of a language tag, as bytes in reading order (11.1). -/
structure Language where
  first : Byte
  second : Byte
  third : Byte
deriving DecidableEq, Repr

/-- A channel's line in the beacon: open, and the live plan's language or three zero bytes (R23). -/
structure BeaconLine where
  isOpen : Bool
  language : Language
deriving DecidableEq, Repr

/-- An entry of the downlink image, with its content (chapter 2). -/
inductive SlotEntry where
  | empty
  | beacon (countLow : BitVec 16) (lines : List BeaconLine)
  | voice (channel : ChannelId) (samples : List Sample)
  | silence (channel : ChannelId)
  | notice (cell : NoticeCell)
deriving DecidableEq, Repr

/-- The superframe most recently built: its count, the capacity offered and the notice cells placed (R20, R28). -/
structure LastBuild where
  count : Count
  capacity : Nat
  placed : Nat
deriving DecidableEq, Repr

/-- The state of the air timer. `running` is air_state RUNNING and `ready` is front_end_ready READY. `stopAt` is the count
AIR_STOP gave when it set stop_pending (R26). `due` says how far the superframe in progress has gone, as the number of the
earliest part that may still come: 0-23 the downlink slots, 24-35 the uplink slots, 36 OUTPUT, 37 REVIEW, 38 BUILD, 39 the
superframe's end (2.1). `lineTaken0` and `lineTaken1` record that the superframe's block of that line input has come (R35). -/
structure Air where
  running : Bool
  count : Count
  stopPending : Bool
  stopAt : Count
  ready : Bool
  image : Vector SlotEntry 24
  lastBuild : Option LastBuild
  lastStop : StopReason
  due : Nat
  lineTaken0 : Bool
  lineTaken1 : Bool
deriving DecidableEq, Repr

/-! ## The cell store (chapter 3) and the source trackers (chapter 4) -/

/-- The cell store. A cell's owner is FREE when it stands in `freeList`, a source when it stands in that source's chain, and
a notice when it stands in that record's chain; `free` is the length of the free list (R36). -/
structure Pool where
  freeList : List CellId
  lowWater : Nat
deriving DecidableEq, Repr

/-- An elastic buffer: its chain of cells, the samples of the head cell already read, and the unread samples, oldest first.
The fill F is the number of unread samples; `readOffset` is 0 while the chain is empty (3.3). -/
structure Buffer where
  chain : List CellId
  readOffset : Nat
  samples : List Sample
deriving DecidableEq, Repr

/-- The states of a source (4.1). -/
inductive SourceState where
  | off
  | waiting
  | acquire
  | track
  | holdover
  | fixed
deriving DecidableEq, Repr

/-- The states a source can hold when it enters HOLDOVER. -/
inductive PriorState where
  | acquire
  | track
deriving DecidableEq, Repr

/-- A source's rate mode (R68). -/
inductive RateMode where
  | auto
  | fixed
deriving DecidableEq, Repr

/-- The current output block: none, SILENCE, or 160 samples with a padding count (R19, R60). -/
inductive OutputBlock where
  | none
  | silence
  | samples (data : List Sample) (padding : Nat)
deriving DecidableEq, Repr

/-- The numeric settings of a source, as SOURCE_CONFIG writes them (R66). -/
structure SourceSettings where
  targetFill : Nat
  biAcq : Nat
  biTrk : Nat
  bpAcq : Nat
  bpTrk : Nat
  slopeLimit : Nat
  lockThreshold : Nat
  lockTimer : Nat
  historyDepth : Nat
  reacquireLimit : Nat
  lostLimit : Nat
  lolThreshold : Nat
deriving DecidableEq, Repr

/-- A source's tracker record with its elastic buffer (chapter 4's table). `history` is the history ring, oldest first;
`line` is line ON, and stays clear for an uplink source. -/
structure Source where
  state : SourceState
  locked : Bool
  prefill : Bool
  f : Int
  acc : Int
  r : Int
  run : Nat
  age : Nat
  priorState : Option PriorState
  priorLocked : Bool
  history : List Int
  historyCounter : Nat
  lol : Nat
  blockArrived : Bool
  lastSequence : Option Byte
  block : OutputBlock
  muted : Bool
  line : Bool
  mode : RateMode
  fFixed : Int
  settings : SourceSettings
  buffer : Buffer
deriving DecidableEq, Repr

/-! ## The channel selector (chapter 5) -/

/-- The states of a channel (5.1). -/
inductive ChannelState where
  | closed
  | silent
  | live
  | bridging
deriving DecidableEq, Repr

/-- A channel plan; `sources` is the source list in rank order, the best first (chapter 5). -/
structure Plan where
  language : Language
  sources : List SourceId
  revert : Bool
  switchDelay : Nat
  revertWait : Nat
deriving DecidableEq, Repr

/-- A channel record (chapter 5's table). -/
structure Channel where
  state : ChannelState
  livePlan : Option Plan
  stagedPlan : Option Plan
  applyPending : Bool
  activeSource : Option SourceId
  bridgeCount : Nat
  revertCandidate : Option SourceId
  revertCount : Nat
  boundGroups : Nat
  switchCount : Nat
deriving DecidableEq, Repr

/-! ## The notice scheduler (chapter 6) -/

/-- The two classes of notice. -/
inductive NoticeClass where
  | urgent
  | routine
deriving DecidableEq, Repr

/-- A notice record (chapter 6's table). `cells` is the cell chain and `payload` the bytes written into it. -/
structure NoticeRecord where
  handle : Nat
  cls : NoticeClass
  kind : NoticeKind
  targetType : TargetType
  targetValue : BitVec 32
  retuneChannel : Option ChannelId
  repeatsRemaining : Nat
  interval : Nat
  notBefore : Count
  expiry : Option Count
  payload : List Byte
  cells : List CellId
  transmissions : Nat
deriving DecidableEq, Repr

/-- The notice scheduler: its table, its two queues of handles, the late counter and flag, the limit, the next handle. -/
structure Scheduler where
  records : List NoticeRecord
  urgent : List Nat
  routine : List Nat
  lateCounter : Nat
  lateFlag : Bool
  lateLimit : Nat
  nextHandle : Nat
deriving DecidableEq, Repr

/-! ## The rack bus controller (chapter 7) and the charge controller (chapter 8) -/

/-- Whether a rack answers its scans. -/
inductive RackState where
  | online
  | unreachable
deriving DecidableEq, Repr

/-- A rack window with the account the charge controller keeps for it: budget, committed draw, session list and the three
parts of the admission queue. `scanTimer` is set while the 1 s scan timer runs. -/
structure RackWindow where
  base : Nat
  size : Nat
  settle : Nat
  rackState : RackState
  scanMisses : Nat
  scanTimer : Bool
  budget : Nat
  committed : Nat
  sessions : List SlotAddr
  shedPart : List SlotAddr
  micPart : List SlotAddr
  receiverPart : List SlotAddr
deriving DecidableEq, Repr

/-- The occupancy of a slot. -/
inductive Occupancy where
  | empty
  | probing
  | occupied
  | fault
deriving DecidableEq, Repr

/-- Why a slot is in FAULT (codes 1, 2 and 3). -/
inductive FaultCause where
  | timeout
  | device
  | fleetFull
deriving DecidableEq, Repr

/-- A slot's place in charging (8.1). -/
inductive ChargePhase where
  | none
  | waiting
  | bulk
  | top
  | full
deriving DecidableEq, Repr

/-- A slot record with the fields the charge controller holds for it. `reservation` is an issue handle; `pollTimer` is the
period in seconds with which the poll timer runs, absent while it is stopped. -/
structure Slot where
  occupancy : Occupancy
  deviceId : Option DeviceId
  level : Nat
  timeouts : Nat
  faultCause : Option FaultCause
  released : Bool
  phase : ChargePhase
  reservation : Option Nat
  topCounter : Nat
  pollTimer : Option Nat
  setOwed : Bool
deriving DecidableEq, Repr

/-- The mode a SET_CHARGE carries (R115, R176). -/
inductive ChargeMode where
  | off
  | bulk
  | top
deriving DecidableEq, Repr

/-- An exchange with what it names and what its request carries (R115). A CLEAR records the device its slot named when it
was requested (R162). -/
inductive Exchange where
  | scan (rack : RackId)
  | probe (slot : SlotAddr)
  | poll (slot : SlotAddr)
  | setCharge (slot : SlotAddr) (mode : ChargeMode)
  | tune (slot : SlotAddr) (channel : ChannelId) (group : GroupId) (roster : Option RosterId)
  | release (slot : SlotAddr)
  | clear (slot : SlotAddr) (device : DeviceId)
deriving DecidableEq, Repr

/-- The exchange in flight: what was sent, the parameters of its good answer once one has come, and whether its rack has
been removed meanwhile (R118, R120). Its start time is left out with the rest of the timing (assumption 4). -/
structure InFlight where
  exchange : Exchange
  rack : RackId
  position : Byte
  number : Byte
  settle : Nat
  answer : Option (List Byte)
  doomed : Bool
deriving DecidableEq, Repr

/-- The rack bus: class queues 1 to 6 (index class - 1), the exchange in flight and the number last given (R117). -/
structure Bus where
  queues : Vector (List Exchange) 6
  inFlight : Option InFlight
  number : Byte
deriving DecidableEq, Repr

/-- The charge settings of the whole part (R143). -/
structure ChargeSettings where
  pollPeriod : Nat
  topLevel : Nat
  rechargeLevel : Nat
  topPolls : Nat
deriving DecidableEq, Repr

/-! ## The fleet manager (chapter 9) -/

/-- The kinds of device. -/
inductive DeviceKind where
  | receiver
  | mic
deriving DecidableEq, Repr

/-- Where a device is. -/
inductive DeviceState where
  | docked
  | out
  | unseen
deriving DecidableEq, Repr

/-- Whether an erasure of the device's assignment is still to be carried. -/
inductive ClearState where
  | none
  | owed
  | queued
deriving DecidableEq, Repr

/-- The assignment of an OUT device. -/
structure Assignment where
  group : GroupId
  channel : ChannelId
  roster : Option RosterId
deriving DecidableEq, Repr

/-- A device record. -/
structure Device where
  id : DeviceId
  kind : DeviceKind
  state : DeviceState
  slot : Option SlotAddr
  level : Nat
  assignment : Option Assignment
  clearState : ClearState
deriving DecidableEq, Repr

/-- The states of a tour group. -/
inductive GroupState where
  | free
  | opened
  | closing
deriving DecidableEq, Repr

/-- The outcome of a group's last completed issue. -/
structure LastIssue where
  issued : Nat
  count : Nat
  retuned : Bool
  cancelled : Bool
deriving DecidableEq, Repr

/-- A group record. -/
structure Group where
  state : GroupState
  channel : Option ChannelId
  outCount : Nat
  issueHandle : Option Nat
  lastIssue : Option LastIssue
deriving DecidableEq, Repr

/-- The stage of an issue candidate. -/
inductive Stage where
  | tune
  | release
deriving DecidableEq, Repr

/-- The candidate in flight of an issue operation. -/
structure Candidate where
  slot : SlotAddr
  stage : Stage
  tunedChannel : ChannelId
deriving DecidableEq, Repr

/-- An issue operation; its handle is its group's number plus 1. -/
structure IssueOperation where
  group : GroupId
  kind : DeviceKind
  count : Nat
  minLevel : Nat
  roster : Option RosterId
  issued : Nat
  cancel : Bool
  retuned : Bool
  candidate : Option Candidate
  tried : List SlotAddr
deriving DecidableEq, Repr

/-- A roster entry: FREE, HELD by an operation's handle, or BOUND to a microphone's id (9.3). -/
inductive RosterEntry where
  | free
  | held (handle : Nat)
  | bound (device : DeviceId)
deriving DecidableEq, Repr

/-! ## The event unit (chapter 10) -/

/-- The latest record of an event kind. -/
structure LatestRecord where
  object : Nat
  detail : BitVec 32
  count : Count
  byRequest : Bool
deriving DecidableEq, Repr

/-- What the event unit holds for one kind. -/
structure EventKindState where
  raw : Bool
  enable : Bool
  latest : Option LatestRecord
  repeats : Nat
deriving DecidableEq, Repr

/-! ## The pins -/

/-- The ports as last driven or seen: the level of the ready line, the frame strobe, what the last downlink slot carried on
the data-out line (no bytes: idle), the bytes of the frame last transmitted on TXD, and of the request frame last sent on the
rack bus. The output fields are the model's record of the ports (assumption 6). -/
structure Pins where
  readyLine : Bool
  frameStrobe : Bool
  dataOut : List Byte
  txd : List Byte
  rackBus : List Byte
deriving DecidableEq, Repr

/-- The whole state of the part, and `pending`, the commands waiting to be taken, first in, first out. -/
structure State where
  link : Link
  air : Air
  pool : Pool
  sources : Vector Source 14
  channels : Vector Channel 16
  sched : Scheduler
  racks : Vector (Option RackWindow) 8
  slots : Vector (Option Slot) 256
  bus : Bus
  charge : ChargeSettings
  devices : List Device
  groups : Vector Group 24
  ops : List IssueOperation
  roster : Vector RosterEntry 12
  events : Vector EventKindState 25
  pins : Pins
  pending : List Instr
deriving DecidableEq, Repr

/-- The reasons the part can stop with: none. No rule of the spec names a condition that stops it: a bad frame, a bad block, a
timeout or a refused request is an effect on the state, so this type has no constructor. Safe: a claim cannot rest on a stop. -/
inductive Fault where
deriving DecidableEq, Repr

/-- The refusals. -/
inductive Refusal where
  /-- Raised by `exec`'s arm of a command whose meaning is not written yet; no arm raises it now. Safe: the run stops. -/
  | notModelled (mnemonic : String)
deriving DecidableEq, Repr

/-! ## The state right after a hard reset -/

/-- An elastic buffer that holds nothing (R48). -/
def Buffer.empty : Buffer := { chain := [], readOffset := 0, samples := [] }

/-- The settings' hard-reset defaults (R66). -/
def SourceSettings.default : SourceSettings :=
  { targetFill := 320, biAcq := 10, biTrk := 14, bpAcq := 6, bpTrk := 8, slopeLimit := 256, lockThreshold := 6,
    lockTimer := 200, historyDepth := 4, reacquireLimit := 50, lostLimit := 300, lolThreshold := 3 }

/-- A source after a hard reset, with the rate mode its number gives (R73). -/
def Source.initial (mode : RateMode) : Source :=
  { state := .off, locked := false, prefill := false, f := 0, acc := 0, r := 0, run := 0, age := 0, priorState := none,
    priorLocked := false, history := [], historyCounter := 0, lol := 0, blockArrived := false, lastSequence := none,
    block := .none, muted := false, line := false, mode := mode, fFixed := 0, settings := .default, buffer := .empty }

/-- The fourteen sources after a hard reset: AUTO for 0-11, FIXED for the line sources 12 and 13 (R73). -/
def sourcesInitial : Vector Source 14 :=
  ((Vector.replicate 14 (Source.initial .auto)).set 12 (Source.initial .fixed)).set 13 (Source.initial .fixed)

/-- A channel after a hard reset (R92). -/
def Channel.initial : Channel :=
  { state := .closed, livePlan := none, stagedPlan := none, applyPending := false, activeSource := none, bridgeCount := 0,
    revertCandidate := none, revertCount := 0, boundGroups := 0, switchCount := 0 }

/-- The notice scheduler after a hard reset (R113). -/
def Scheduler.initial : Scheduler :=
  { records := [], urgent := [], routine := [], lateCounter := 0, lateFlag := false, lateLimit := 10, nextHandle := 1 }

/-- A slot record as RACK_DEFINE creates it (R114, R130). -/
def Slot.initial : Slot :=
  { occupancy := .empty, deviceId := none, level := 0, timeouts := 0, faultCause := none, released := false, phase := .none,
    reservation := none, topCounter := 0, pollTimer := none, setOwed := false }

/-- The rack bus with nothing queued and nothing in flight (R129). -/
def Bus.idle (number : Byte) : Bus := { queues := Vector.replicate 6 [], inFlight := none, number := number }

/-- The charge settings' hard-reset defaults (R143). -/
def ChargeSettings.default : ChargeSettings := { pollPeriod := 2, topLevel := 90, rechargeLevel := 95, topPolls := 300 }

/-- A group after a hard reset (R163). -/
def Group.initial : Group := { state := .free, channel := none, outCount := 0, issueHandle := none, lastIssue := none }

/-- An event kind after a hard reset (R172). -/
def EventKindState.initial : EventKindState := { raw := false, enable := false, latest := none, repeats := 0 }

/-- The cell store after either reset: every cell FREE, free and low_water 512 (R48). The free list has no stated order;
the model keeps it in cell order (assumption 3). -/
def Pool.initial : Pool := { freeList := List.finRange 512, lowWater := 512 }

/-- The downlink image with all entries EMPTY (R29). -/
def imageEmpty : Vector SlotEntry 24 := Vector.replicate 24 .empty

/-- The rate code of STARTED and IDENTIFY (R13). -/
def LineRate.code : LineRate → Byte
  | .b115200 => 0
  | .b460800 => 1
  | .b921600 => 2

/-- The STARTED notice: kind H'E1, tag 0, cause, rate_code and revision 1 (R13, R14, R173). -/
def startedNotice (cause : Byte) (rate : LineRate) : Frame := { kind := 0xE1, tag := 0, body := [cause, rate.code, 1] }

/-- The part when RESETN has been released with this line rate and this level on the ready line: every block at its
hard-reset values, and the STARTED notice with cause HARD queued (R16, R29, R48, R73, R92, R113, R129, R144, R163, R172). -/
def State.hardReset (rate : LineRate) (ready : Bool) : State :=
  { link := { rate := rate, rx := .hunt, under := none, gapTimer := false, requests := [],
              outbound := [.frame (startedNotice 1 rate)], resetPending := false },
    air := { running := false, count := 0, stopPending := false, stopAt := 0, ready := ready, image := imageEmpty,
             lastBuild := none, lastStop := .none, due := 0, lineTaken0 := false, lineTaken1 := false },
    pool := .initial, sources := sourcesInitial, channels := Vector.replicate 16 .initial, sched := .initial,
    racks := Vector.replicate 8 none, slots := Vector.replicate 256 none, bus := .idle 0, charge := .default, devices := [],
    groups := Vector.replicate 24 .initial, ops := [], roster := Vector.replicate 12 .free,
    events := Vector.replicate 25 .initial,
    pins := { readyLine := ready, frameStrobe := false, dataOut := [], txd := [], rackBus := [] }, pending := [] }

/-- The part right after a hard reset with both straps low (115200 baud, R1) and the ready line low. DESIGN CHOICE
(assumption 1): the spec leaves the levels on these pins to the board; HARD_RESET carries any others. -/
def State.reset : State := State.hardReset .b115200 false

end Sys2Proof.Machine
end

