-- ==== Sys2Proof/Machine/Ops.lean ====
section
/-! DEFINITION. The operations every block uses: byte order and field widths (11.1, R173), the CRC (R5), the host frame's
bytes, the comparison of superframe counts (R18), indices out of field values, orders, and reading and writing one object
of the state. -/

namespace Sys2Proof.Machine

/-! ## Numbers as bytes -/

/-- An unsigned field of one byte. -/
def le8 (n : Nat) : List Byte := [BitVec.ofNat 8 n]

/-- An unsigned field of two bytes, the least significant first: the order of 11.1 on the host link and the rack bus, and by
assumption 26 the order on the front-end port too. -/
def le16 (n : Nat) : List Byte := [BitVec.ofNat 8 n, BitVec.ofNat 8 (n / 256)]

/-- An unsigned field of four bytes, in the same order (11.1, assumption 26). -/
def le32 (n : Nat) : List Byte :=
  [BitVec.ofNat 8 n, BitVec.ofNat 8 (n / 256), BitVec.ofNat 8 (n / 65536), BitVec.ofNat 8 (n / 16777216)]

/-- A signed field of two bytes, two's complement (11.1). -/
def leInt16 (i : Int) : List Byte := le16 (BitVec.ofInt 16 i).toNat

/-- A signed field of four bytes, two's complement (11.1). -/
def leInt32 (i : Int) : List Byte := le32 (BitVec.ofInt 32 i).toNat

/-- A flag as a field: 0 clear, 1 set. -/
def leFlag (b : Bool) : List Byte := [if b then 1 else 0]

/-- The value of the one-byte field at offset `i` (0 past the end, which a checked length rules out). -/
def field8 (body : List Byte) (i : Nat) : Nat := (body.getD i 0).toNat

/-- The value of the two-byte field at offset `i`, the least significant byte first (11.1, assumption 26). -/
def field16 (body : List Byte) (i : Nat) : Nat := field8 body i + 256 * field8 body (i + 1)

/-- The value of the four-byte field at offset `i`, in the same order (11.1, assumption 26). -/
def field32 (body : List Byte) (i : Nat) : Nat := field16 body i + 65536 * field16 body (i + 2)

/-- The value of the signed two-byte field at offset `i`. -/
def fieldInt16 (body : List Byte) (i : Nat) : Int := (BitVec.ofNat 16 (field16 body i)).toInt

/-- An object number out of a field's value: absent when there is no such object. -/
def toIndex (n x : Nat) : Option (Fin n) := if h : x < n then some ⟨x, h⟩ else none

/-- A value replaced by the nearest end of its range (00_scope.md, Numbers). -/
def clamp (lo hi x : Nat) : Nat := max lo (min hi x)

/-- The same for a signed value. -/
def clampInt (lo hi x : Int) : Int := max lo (min hi x)

/-! ## The frame check -/

/-- One bit of the CRC-16 with polynomial H'1021 (R5). -/
def crcBit (c : BitVec 16) : BitVec 16 := if c.msb then (c <<< 1) ^^^ 0x1021#16 else c <<< 1

/-- One byte into the check, most significant bit first (R5). -/
def crcByte (c : BitVec 16) (b : Byte) : BitVec 16 :=
  crcBit (crcBit (crcBit (crcBit (crcBit (crcBit (crcBit (crcBit (c ^^^ (b.zeroExtend 16 <<< 8)))))))))

/-- The check over a run of bytes, from the initial value H'FFFF (R5). -/
def crc (bytes : List Byte) : BitVec 16 := bytes.foldl crcByte 0xFFFF#16

/-- The bytes of a host frame on the line (R173). -/
def Frame.bytes (f : Frame) : List Byte :=
  let covered := le16 f.body.length ++ [f.kind, f.tag] ++ f.body
  [0xA5#8] ++ covered ++ le16 (crc covered).toNat

/-! ## Superframe counts -/

/-- x is at or after y (R18). DESIGN CHOICE (log entry 28): of two counts exactly 2^31 apart R18's table makes neither at or after the
other, its sentence below the table each; the model follows the table. -/
def atOrAfter (x y : Count) : Bool := decide ((x - y).toNat < 2 ^ 31)

/-! ## Orders -/

/-- The members of a list at their first places. -/
def distinct {α : Type} [DecidableEq α] : List α → List α
  | [] => []
  | a :: l => a :: (distinct l).filter (fun b => b ≠ a)

/-- An order of all `n` objects: those named, in the order named, then the others in increasing number. An order that names
each object once is this order itself. -/
def fullOrder {n : Nat} (order : List (Fin n)) : List (Fin n) :=
  distinct order ++ (List.finRange n).filter (fun a => a ∉ order)

/-- Do the same work for each object of a list, in its order. -/
def forEach {α : Type} (l : List α) (f : α → State → State) (s : State) : State := l.foldl (fun s a => f a s) s

/-! ## Objects of the state -/

/-- The source of uplink slot and roster entry k (00_scope.md, Names). -/
def uplinkSource (k : RosterId) : SourceId := ⟨k.val, by omega⟩

/-- The line source of line input 0 or 1. -/
def lineSource (l : Fin 2) : SourceId := ⟨12 + l.val, by omega⟩

/-- Sources 12 and 13 are the line sources. -/
def isLineSource (k : SourceId) : Bool := decide (12 ≤ k.val)

/-- Write source k's record. -/
def State.setSource (s : State) (k : SourceId) (x : Source) : State := { s with sources := s.sources.set k x }

/-- Write channel c's record. -/
def State.setChannel (s : State) (c : ChannelId) (x : Channel) : State := { s with channels := s.channels.set c x }

/-- Write rack window r. -/
def State.setRack (s : State) (r : RackId) (x : Option RackWindow) : State := { s with racks := s.racks.set r x }

/-- Change rack window r, if it is defined. -/
def State.modRack (s : State) (r : RackId) (f : RackWindow → RackWindow) : State := s.setRack r (s.racks[r].map f)

/-- Write the slot record at address a. -/
def State.setSlot (s : State) (a : SlotAddr) (x : Option Slot) : State := { s with slots := s.slots.set a x }

/-- Change the slot record at address a, if there is one. -/
def State.modSlot (s : State) (a : SlotAddr) (f : Slot → Slot) : State := s.setSlot a (s.slots[a].map f)

/-- Write group g's record. -/
def State.setGroup (s : State) (g : GroupId) (x : Group) : State := { s with groups := s.groups.set g x }

/-- Write roster entry k. -/
def State.setRoster (s : State) (k : RosterId) (x : RosterEntry) : State := { s with roster := s.roster.set k x }

/-- Write what the event unit holds for kind k. -/
def State.setEvent (s : State) (k : EventId) (x : EventKindState) : State := { s with events := s.events.set k x }

/-- Write the exchanges waiting in a class queue. -/
def State.setQueue (s : State) (q : Fin 6) (l : List Exchange) : State :=
  { s with bus := { s.bus with queues := s.bus.queues.set q l } }

/-- The device record with this id. -/
def State.device? (s : State) (id : DeviceId) : Option Device := s.devices.find? (fun d => d.id = id)

/-- Change the device record with this id. -/
def State.modDevice (s : State) (id : DeviceId) (f : Device → Device) : State :=
  { s with devices := s.devices.map (fun d => if d.id = id then f d else d) }

/-- The running operation of group g. -/
def State.op? (s : State) (g : GroupId) : Option IssueOperation := s.ops.find? (fun o => o.group = g)

/-- Change the running operation of group g. -/
def State.modOp (s : State) (g : GroupId) (f : IssueOperation → IssueOperation) : State :=
  { s with ops := s.ops.map (fun o => if o.group = g then f o else o) }

/-- An operation's handle: its group's number plus 1 (9.4). -/
def handleOf (g : GroupId) : Nat := g.val + 1

/-- The notice record with this handle. -/
def State.notice? (s : State) (h : Nat) : Option NoticeRecord := s.sched.records.find? (fun n => n.handle = h)

/-- Change a channel's bound group count (R87). -/
def State.modBound (s : State) (c : ChannelId) (f : Nat → Nat) : State :=
  s.setChannel c { s.channels[c] with boundGroups := f s.channels[c].boundGroups }

/-- The fill F of a buffer (3.3). -/
def Buffer.fill (b : Buffer) : Nat := b.samples.length

/-- The samples written into the tail cell, 1-32; absent when the chain is empty (3.3). -/
def Buffer.tailCount (b : Buffer) : Option Nat :=
  if b.chain = [] then none else some (b.readOffset + b.fill - 32 * (b.chain.length - 1))

/-- The number of free cells (R36). -/
def Pool.free (p : Pool) : Nat := p.freeList.length

/-- The addresses of a window's slots, in increasing order. -/
def RackWindow.addresses (w : RackWindow) : List SlotAddr := (List.range w.size).filterMap (fun i => toIndex 256 (w.base + i))

/-- The window holds the address. -/
def RackWindow.holds (w : RackWindow) (a : SlotAddr) : Bool := decide (w.base ≤ a.val ∧ a.val < w.base + w.size)

/-- The rack whose defined window holds the address. -/
def State.rackOf (s : State) (a : SlotAddr) : Option RackId :=
  (List.finRange 8).find? (fun r => match s.racks[r] with | some w => w.holds a | none => false)

/-- The indices of the defined windows, in increasing order. -/
def State.definedRacks (s : State) : List RackId := (List.finRange 8).filter (fun r => (s.racks[r]).isSome)

/-! ## The outbound queue and replies -/

/-- Thresholds of R7 on the outbound occupancy. -/
def eventThreshold : Nat := 24
def replyThreshold : Nat := 28
def busyThreshold : Nat := 32

/-- The request queue's capacity (1.4). -/
def requestCapacity : Nat := 4

/-- The occupancy of the outbound queue: frames and reserved entries together (R7). -/
def State.occupancy (s : State) : Nat := s.link.outbound.length

/-- Add an entry at the tail of the outbound queue. -/
def State.addOutbound (s : State) (e : OutEntry) : State :=
  { s with link := { s.link with outbound := s.link.outbound ++ [e] } }

/-- The status codes of replies (R10). -/
inductive Status where
  | ok
  | accepted
  | busy
  | badKind
  | badLength
  | badValue
  | noObject
  | wrongState
  | pending
  | noSpace
  | conflict
deriving DecidableEq, Repr

/-- A status code's value (R10). -/
def Status.code : Status → Byte
  | .ok => 0x00
  | .accepted => 0x01
  | .busy => 0x02
  | .badKind => 0x03
  | .badLength => 0x04
  | .badValue => 0x05
  | .noObject => 0x06
  | .wrongState => 0x07
  | .pending => 0x08
  | .noSpace => 0x09
  | .conflict => 0x0A

/-- What an owner answers: the status and the reply fields (R9, R10). -/
structure Reply where
  status : Status
  fields : List Byte
deriving DecidableEq, Repr

/-- A reply that is its status alone. -/
def Reply.bare (status : Status) : Reply := { status := status, fields := [] }

/-- The reply OK with these fields. -/
def Reply.okWith (fields : List Byte) : Reply := { status := .ok, fields := fields }

/-- The reply frame to a request: its kind plus H'80 modulo 256, its tag, the status and the fields (R10). -/
def replyFrame (kind tag : Byte) (r : Reply) : Frame :=
  { kind := kind + 0x80#8, tag := tag, body := r.status.code :: r.fields }

/-- An owner's work on a request: the state it leaves and its answer (R9). -/
abbrev Answer := State × Reply

/-- A request refused: nothing changes but the reply. -/
def refuse (s : State) (status : Status) : Answer := (s, .bare status)

end Sys2Proof.Machine
end

