-- ==== Sys2Proof/Machine/Flags.lean ====
section
/-! DEFINITION. The event unit's flags (chapter 10): the event kinds' numbers, raising a kind, the level conditions, and the
offer of an EVENT notice to the link controller (R11). -/

namespace Sys2Proof.Machine

/-- The event kinds by name (10.4). -/
inductive EventKind where
  | linkFrameBad
  | radioDown
  | sourceLocked
  | sourceLockLost
  | sourceLolLimit
  | sourceHoldover
  | sourceLost
  | elasticOverrun
  | elasticUnderrun
  | uplinkForeign
  | poolExhausted
  | poolLow
  | channelSwitched
  | channelSilent
  | planApplied
  | noticeExpired
  | dockTimeout
  | slotFault
  | rackUnreachable
  | budgetShed
  | unissuedRemoval
  | deviceReturned
  | issueDone
  | groupClosed
  | fleetFull
deriving DecidableEq, Repr

/-- The number of an event kind (10.4). -/
def EventKind.num : EventKind → EventId
  | .linkFrameBad => 0
  | .radioDown => 1
  | .sourceLocked => 2
  | .sourceLockLost => 3
  | .sourceLolLimit => 4
  | .sourceHoldover => 5
  | .sourceLost => 6
  | .elasticOverrun => 7
  | .elasticUnderrun => 8
  | .uplinkForeign => 9
  | .poolExhausted => 10
  | .poolLow => 11
  | .channelSwitched => 12
  | .channelSilent => 13
  | .planApplied => 14
  | .noticeExpired => 15
  | .dockTimeout => 16
  | .slotFault => 17
  | .rackUnreachable => 18
  | .budgetShed => 19
  | .unissuedRemoval => 20
  | .deviceReturned => 21
  | .issueDone => 22
  | .groupClosed => 23
  | .fleetFull => 24

/-- The EVENT notice carrying a kind's latest record: kind H'E0, tag 0 (R11, R173). -/
def eventNotice (k : EventId) (l : LatestRecord) : Frame :=
  { kind := 0xE0, tag := 0,
    body := le8 k.val ++ le16 l.object ++ le32 l.detail.toNat ++ le32 l.count.toNat ++ leFlag l.byRequest }

/-- The link controller's part in an offer: the notice is added when no reset is pending and the occupancy is below 24, and
is not sent otherwise (R7, R11). -/
def addNotice (f : Frame) (s : State) : State :=
  if s.link.resetPending = false ∧ s.occupancy < eventThreshold then s.addOutbound (.frame f) else s

/-- Offer the EVENT notice of kind k with its latest record as it stands (R11, R166). -/
def offerNotice (k : EventId) (s : State) : State :=
  match (s.events[k]).latest with
  | some l => addNotice (eventNotice k l) s
  | none => s

/-- The event unit's record of a raise: the latest record, raw, and repeats up to 255 (R164). -/
def EventKindState.raised (e : EventKindState) (l : LatestRecord) : EventKindState :=
  { e with raw := true, latest := some l, repeats := if e.raw then min 255 (e.repeats + 1) else e.repeats }

/-- A raise of kind number k, taken as one step (R164). -/
def raiseKind (k : EventId) (object : Nat) (detail : BitVec 32) (byRequest : Bool) (s : State) : State :=
  let e := s.events[k]
  let s1 := s.setEvent k (e.raised { object := object, detail := detail, count := s.air.count, byRequest := byRequest })
  if e.raw = false ∧ e.enable = true then offerNotice k s1 else s1

/-- A block's raise (R164). -/
def raise (k : EventKind) (object detail : Nat) (s : State) : State :=
  raiseKind k.num object (BitVec.ofNat 32 detail) false s

/-- A block's raise whose detail is a signed value, sent as two's complement (10.4). -/
def raiseInt (k : EventKind) (object : Nat) (detail : Int) (s : State) : State :=
  raiseKind k.num object (BitVec.ofInt 32 detail) false s

/-- The voice reserve: 64 cells (R38, R40). -/
def voiceReserve : Nat := 64

/-- Some source's lol is above that source's threshold (R57, R165). -/
def lolCondition (s : State) : Bool :=
  (List.finRange 14).any (fun k => decide ((s.sources[k]).settings.lolThreshold < (s.sources[k]).lol))

/-- free is below 64 (R40, R165). -/
def poolLowCondition (s : State) : Bool := decide (s.pool.free < voiceReserve)

/-- Kinds 4 and 11 are level kinds (R165). -/
def isLevelKind (k : EventId) : Bool := decide (k = EventKind.sourceLolLimit.num ∨ k = EventKind.poolLow.num)

/-- The condition of a level kind; it never holds for another kind (R165, R167). -/
def levelCondition (k : EventId) (s : State) : Bool :=
  if k = EventKind.sourceLolLimit.num then lolCondition s
  else if k = EventKind.poolLow.num then poolLowCondition s
  else false

/-- The sum of 2^k over the kinds whose flag is set (R167). -/
def flagSum (flag : EventKindState → Bool) (s : State) : Nat :=
  ((List.finRange 25).filter (fun k => flag (s.events[k]))).foldl (fun n k => n + 2 ^ k.val) 0

/-- raw_flags (R167). -/
def rawFlags (s : State) : Nat := flagSum EventKindState.raw s

/-- enable_flags (R167). -/
def enableFlags (s : State) : Nat := flagSum EventKindState.enable s

end Sys2Proof.Machine
end

