-- ==== Sys2Proof/Machine/Link.lean ====
section
/-! DEFINITION. The message link (chapter 1): the receiver, the discarded frame, the request queue, the service of one
request by its owner, and transmission. The commands FRAME_RECEIVE, GAP_EXPIRY and FRAME_TRANSMITTED. -/

namespace Sys2Proof.Machine

/-! ## The receiver -/

/-- The frame under reception just after its start byte (R2). -/
def FrameUnderReception.start : FrameUnderReception :=
  { lengthLow := none, length := 0, kind := none, tag := none, body := [], check := 0xFFFF#16, checkLow := none }

/-- The receiver in HUNT with nothing under reception and the gap timer stopped (R2, R6). -/
def Link.hunting (l : Link) : Link := { l with rx := .hunt, under := none, gapTimer := false }

/-- The receiver going on with a frame: its state, the frame so far, and the gap timer restarted (R3 to R5). -/
def Link.receiving (l : Link) (rx : RxState) (u : FrameUnderReception) : Link :=
  { l with rx := rx, under := some u, gapTimer := true }

/-- The discard of a frame under reception with a cause's detail value (R6): LINK_FRAME_BAD, object 0. -/
def discardFrame (cause : Nat) (s : State) : State :=
  raise .linkFrameBad 0 cause { s with link := s.link.hunting }

/-- A good frame's place (R8, R15). -/
def placeGoodFrame (f : Frame) (s : State) : State :=
  if s.link.resetPending then s
  else if s.link.requests.length < requestCapacity then { s with link := { s.link with requests := s.link.requests ++ [f] } }
  else if s.occupancy < busyThreshold then s.addOutbound (.frame (replyFrame f.kind f.tag (.bare .busy)))
  else raise .linkFrameBad 0 5 s

/-- A character in LENGTH (R3). -/
def rxLength (u : FrameUnderReception) (b : Byte) (s : State) : State :=
  match u.lengthLow with
  | none => { s with link := s.link.receiving .length { u with lengthLow := some b, check := crcByte u.check b } }
  | some lo =>
    let len := lo.toNat + 256 * b.toNat
    if 256 < len then discardFrame 3 s
    else { s with link := s.link.receiving .body { u with length := len, check := crcByte u.check b } }

/-- A character in BODY: the kind, the tag, then the body bytes (R4). -/
def rxBody (u : FrameUnderReception) (b : Byte) (s : State) : State :=
  let u1 := { u with check := crcByte u.check b }
  match u.kind, u.tag with
  | none, _ => { s with link := s.link.receiving .body { u1 with kind := some b } }
  | some _, none =>
    { s with link := s.link.receiving (if u.length = 0 then .check else .body) { u1 with tag := some b } }
  | some _, some _ =>
    let u2 := { u1 with body := u.body ++ [b] }
    { s with link := s.link.receiving (if u2.body.length < u.length then .body else .check) u2 }

/-- A character in CHECK (R5). -/
def rxCheck (u : FrameUnderReception) (b : Byte) (s : State) : State :=
  match u.checkLow with
  | none => { s with link := s.link.receiving .check { u with checkLow := some b } }
  | some lo =>
    if u.check.toNat = lo.toNat + 256 * b.toNat then
      placeGoodFrame { kind := u.kind.getD 0, tag := u.tag.getD 0, body := u.body } { s with link := s.link.hunting }
    else discardFrame 1 s

/-- One character received on RXD (R1 to R6). -/
def receiveChar (c : RxChar) (s : State) : State :=
  match s.link.rx, s.link.under with
  | .hunt, _ =>
    if c.framingError = false ∧ c.byte = 0xA5#8 then { s with link := s.link.receiving .length .start } else s
  | .length, some u => if c.framingError then discardFrame 4 s else rxLength u c.byte s
  | .body, some u => if c.framingError then discardFrame 4 s else rxBody u c.byte s
  | .check, some u => if c.framingError then discardFrame 4 s else rxCheck u c.byte s
  | _, none => { s with link := s.link.hunting }

/-! ## Serving a request -/

/-- The conditions of service (R9). -/
def canServe (s : State) : Bool := decide (s.occupancy < replyThreshold) && !s.link.resetPending

/-- The reply takes the place of the reserved entry (R9). -/
def fillReserved (f : Frame) : List OutEntry → List OutEntry
  | [] => []
  | .reserved :: l => .frame f :: l
  | .frame g :: l => .frame g :: fillReserved f l

/-- One service: an entry is reserved, the owner takes the request, and the reply fills the entry (R9). -/
def serveWith (kind tag : Byte) (owner : State → Answer) (s : State) : State :=
  let a := owner (s.addOutbound .reserved)
  { a.1 with link := { a.1.link with outbound := fillReserved (replyFrame kind tag a.2) a.1.link.outbound } }

/-- The judgement of a body's length before the owner takes the request (R9). -/
def judged (lengthOk : List Byte → Bool) (take : List Byte → State → Answer) (body : List Byte) (s : State) : Answer :=
  if lengthOk body then take body s else refuse s .badLength

/-- A host request of a kind, as a command: its good frame completes, and it is served at once when no other request waits
and the link may serve (R9); otherwise it takes its place under R8. DESIGN CHOICE (assumption 2). -/
def submit (kind : Byte) (lengthOk : List Byte → Bool) (take : List Byte → State → Answer) (tag : Byte) (body : List Byte)
    (s : State) : State :=
  if s.link.requests = [] ∧ canServe s = true then serveWith kind tag (judged lengthOk take body) s
  else placeGoodFrame { kind := kind, tag := tag, body := body } s

/-- A body of exactly these many bytes. -/
def exactly (n : Nat) (body : List Byte) : Bool := decide (body.length = n)

/-! ## Commands -/

/-- FRAME_RECEIVE: the characters are taken one by one (R2 to R8). -/
def execFrameReceive (chars : List RxChar) (s : State) : Host.Outcome State Fault Refusal :=
  .next (forEach chars receiveChar s)

/-- GAP_EXPIRY: the frame under reception is discarded with cause GAP (R6); nothing happens while the timer is stopped. -/
def execGapExpiry (s : State) : Host.Outcome State Fault Refusal :=
  .next (if s.link.gapTimer then discardFrame 2 s else s)

/-- FRAME_TRANSMITTED: the frame at the head of the outbound queue leaves it (R7). A reserved entry is not transmitted. -/
def execFrameTransmitted (s : State) : Host.Outcome State Fault Refusal :=
  match s.link.outbound with
  | .frame f :: rest =>
    .next { s with link := { s.link with outbound := rest }, pins := { s.pins with txd := f.bytes } }
  | _ => .next s

/-! ## The link controller's requests -/

/-- The part's fixed answers to IDENTIFY (R14). -/
def vendorCode : Nat := 0x42B3
def partCode : Nat := 1614
def revision : Nat := 1

/-- IDENTIFY, kind H'01 (R14). -/
def takeIdentify (_body : List Byte) (s : State) : Answer :=
  (s, .okWith (le16 vendorCode ++ le16 partCode ++ le8 revision ++ [s.link.rate.code] ++ le8 14 ++ le8 16 ++ le16 512 ++
    le8 64 ++ le8 64 ++ le8 8 ++ le16 384 ++ le8 24 ++ le8 4 ++ le8 12 ++ le8 25))

/-- SOFT_RESET, kind H'02: OK, and reset-pending is set (R15). -/
def takeSoftReset (_body : List Byte) (s : State) : Answer :=
  ({ s with link := { s.link with resetPending := true } }, .okWith [])

def execIdentify (tag : Byte) (body : List Byte) (s : State) : Host.Outcome State Fault Refusal :=
  .next (submit 0x01 (exactly 0) takeIdentify tag body s)

def execSoftReset (tag : Byte) (body : List Byte) (s : State) : Host.Outcome State Fault Refusal :=
  .next (submit 0x02 (exactly 0) takeSoftReset tag body s)

end Sys2Proof.Machine
end

