-- ==== Sys2Proof/Machine/Pool.lean ====
section
/-! DEFINITION. The cell store and the elastic buffers (3.2, 3.3): lending, returning, appending, consuming; and
POOL_STATUS. -/

namespace Sys2Proof.Machine

/-! ## Returning and lending -/

/-- Cells come back to the free list (R39). -/
def returnCells (cells : List CellId) (s : State) : State :=
  { s with pool := { s.pool with freeList := s.pool.freeList ++ cells } }

/-- The store after cells have been lent, with low_water following free down (R36, R41). -/
def Pool.lent (p : Pool) (rest : List CellId) : Pool := { freeList := rest, lowWater := min p.lowWater rest.length }

/-- One cell lent to an elastic buffer, or none when no cell is free (R37); POOL_LOW at the fall below 64 (R40). -/
def lendElastic (s : State) : Option (CellId × State) :=
  match s.pool.freeList with
  | [] => none
  | c :: rest =>
    let s1 := { s with pool := s.pool.lent rest }
    some (c, if voiceReserve ≤ s.pool.free ∧ rest.length < voiceReserve then raise .poolLow 0 rest.length s1 else s1)

/-- All m cells of a notice lent together, when at least 64 cells remain free (R38). -/
def lendNotice (m : Nat) (s : State) : Option (List CellId × State) :=
  if m + voiceReserve ≤ s.pool.free then
    some (s.pool.freeList.take m, { s with pool := s.pool.lent (s.pool.freeList.drop m) })
  else none

/-! ## Elastic buffers -/

/-- The cells of a buffer's head that the reading of m more samples empties: whole cells, and the last cell too when the
fill becomes 0 (R39, R45). -/
def Buffer.emptied (b : Buffer) (m : Nat) : Nat :=
  if b.fill ≤ m then b.chain.length else (b.readOffset + m) / 32

/-- A buffer after its m oldest samples have been read or discarded (R43, R45). -/
def Buffer.consumed (b : Buffer) (m : Nat) : Buffer :=
  if b.fill ≤ m then { chain := [], readOffset := 0, samples := [] }
  else { chain := b.chain.drop (b.emptied m), readOffset := (b.readOffset + m) % 32, samples := b.samples.drop m }

/-- Source k's m oldest samples leave its buffer, and the cells they empty are returned (R43, R45). -/
def consume (k : SourceId) (m : Nat) (s : State) : State :=
  let x := s.sources[k]
  returnCells (x.buffer.chain.take (x.buffer.emptied m)) (s.setSource k { x with buffer := x.buffer.consumed m })

/-- Write source k's buffer. -/
def setBuffer (k : SourceId) (b : Buffer) (s : State) : State := s.setSource k { s.sources[k] with buffer := b }

/-- The positions left in a buffer's tail cell; none when the chain is empty (R43). -/
def Buffer.room (b : Buffer) : Nat := 32 * b.chain.length - (b.readOffset + b.fill)

/-- The writing goes on in new cells, one at a time, until the samples are written or a cell is refused; what is left
unwritten is handed back (R43, R44). The first argument bounds the number of cells. -/
def growBuffer : Nat → SourceId → List Sample → State → List Sample × State
  | 0, _, xs, s => (xs, s)
  | _ + 1, _, [], s => ([], s)
  | n + 1, k, x :: xs, s =>
    match lendElastic s with
    | none => (x :: xs, s)
    | some (c, s1) =>
      let b := s1.sources[k].buffer
      let s2 := setBuffer k { b with chain := b.chain ++ [c], samples := b.samples ++ (x :: xs).take 32 } s1
      growBuffer n k ((x :: xs).drop 32) s2

/-- The overrun part of an append (R43): the oldest samples that will not fit in 1024 are discarded. -/
def overrun (k : SourceId) (n : Nat) (s : State) : State :=
  let excess := s.sources[k].buffer.fill + n - 1024
  if excess = 0 then s else raise .elasticOverrun k.val excess (consume k excess s)

/-- The writing part of an append (R43), with the newest samples discarded when a cell is refused (R44). -/
def writeSamples (k : SourceId) (xs : List Sample) (s : State) : State :=
  let b := s.sources[k].buffer
  let s1 := setBuffer k { b with samples := b.samples ++ xs.take b.room } s
  let w := growBuffer xs.length k (xs.drop b.room) s1
  if w.1 = [] then w.2 else raise .poolExhausted k.val w.1.length w.2

/-- An append of a block's samples to source k's buffer (R43, R44). -/
def append (k : SourceId) (xs : List Sample) (s : State) : State := writeSamples k xs (overrun k xs.length s)

/-! ## POOL_STATUS -/

/-- The cells held by all elastic buffers (R47). -/
def elasticHeld (s : State) : Nat := ((List.finRange 14).map (fun k => s.sources[k].buffer.chain.length)).sum

/-- The cells held by all notice records (R47). -/
def noticeHeld (s : State) : Nat := (s.sched.records.map (fun n => n.cells.length)).sum

/-- POOL_STATUS, kind H'25 (R47). An empty body is restart 0. -/
def takePoolStatus (body : List Byte) (s : State) : Answer :=
  let restart := field8 body 0
  if 1 < restart then refuse s .badValue
  else
    let fields := le16 s.pool.free ++ le16 (elasticHeld s) ++ le8 (noticeHeld s) ++ le8 voiceReserve ++ le16 s.pool.lowWater ++
      (List.finRange 14).flatMap (fun k => le8 s.sources[k].buffer.chain.length)
    (if restart = 1 then { s with pool := { s.pool with lowWater := s.pool.free } } else s, .okWith fields)

/-- The body of POOL_STATUS is empty or one byte (R47). -/
def poolStatusLength (body : List Byte) : Bool := decide (body.length ≤ 1)

def execPoolStatus (tag : Byte) (body : List Byte) (s : State) : Host.Outcome State Fault Refusal :=
  .next (submit 0x25 poolStatusLength takePoolStatus tag body s)

end Sys2Proof.Machine
end

