-- ==== Sys2Proof/Machine/Tracker.lean ====
section
/-! DEFINITION. The source trackers (chapter 4) and the judgement of uplink blocks (3.1): arrivals, prefill, the filter, lock
detection, the OUTPUT mark's work, holdover, fixed rate, and the five SOURCE requests. -/

namespace Sys2Proof.Machine

/-! ## Entering OFF and WAITING -/

/-- The values a source takes when it enters OFF or WAITING, its buffer flushed with them (R49). -/
def Source.rested (x : Source) (state : SourceState) : Source :=
  { x with state := state, locked := false, prefill := false, f := 0, acc := 0, r := 0, run := 0, age := 0,
           priorState := none, priorLocked := false, history := [], historyCounter := 0, blockArrived := false,
           lastSequence := none, block := .none, buffer := .empty }

/-- Source k enters OFF or WAITING: its cells return and it takes the values of R49. -/
def enterRest (state : SourceState) (k : SourceId) (s : State) : State :=
  returnCells s.sources[k].buffer.chain (s.setSource k (s.sources[k].rested state))

/-- Source k goes to OFF, unless it is there (R50). -/
def sourceOff (k : SourceId) (s : State) : State := if s.sources[k].state = .off then s else enterRest .off k s

/-- Source k goes from OFF to WAITING; in any other state it stays (R50). -/
def sourceWaiting (k : SourceId) (s : State) : State := if s.sources[k].state = .off then enterRest .waiting k s else s

/-! ## The loss-of-lock counter -/

/-- A source's lol takes a value; SOURCE_LOL_LIMIT when that brings it above the source's threshold (R57). -/
def setLol (k : SourceId) (lol : Nat) (s : State) : State :=
  let x := s.sources[k]
  let s1 := s.setSource k { x with lol := lol }
  if x.lol ≤ x.settings.lolThreshold ∧ x.settings.lolThreshold < lol then raise .sourceLolLimit k.val lol s1 else s1

/-- A lock loss is counted: lol rises by 1, up to 15 (R57). -/
def countLockLoss (k : SourceId) (s : State) : State := setLol k (min 15 (s.sources[k].lol + 1)) s

/-! ## The filter and lock detection -/

/-- Scale(x, B) (4.3): exact up to B = 16, rounded toward negative infinity above. -/
def scale (x : Int) (b : Nat) : Int := if b ≤ 16 then x * 2 ^ (16 - b) else x.fdiv (2 ^ (b - 16))

/-- The clamped fill error e (R54 step 1). -/
def fillError (x : Source) : Int := clampInt (-512) 512 ((x.buffer.fill : Int) - (x.settings.targetFill : Int))

/-- The filter's new frequency word and pending rate, with the shifts of the state the source holds (R54 steps 2 to 5). -/
def Source.filtered (x : Source) : Source :=
  let bi := if x.state = .acquire then x.settings.biAcq else x.settings.biTrk
  let bp := if x.state = .acquire then x.settings.bpAcq else x.settings.bpTrk
  let e := fillError x
  let d := clampInt (-(x.settings.slopeLimit : Int)) (x.settings.slopeLimit : Int) (scale e bi)
  let f := clampInt (-8192) 8192 (x.f + d)
  { x with f := f, r := clampInt (-65535) 65535 (f + scale e bp) }

/-- Lock detection on the clamped error e (R55), with W and Lt as they stand. lol rises before SOURCE_LOCK_LOST is raised. -/
def detectLock (k : SourceId) (e : Int) (s : State) : State :=
  let x := s.sources[k]
  let good := e.natAbs ≤ x.settings.lockThreshold
  let up := min 65535 (x.run + 1)
  let full := x.settings.lockTimer / 2 ≤ up
  match x.state with
  | .acquire =>
    if good then
      if full then s.setSource k { x with state := .track, run := 0 } else s.setSource k { x with run := up }
    else s.setSource k { x with run := 0 }
  | .track =>
    if x.locked = false then
      if good then
        if full then raiseInt .sourceLocked k.val x.f (s.setSource k { x with run := up, locked := true })
        else s.setSource k { x with run := up }
      else s.setSource k { x with run := 0, state := .acquire }
    else if good then s.setSource k { x with run := up }
    else
      let s1 := countLockLoss k (s.setSource k { x with run := 0, locked := false, state := .acquire })
      raise .sourceLockLost k.val s1.sources[k].lol s1
  | _ => s

/-- The filter and then lock detection, at one arrival (R54, R55). -/
def filterAndDetect (k : SourceId) (s : State) : State :=
  let x := s.sources[k]
  detectLock k (fillError x) (s.setSource k x.filtered)

/-! ## Arrivals -/

/-- The first arrival's change of a WAITING source (R51). -/
def firstArrival (k : SourceId) (s : State) : State :=
  let x := s.sources[k]
  match x.state, x.mode with
  | .waiting, .auto => s.setSource k { x with state := .acquire, prefill := true, f := 0, acc := 0, run := 0, age := 0 }
  | .waiting, .fixed =>
    s.setSource k { x with state := .fixed, prefill := true, f := x.fFixed, r := x.fFixed, acc := 0, run := 0, age := 0 }
  | _, _ => s

/-- The prefill test of an arrival (R52). -/
def prefillTest (k : SourceId) (s : State) : State :=
  let x := s.sources[k]
  if x.buffer.fill < x.settings.targetFill then s.setSource k { x with age := 0 }
  else if x.state = .fixed then s.setSource k { x with prefill := false, age := 0, r := x.fFixed }
  else filterAndDetect k (s.setSource k { x with prefill := false, age := 0 })

/-- The end of HOLDOVER at an arrival: the state the source resumes, and the lock loss counted past the reacquire limit
(R64 steps 1 and 2). -/
def endHoldover (k : SourceId) (s : State) : State :=
  let x := s.sources[k]
  let back := { x with age := 0, priorState := none, priorLocked := false }
  if x.age ≤ x.settings.reacquireLimit then
    s.setSource k { back with state := if x.priorState = some .track then .track else .acquire, locked := x.priorLocked }
  else
    let s1 := s.setSource k { back with state := .acquire, locked := false }
    if x.priorLocked then
      let s2 := countLockLoss k s1
      raise .sourceLockLost k.val s2.sources[k].lol s2
    else s1

/-- Arrival processing on the fill the append left (R34 step 4): prefill (R52), the filter (R54, R55), the end of HOLDOVER
(R64), or FIXED's age (R65). -/
def arrivalProcessing (k : SourceId) (s : State) : State :=
  let x := s.sources[k]
  if x.prefill then prefillTest k s
  else match x.state with
    | .acquire => filterAndDetect k s
    | .track => filterAndDetect k s
    | .holdover => filterAndDetect k (endHoldover k s)
    | .fixed => s.setSource k { x with age := 0 }
    | .off => s
    | .waiting => s

/-- block_arrived is set, and last_sequence for an uplink block (R34 step 3, R35). -/
def markArrived (k : SourceId) (sequence : Option Byte) (s : State) : State :=
  let x := s.sources[k]
  s.setSource k { x with blockArrived := true, lastSequence := sequence.orElse (fun _ => x.lastSequence) }

/-- One arrival, in the four steps of R34. A source in OFF takes nothing: it holds no cells (R46, assumption 8). -/
def arrival (k : SourceId) (sequence : Option Byte) (xs : List Sample) (s : State) : State :=
  if s.sources[k].state = .off then s
  else arrivalProcessing k (markArrived k sequence (append k xs (firstArrival k s)))

/-! ## Judging uplink blocks -/

/-- A delivered uplink block, its fields as the transceiver decoded them (R30). -/
structure UplinkBlock where
  deviceId : DeviceId
  sequence : Byte
  samples : List Sample
deriving DecidableEq, Repr

/-- The samples in a run of bytes, two bytes each, oldest first (R174). DESIGN CHOICE (assumption 26): the low byte of each comes first;
11.1 gives a byte order for the host link and the rack bus only. -/
def samplesOf : List Byte → List Sample
  | lo :: hi :: rest => (hi ++ lo) :: samplesOf rest
  | _ => []

/-- The block that the delivered bytes lay out, or none when the byte count is not 6 + 2n: such a block is check-bad (R174). DESIGN
CHOICE (assumption 26): device_id is read low byte first, an order that the spec does not give for this port. -/
def parseUplink (bytes : List Byte) : Option UplinkBlock :=
  if 6 ≤ bytes.length ∧ bytes.length = 6 + 2 * field8 bytes 5 then
    some { deviceId := BitVec.ofNat 32 (field32 bytes 0), sequence := BitVec.ofNat 8 (field8 bytes 4),
           samples := samplesOf (bytes.drop 6) }
  else none

/-- The judgements of a delivered block (R31). -/
inductive Judgement where
  | absent
  | foreign
  | duplicate
  | accepted
deriving DecidableEq, Repr

/-- The tests of R31 in their order, on a block whose layout is good. -/
def judge (k : RosterId) (b : UplinkBlock) (checkGood : Bool) (s : State) : Judgement :=
  if checkGood = false then .absent
  else if b.samples.length < 152 ∨ 168 < b.samples.length then .absent
  else if s.roster[k] ≠ .bound b.deviceId then .foreign
  else if s.sources[uplinkSource k].lastSequence = some b.sequence then .duplicate
  else .accepted

/-- What follows a judgement (R31 to R34). -/
def takeUplinkBlock (k : RosterId) (b : UplinkBlock) (checkGood : Bool) (s : State) : State :=
  match judge k b checkGood s with
  | .absent => s
  | .foreign => raise .uplinkForeign k.val b.deviceId.toNat s
  | .duplicate => s
  | .accepted => arrival (uplinkSource k) (some b.sequence) b.samples s

/-- UPLINK_BLOCK_DELIVERY: in the superframe's uplink slot k, while the air runs (R30, R17); a delivery at another moment is
data that arrives outside an uplink slot and is ignored. -/
def execUplinkBlockDelivery (k : RosterId) (bytes : List Byte) (checkGood : Bool) (s : State) :
    Host.Outcome State Fault Refusal :=
  if s.air.running = true ∧ s.air.due ≤ 24 + k.val then
    let s1 := { s with air := { s.air with due := 25 + k.val } }
    .next (match parseUplink bytes with
      | some b => takeUplinkBlock k b checkGood s1
      | none => s1)
  else .next s

/-- The superframe's block of this line input has come. -/
def lineTaken (l : Fin 2) (s : State) : Bool := if l = 0 then s.air.lineTaken0 else s.air.lineTaken1

/-- Note that the superframe's block of this line input has come. -/
def takeLine (l : Fin 2) (s : State) : State :=
  { s with air := { s.air with lineTaken0 := s.air.lineTaken0 || decide (l = 0), lineTaken1 := s.air.lineTaken1 || decide (l = 1) } }

/-- LINE_BLOCK_DELIVERY: one block a superframe for a line source that is ON, by the end of the uplink part (R35, R17). -/
def execLineBlockDelivery (l : Fin 2) (samples : Vector Sample 160) (s : State) : Host.Outcome State Fault Refusal :=
  if s.air.running = true ∧ s.air.due ≤ 36 ∧ lineTaken l s = false ∧ s.sources[lineSource l].line = true then
    .next (arrival (lineSource l) none samples.toList (takeLine l s))
  else .next s

/-! ## The OUTPUT mark -/

/-- The slip and the accumulator after it (R59). -/
def slipOf (acc r : Int) : Int × Int :=
  let a := acc + r
  if 65536 ≤ a then (1, a - 65536) else if a ≤ -65536 then (-1, a + 65536) else (0, a)

/-- The block formed of the samples taken, when the fill covered k (R60). -/
def blockOf (taken : List Sample) (slip : Int) : List Sample :=
  if slip = 1 then taken.take 160
  else if slip = -1 then taken ++ taken.drop 158
  else taken

/-- The output work: the slip decision, the samples taken, and the block formed, padded on an underrun (R59, R60, R45). -/
def output (k : SourceId) (s : State) : State :=
  let x := s.sources[k]
  let a := slipOf x.acc x.r
  let n := (160 + a.1).toNat
  let fill := x.buffer.fill
  let taken := x.buffer.samples.take n
  let block : OutputBlock :=
    if n ≤ fill then .samples (blockOf taken a.1) 0
    else .samples ((taken ++ List.replicate (160 - fill) 0).take 160) (160 - fill)
  let s1 := consume k n (s.setSource k { x with acc := a.2, block := block })
  if fill < n ∧ x.state ≠ .holdover then raise .elasticUnderrun k.val (n - fill) s1 else s1

/-- The history ring and its counter, in TRACK with locked set (R61). -/
def recordHistory (k : SourceId) (s : State) : State :=
  let x := s.sources[k]
  if x.state = .track ∧ x.locked = true then
    if 100 ≤ x.historyCounter + 1 then
      s.setSource k { x with historyCounter := 0, history := (if x.history.length < 8 then x.history else x.history.drop 1) ++ [x.f] }
    else s.setSource k { x with historyCounter := x.historyCounter + 1 }
  else s

/-- f_hold: the mean of the newest m history values, rounded toward zero; f when there are none or H is 0 (R62). -/
def fHold (x : Source) : Int :=
  let m := min x.settings.historyDepth x.history.length
  if m = 0 then x.f else (x.history.drop (x.history.length - m)).sum.tdiv m

/-- The entry to HOLDOVER (R62). -/
def enterHoldover (k : SourceId) (s : State) : State :=
  let x := s.sources[k]
  let prior : PriorState := if x.state = .track then .track else .acquire
  raiseInt .sourceHoldover k.val (fHold x)
    (s.setSource k { x with state := .holdover, priorState := some prior, priorLocked := x.locked, locked := false, age := 1,
                            f := fHold x, r := fHold x })

/-- A source is lost: it enters WAITING, and SOURCE_LOST is raised (R53, R63, R65). -/
def loseSource (k : SourceId) (detail : Nat) (s : State) : State :=
  raise .sourceLost k.val detail (enterRest .waiting k s)

/-- The mark in prefill (R53). -/
def prefillMark (k : SourceId) (s : State) : State :=
  let x := s.sources[k]
  let age := if x.blockArrived then x.age else x.age + 1
  let s1 := s.setSource k { x with age := age }
  if x.settings.lostLimit ≤ age then loseSource k 1 s1 else s1.setSource k { x with age := age, block := .silence }

/-- The mark in HOLDOVER: age rises, and the source is lost or produces on f_hold (R63). -/
def holdoverMark (k : SourceId) (s : State) : State :=
  let x := s.sources[k]
  let s1 := s.setSource k { x with age := x.age + 1 }
  if x.settings.lostLimit ≤ x.age + 1 then loseSource k 2 s1 else output k s1

/-- The mark in FIXED with prefill clear (R65). -/
def fixedMark (k : SourceId) (s : State) : State :=
  let x := s.sources[k]
  let age := if x.blockArrived then x.age else x.age + 1
  let s1 := s.setSource k { x with age := age, r := x.fFixed }
  if x.blockArrived = false ∧ x.settings.lostLimit ≤ age then loseSource k 3 s1
  else output k s1

/-- The mark in ACQUIRE or TRACK with prefill clear: output and history, or the entry to HOLDOVER and output (R58). -/
def trackingMark (k : SourceId) (s : State) : State :=
  if s.sources[k].blockArrived then recordHistory k (output k s) else output k (enterHoldover k s)

/-- block_arrived is cleared at the end of the mark's work (R58). -/
def clearArrived (k : SourceId) (s : State) : State := s.setSource k { s.sources[k] with blockArrived := false }

/-- The mark's work for a source that is running (R58). -/
def markWork (k : SourceId) (s : State) : State :=
  let x := s.sources[k]
  match x.state with
  | .off => s
  | .waiting => s
  | .acquire => if x.prefill then prefillMark k s else trackingMark k s
  | .fixed => if x.prefill then prefillMark k s else fixedMark k s
  | .track => trackingMark k s
  | .holdover => holdoverMark k s

/-- A source's whole work at an OUTPUT mark (R58). -/
def outputSource (k : SourceId) (s : State) : State := clearArrived k (markWork k s)

/-- The OUTPUT mark's place in the superframe (2.1). -/
def outputPoint : Nat := 36

/-- OUTPUT_MARK: while the air runs and the superframe has not passed its OUTPUT mark, every source does its work (R19, R58). -/
def execOutputMark (order : List SourceId) (s : State) : Host.Outcome State Fault Refusal :=
  if s.air.running = true ∧ s.air.due ≤ outputPoint then
    .next (forEach (fullOrder order) outputSource { s with air := { s.air with due := outputPoint + 1 } })
  else .next s

/-! ## Requests -/

/-- The settings a SOURCE_CONFIG body gives, clamped and adjusted (R66). -/
def settingsOf (body : List Byte) : SourceSettings :=
  let timer := clamp 2 2000 (field16 body 10)
  let reacquire := clamp 1 255 (field8 body 13)
  { targetFill := clamp 160 800 (field16 body 1), biAcq := clamp 4 20 (field8 body 3), biTrk := clamp 4 20 (field8 body 4),
    bpAcq := clamp 4 20 (field8 body 5), bpTrk := clamp 4 20 (field8 body 6), slopeLimit := clamp 1 4096 (field16 body 7),
    lockThreshold := clamp 1 64 (field8 body 9), lockTimer := timer - timer % 2, historyDepth := clamp 0 8 (field8 body 12),
    reacquireLimit := reacquire, lostLimit := max (reacquire + 1) (clamp 10 3000 (field16 body 14)),
    lolThreshold := clamp 0 15 (field8 body 16) }

/-- The settings as reply fields (R66). -/
def SourceSettings.fields (c : SourceSettings) : List Byte :=
  le16 c.targetFill ++ le8 c.biAcq ++ le8 c.biTrk ++ le8 c.bpAcq ++ le8 c.bpTrk ++ le16 c.slopeLimit ++ le8 c.lockThreshold ++
    le16 c.lockTimer ++ le8 c.historyDepth ++ le8 c.reacquireLimit ++ le16 c.lostLimit ++ le8 c.lolThreshold

/-- SOURCE_CONFIG, kind H'10 (R66, R67). -/
def takeSourceConfig (body : List Byte) (s : State) : Answer :=
  match toIndex 14 (field8 body 0) with
  | none => refuse s .noObject
  | some k =>
    let x := s.sources[k]
    let c := settingsOf body
    let s1 := s.setSource k { x with settings := c }
    let s2 := if x.lol ≤ x.settings.lolThreshold ∧ c.lolThreshold < x.lol then raise .sourceLolLimit k.val x.lol s1 else s1
    (s2, .okWith (le8 k.val ++ c.fields))

/-- A source's state code (R71). -/
def SourceState.code : SourceState → Nat
  | .off => 0
  | .waiting => 1
  | .acquire => 2
  | .track => 3
  | .holdover => 4
  | .fixed => 5

/-- A rate mode's code (R68). -/
def RateMode.code : RateMode → Nat
  | .auto => 0
  | .fixed => 1

/-- The change a stored mode or fixed rate makes to a running source (R69). -/
def Source.withRate (x : Source) (mode : RateMode) (fFixed : Int) : Source :=
  let y := { x with mode := mode, fFixed := fFixed }
  let age := if x.prefill then x.age else 0
  match x.state, mode with
  | .off, _ => y
  | .waiting, _ => y
  | .fixed, .fixed => { y with f := fFixed, r := fFixed }
  | .fixed, .auto => { y with state := .acquire, locked := false, run := 0, age := age, r := x.f }
  | _, .fixed =>
    { y with state := .fixed, locked := false, run := 0, priorState := none, priorLocked := false, age := age, f := fFixed,
             r := fFixed }
  | _, .auto => y

/-- The change of a line source's line input (R50, R68). -/
def setLine (k : SourceId) (on : Bool) (s : State) : State :=
  let s1 := s.setSource k { s.sources[k] with line := on }
  if on then (if s1.air.running then sourceWaiting k s1 else s1) else sourceOff k s1

/-- SOURCE_MODE, kind H'11 (R68, R69, R50). -/
def takeSourceMode (body : List Byte) (s : State) : Answer :=
  match toIndex 14 (field8 body 0) with
  | none => refuse s .noObject
  | some k =>
    let mode := field8 body 1
    let line := field8 body 4
    let fFixed := clampInt (-8192) 8192 (fieldInt16 body 2)
    if 1 < mode ∨ 1 < line then refuse s .badValue
    else if isLineSource k = true ∧ mode = 0 then refuse s .badValue
    else
      let s1 := s.setSource k (s.sources[k].withRate (if mode = 0 then .auto else .fixed) fFixed)
      let s2 := if isLineSource k then setLine k (decide (line = 1)) s1 else s1
      let x := s2.sources[k]
      (s2, .okWith (le8 k.val ++ le8 x.mode.code ++ leInt16 x.fFixed ++ leFlag x.line ++ le8 x.state.code))

/-- SOURCE_MUTE, kind H'12 (R70). -/
def takeSourceMute (body : List Byte) (s : State) : Answer :=
  match toIndex 14 (field8 body 0) with
  | none => refuse s .noObject
  | some k =>
    let mute := field8 body 1
    if 1 < mute then refuse s .badValue
    else
      (s.setSource k { s.sources[k] with muted := decide (mute = 1) }, .okWith (le8 k.val ++ le8 mute))

/-- The reply fields of SOURCE_STATUS (R71). -/
def Source.fields (k : SourceId) (x : Source) : List Byte :=
  le8 k.val ++ le8 x.state.code ++ le8 x.mode.code ++ leFlag x.line ++ leFlag x.muted ++ leFlag x.locked ++ leFlag x.prefill ++
    leFlag x.blockArrived ++ leInt16 x.f ++ leInt32 x.acc ++ leInt32 x.r ++ le16 x.run ++ le16 x.age ++
    le8 (match x.priorState with | none => 0 | some .acquire => 2 | some .track => 3) ++ leFlag x.priorLocked ++ le8 x.lol ++
    le8 x.history.length ++ le8 x.historyCounter ++ le16 x.buffer.fill ++ le8 x.buffer.chain.length ++
    leFlag x.lastSequence.isSome ++ [x.lastSequence.getD 0] ++
    (match x.block with | .none => le8 0 ++ le8 0 | .silence => le8 1 ++ le8 0 | .samples _ p => le8 2 ++ le8 p)

/-- SOURCE_STATUS, kind H'13 (R71). -/
def takeSourceStatus (body : List Byte) (s : State) : Answer :=
  match toIndex 14 (field8 body 0) with
  | none => refuse s .noObject
  | some k => (s, .okWith (s.sources[k].fields k))

/-- SOURCE_LOL_SET, kind H'14 (R72, R57). -/
def takeSourceLolSet (body : List Byte) (s : State) : Answer :=
  match toIndex 14 (field8 body 0) with
  | none => refuse s .noObject
  | some k =>
    let lol := min 15 (field8 body 1)
    (setLol k lol s, .okWith (le8 k.val ++ le8 lol))

def execSourceConfig (tag : Byte) (body : List Byte) (s : State) : Host.Outcome State Fault Refusal :=
  .next (submit 0x10 (exactly 17) takeSourceConfig tag body s)

def execSourceMode (tag : Byte) (body : List Byte) (s : State) : Host.Outcome State Fault Refusal :=
  .next (submit 0x11 (exactly 5) takeSourceMode tag body s)

def execSourceMute (tag : Byte) (body : List Byte) (s : State) : Host.Outcome State Fault Refusal :=
  .next (submit 0x12 (exactly 2) takeSourceMute tag body s)

def execSourceStatus (tag : Byte) (body : List Byte) (s : State) : Host.Outcome State Fault Refusal :=
  .next (submit 0x13 (exactly 1) takeSourceStatus tag body s)

def execSourceLolSet (tag : Byte) (body : List Byte) (s : State) : Host.Outcome State Fault Refusal :=
  .next (submit 0x14 (exactly 2) takeSourceLolSet tag body s)

end Sys2Proof.Machine
end

