-- ==== Sys2Proof/Machine/Channel.lean ====
section
/-! DEFINITION. The channel selector (chapter 5): the classes of sources, the review, plans and their application, and the
CHANNEL requests. -/

namespace Sys2Proof.Machine

/-- What a review makes of a source (R75). -/
inductive SourceClass where
  | usable
  | producing
  | absent
deriving DecidableEq, Repr

/-- The class of a source by its record and its muted flag (R75). -/
def sourceClass (x : Source) : SourceClass :=
  if x.muted then .absent
  else match x.state with
    | .off => .absent
    | .waiting => .absent
    | .acquire => if x.prefill then .absent else .producing
    | .track => if x.locked then .usable else if x.prefill then .absent else .producing
    | .holdover => if x.prefill then .absent else .producing
    | .fixed => if x.prefill then .absent else .usable

/-- The first USABLE source of a list in rank order. -/
def firstUsable (l : List SourceId) (s : State) : Option SourceId :=
  l.find? (fun k => sourceClass s.sources[k] = .usable)

/-- The live plan's source list. -/
def Channel.liveSources (ch : Channel) : List SourceId := (ch.livePlan.map Plan.sources).getD []

/-- The causes of CHANNEL_SWITCHED (R83). -/
inductive SwitchCause where
  | first
  | immediate
  | delay
  | revert
deriving DecidableEq, Repr

/-- The value of a cause (R83). -/
def SwitchCause.code : SwitchCause → Nat
  | .first => 1
  | .immediate => 2
  | .delay => 3
  | .revert => 4

/-- A source becomes the active source of a LIVE channel, with its counts cleared; CHANNEL_SWITCHED is raised and
switch_count rises, wrapping (R78, R79, R81, R82, R83). -/
def switchTo (c : ChannelId) (cause : SwitchCause) (new : SourceId) (s : State) : State :=
  let ch := s.channels[c]
  let previous : Nat := (ch.activeSource.map Fin.val).getD 255
  raise .channelSwitched c.val (cause.code * 65536 + previous * 256 + new.val)
    (s.setChannel c { ch with state := .live, activeSource := some new, bridgeCount := 0, revertCandidate := none,
                              revertCount := 0, switchCount := (ch.switchCount + 1) % 65536 })

/-- A channel with no active source and its counts cleared. -/
def Channel.silenced (ch : Channel) : Channel :=
  { ch with state := .silent, activeSource := none, bridgeCount := 0, revertCandidate := none, revertCount := 0 }

/-- The apply of a staged plan, with its PLAN_APPLIED detail (R77 steps 1 to 4, R85, R90 step 1). -/
def applyPlan (c : ChannelId) (detail : Nat) (s : State) : State :=
  let ch := s.channels[c]
  match ch.stagedPlan with
  | none => s.setChannel c { ch with applyPending := false }
  | some p =>
    raise .planApplied c.val detail
      (s.setChannel c { ch with state := if ch.state = .closed then .silent else ch.state, livePlan := some p, stagedPlan := none,
                                applyPending := false, bridgeCount := 0, revertCandidate := none, revertCount := 0 })

/-- The review of a SILENT channel (R78). -/
def silentReview (c : ChannelId) (s : State) : State :=
  match firstUsable s.channels[c].liveSources s with
  | some k => switchTo c .first k s
  | none => s

/-- Reselection (R79). -/
def reselect (c : ChannelId) (active : SourceId) (s : State) : State :=
  let ch := s.channels[c]
  match firstUsable ch.liveSources s with
  | some k => switchTo c .immediate k s
  | none => raise .channelSilent c.val active.val (s.setChannel c ch.silenced)

/-- The sources ranked above the active one. -/
def rankedAbove (l : List SourceId) (active : SourceId) : List SourceId := l.takeWhile (fun k => k ≠ active)

/-- The revert step (R81). -/
def revertStep (c : ChannelId) (p : Plan) (active : SourceId) (s : State) : State :=
  let ch := s.channels[c]
  match firstUsable (rankedAbove p.sources active) s with
  | none => s.setChannel c { ch with revertCandidate := none, revertCount := 0 }
  | some k =>
    let n := if ch.revertCandidate = some k then ch.revertCount + 1 else 1
    if p.revertWait ≤ n then switchTo c .revert k s
    else s.setChannel c { ch with revertCandidate := some k, revertCount := n }

/-- The review of a LIVE channel, by the class of its active source (R80). -/
def liveReview (c : ChannelId) (active : SourceId) (cls : SourceClass) (s : State) : State :=
  let ch := s.channels[c]
  match cls with
  | .absent => reselect c active s
  | .producing =>
    s.setChannel c { ch with state := .bridging, bridgeCount := 0, revertCandidate := none, revertCount := 0 }
  | .usable =>
    match ch.livePlan with
    | some p =>
      if p.revert then revertStep c p active s else s.setChannel c { ch with revertCandidate := none, revertCount := 0 }
    | none => s

/-- The review of a BRIDGING channel, by the class of its active source (R82). -/
def bridgingReview (c : ChannelId) (active : SourceId) (cls : SourceClass) (s : State) : State :=
  let ch := s.channels[c]
  match cls with
  | .usable => s.setChannel c { ch with state := .live, bridgeCount := 0 }
  | .absent => reselect c active s
  | .producing =>
    let n := min 65535 (ch.bridgeCount + 1)
    let s1 := s.setChannel c { ch with bridgeCount := n }
    match ch.livePlan, firstUsable ch.liveSources s with
    | some p, some k => if p.switchDelay < n then switchTo c .delay k s1 else s1
    | _, _ => s1

/-- The state's own handling at a review. An active source outside the live list is judged ABSENT (R77 step 5). -/
def reviewByState (c : ChannelId) (s : State) : State :=
  let ch := s.channels[c]
  let cls := fun (k : SourceId) => if k ∈ ch.liveSources then sourceClass s.sources[k] else .absent
  match ch.state, ch.activeSource with
  | .silent, _ => silentReview c s
  | .live, some k => liveReview c k (cls k) s
  | .bridging, some k => bridgingReview c k (cls k) s
  | _, _ => s

/-- A channel's review at a REVIEW mark: first a pending apply, then the state's own handling (R76, R77). -/
def reviewChannel (c : ChannelId) (s : State) : State :=
  let ch := s.channels[c]
  if ch.applyPending then reviewByState c (applyPlan c 1 s)
  else if ch.state = .closed then s
  else reviewByState c s

/-- The REVIEW mark's place in the superframe (2.1). -/
def reviewPoint : Nat := 37

/-- REVIEW_MARK: while the air runs and after the superframe's OUTPUT mark, every channel is reviewed (R76, R19). -/
def execReviewMark (order : List ChannelId) (s : State) : Host.Outcome State Fault Refusal :=
  if s.air.running = true ∧ s.air.due = reviewPoint then
    .next (forEach (fullOrder order) reviewChannel { s with air := { s.air with due := reviewPoint + 1 } })
  else .next s

/-- A channel's part in a stop of the air (R90). -/
def stopChannel (c : ChannelId) (s : State) : State :=
  let s1 := if s.channels[c].applyPending then applyPlan c 3 s else s
  let ch := s1.channels[c]
  if ch.state = .live ∨ ch.state = .bridging then s1.setChannel c ch.silenced else s1

/-! ## Requests -/

/-- Whether a byte is a letter A-Z (R84). -/
def isLetter (b : Byte) : Bool := decide (0x41 ≤ b.toNat ∧ b.toNat ≤ 0x5A)

/-- The source numbers listed in a CHANNEL_STAGE body. -/
def listedSources (body : List Byte) : List Nat := (List.range (field8 body 4)).map (fun i => field8 body (5 + i))

/-- The plan a CHANNEL_STAGE body gives, in the short or the full form, when its values pass check 3 (R84). -/
def planOf (body : List Byte) : Option Plan :=
  let sources := listedSources body
  let language : Language := { first := body.getD 1 0, second := body.getD 2 0, third := body.getD 3 0 }
  let full := decide (body.length = 13)
  let revert := if full then field8 body 9 else 0
  if isLetter language.first ∧ isLetter language.second ∧ isLetter language.third ∧ 1 ≤ field8 body 4 ∧ field8 body 4 ≤ 4 ∧
      (∀ k ∈ sources, k ≤ 13) ∧ sources.Nodup ∧ revert ≤ 1 then
    some { language := language, sources := sources.filterMap (toIndex 14), revert := decide (revert = 1),
           switchDelay := if full then field8 body 10 else 20,
           revertWait := if full then clamp 1 1000 (field16 body 11) else 100 }
  else none

/-- A language tag's bytes. -/
def Language.bytes (l : Language) : List Byte := [l.first, l.second, l.third]

/-- A plan in the full form's field order, with unused source entries sent as 255 (R84). -/
def Plan.fields (p : Plan) : List Byte :=
  p.language.bytes ++ le8 p.sources.length ++ ((p.sources.map Fin.val ++ List.replicate 4 255).take 4).flatMap le8 ++
    leFlag p.revert ++ le8 p.switchDelay ++ le16 p.revertWait

/-- The body of CHANNEL_STAGE is 13 bytes or 9 (R84). -/
def channelStageLength (body : List Byte) : Bool := decide (body.length = 13 ∨ body.length = 9)

/-- CHANNEL_STAGE, kind H'18 (R84). -/
def takeChannelStage (body : List Byte) (s : State) : Answer :=
  match toIndex 16 (field8 body 0) with
  | none => refuse s .noObject
  | some c =>
    let ch := s.channels[c]
    if ch.applyPending then refuse s .pending
    else match planOf body with
      | none => refuse s .badValue
      | some p => (s.setChannel c { ch with stagedPlan := some p }, .okWith (le8 c.val ++ p.fields))

/-- CHANNEL_APPLY, kind H'19 (R85). -/
def takeChannelApply (body : List Byte) (s : State) : Answer :=
  match toIndex 16 (field8 body 0) with
  | none => refuse s .noObject
  | some c =>
    let ch := s.channels[c]
    if ch.applyPending then refuse s .pending
    else if ch.stagedPlan = none then refuse s .wrongState
    else if s.air.running then
      (s.setChannel c { ch with applyPending := true }, { status := .accepted, fields := [] })
    else (applyPlan c 2 s, .okWith [])

/-- CHANNEL_CLOSE, kind H'1A (R88). -/
def takeChannelClose (body : List Byte) (s : State) : Answer :=
  match toIndex 16 (field8 body 0) with
  | none => refuse s .noObject
  | some c =>
    let ch := s.channels[c]
    if 0 < ch.boundGroups then refuse s .conflict
    else
      (s.setChannel c { Channel.initial with boundGroups := ch.boundGroups, switchCount := ch.switchCount }, .okWith [])

/-- A channel state's code (R91). -/
def ChannelState.code : ChannelState → Nat
  | .closed => 0
  | .silent => 1
  | .live => 2
  | .bridging => 3

/-- A class's code (R91). -/
def SourceClass.code : SourceClass → Nat
  | .usable => 0
  | .producing => 1
  | .absent => 2

/-- An absent or present plan in CHANNEL_STATUS: a flag and the plan's twelve bytes, all zero when absent (R91). -/
def planReport : Option Plan → List Byte
  | none => le8 0 ++ List.replicate 12 0
  | some p => le8 1 ++ p.fields

/-- A source number or 255 when absent (R91). -/
def sourceOr255 (k : Option SourceId) : List Byte := le8 ((k.map Fin.val).getD 255)

/-- CHANNEL_STATUS, kind H'1B (R91). -/
def takeChannelStatus (body : List Byte) (s : State) : Answer :=
  match toIndex 16 (field8 body 0) with
  | none => refuse s .noObject
  | some c =>
    let ch := s.channels[c]
    let cls : Nat := (ch.activeSource.map (fun k => (sourceClass s.sources[k]).code)).getD 255
    (s, .okWith (le8 c.val ++ le8 ch.state.code ++ leFlag ch.applyPending ++ sourceOr255 ch.activeSource ++ le8 cls ++
      le16 ch.bridgeCount ++ sourceOr255 ch.revertCandidate ++ le16 ch.revertCount ++ le8 ch.boundGroups ++
      le16 ch.switchCount ++ planReport ch.livePlan ++ planReport ch.stagedPlan))

def execChannelStage (tag : Byte) (body : List Byte) (s : State) : Host.Outcome State Fault Refusal :=
  .next (submit 0x18 channelStageLength takeChannelStage tag body s)

def execChannelApply (tag : Byte) (body : List Byte) (s : State) : Host.Outcome State Fault Refusal :=
  .next (submit 0x19 (exactly 1) takeChannelApply tag body s)

def execChannelClose (tag : Byte) (body : List Byte) (s : State) : Host.Outcome State Fault Refusal :=
  .next (submit 0x1A (exactly 1) takeChannelClose tag body s)

def execChannelStatus (tag : Byte) (body : List Byte) (s : State) : Host.Outcome State Fault Refusal :=
  .next (submit 0x1B (exactly 1) takeChannelStatus tag body s)

end Sys2Proof.Machine
end

