-- ==== Sys2Proof/Machine/Notice.lean ====
section
/-! DEFINITION. The notice scheduler (chapter 6): posting with the retune effect, expiry, placement at a build, removal, the
late counter, and the NOTICE and SCHED requests. -/

namespace Sys2Proof.Machine

/-! ## Records and queues -/

/-- The cells a payload of b bytes needs (R98). -/
def cellsNeeded (b : Nat) : Nat := if b ≤ 64 then 1 else if b ≤ 128 then 2 else 3

/-- The queue a class names. -/
def Scheduler.queue (n : Scheduler) : NoticeClass → List Nat
  | .urgent => n.urgent
  | .routine => n.routine

/-- Write the queue a class names. -/
def Scheduler.setQueue (n : Scheduler) (c : NoticeClass) (q : List Nat) : Scheduler :=
  match c with
  | .urgent => { n with urgent := q }
  | .routine => { n with routine := q }

/-- A record is removed: its handle leaves its queue and the table, and its cells are returned together (R93, R39). -/
def removeNotice (n : NoticeRecord) (s : State) : State :=
  returnCells n.cells
    { s with sched := { s.sched with records := s.sched.records.filter (fun m => m.handle ≠ n.handle),
                                     urgent := s.sched.urgent.filter (fun h => h ≠ n.handle),
                                     routine := s.sched.routine.filter (fun h => h ≠ n.handle) } }

/-- The number after a handle, with 65535 followed by 1 (R94). -/
def handleAfter (h : Nat) : Nat := if 65535 ≤ h then 1 else h + 1

/-- The first handle from h on that no record holds, looking at most `n` numbers on (R94). -/
def freeHandle : Nat → Nat → State → Nat
  | 0, h, _ => h
  | n + 1, h, s => if (s.notice? h).isSome then freeHandle n (handleAfter h) s else h

/-- The handle of the next posting (R94): at most 64 numbers are held, so 64 looks pass them. -/
def assignHandle (s : State) : Nat := freeHandle 64 s.sched.nextHandle s

/-! ## The retune effect -/

/-- A RETUNE to a group moves the group, its OUT devices and the bound group counts (R99). -/
def retuneGroup (g : GroupId) (c : ChannelId) (s : State) : State :=
  let old := s.groups[g].channel
  let s1 := s.setGroup g { s.groups[g] with channel := some c }
  let s2 := { s1 with devices := s1.devices.map (fun d =>
    match d.state, d.assignment with
    | .out, some a => if a.group = g then { d with assignment := some { a with channel := c } } else d
    | _, _ => d) }
  match old with
  | none => s2
  | some c0 => if c0 = c then s2 else (s2.modBound c0 (fun n => n - 1)).modBound c (fun n => n + 1)

/-- A RETUNE to a device sets the assigned channel of an OUT device (R100). -/
def retuneDevice (id : DeviceId) (c : ChannelId) (s : State) : State :=
  s.modDevice id (fun d =>
    match d.state, d.assignment with
    | .out, some a => { d with assignment := some { a with channel := c } }
    | _, _ => d)

/-- The retune effect of a posted RETUNE (R99, R100). -/
def retuneEffect (n : NoticeRecord) (s : State) : State :=
  match n.retuneChannel, n.targetType with
  | some c, .group => match toIndex 24 n.targetValue.toNat with | some g => retuneGroup g c s | none => s
  | some c, .device => retuneDevice n.targetValue c s
  | _, _ => s

/-! ## Posting -/

/-- The kinds by their codes (R95). -/
def noticeKindOf : Nat → Option NoticeKind
  | 0 => some .text
  | 1 => some .call
  | 2 => some .retune
  | _ => none

/-- The target types by their codes (R95). -/
def targetTypeOf : Nat → Option TargetType
  | 0 => some .all
  | 1 => some .channel
  | 2 => some .group
  | 3 => some .device
  | _ => none

/-- The classes by their codes (R95). -/
def noticeClassOf : Nat → Option NoticeClass
  | 0 => some .urgent
  | 1 => some .routine
  | _ => none

/-- Check 2 of R96: the status that refuses the target, or none. -/
def targetRefusal (t : TargetType) (value : BitVec 32) (s : State) : Option Status :=
  match t with
  | .all => none
  | .channel => match toIndex 16 value.toNat with
    | none => some .noObject
    | some c => if s.channels[c].state = .closed then some .wrongState else none
  | .group => match toIndex 24 value.toNat with
    | none => some .noObject
    | some g => if s.groups[g].state = .opened then none else some .wrongState
  | .device => if (s.device? value).isSome then none else some .noObject

/-- Check 3 of R96: the status that refuses the retune channel, or none. -/
def retuneRefusal (kind : NoticeKind) (t : TargetType) (channel : Nat) (s : State) : Option Status :=
  if kind ≠ .retune then none
  else if t ≠ .group ∧ t ≠ .device then some .badValue
  else match toIndex 16 channel with
    | none => some .noObject
    | some c => if s.channels[c].state = .closed then some .wrongState else none

/-- The body of NOTICE_POST is 13 bytes and its payload_length more (R95). -/
def noticePostLength (body : List Byte) : Bool := decide (13 ≤ body.length ∧ body.length = 13 + field8 body 12)

/-- The record a posting creates, with its handle and cells (R97). -/
def newNotice (body : List Byte) (cls : NoticeClass) (kind : NoticeKind) (t : TargetType) (cells : List CellId) (handle : Nat)
    (p : Count) : NoticeRecord :=
  let lifetime := min 60000 (field16 body 10)
  { handle := handle, cls := cls, kind := kind, targetType := t,
    targetValue := if t = .all then 0 else BitVec.ofNat 32 (field32 body 3),
    retuneChannel := if kind = .retune then toIndex 16 (field8 body 7) else none,
    repeatsRemaining := clamp 1 15 (field8 body 8), interval := max 1 (field8 body 9), notBefore := p + 1,
    expiry := if lifetime = 0 then none else some (p + BitVec.ofNat 32 lifetime), payload := body.drop 13, cells := cells,
    transmissions := 0 }

/-- A record joins the table and the tail of its class's queue, and its handle is used up (R94, R97). -/
def insertNotice (n : NoticeRecord) (s : State) : State :=
  { s with sched := { (s.sched.setQueue n.cls (s.sched.queue n.cls ++ [n.handle])) with
    records := s.sched.records ++ [n], nextHandle := handleAfter n.handle } }

/-- The reply to an accepted posting (R97). -/
def NoticeRecord.postReply (n : NoticeRecord) : Reply :=
  .okWith (le16 n.handle ++ le32 n.notBefore.toNat ++ leFlag n.expiry.isSome ++ le32 (n.expiry.getD 0).toNat ++
    le8 n.cells.length ++ le8 n.repeatsRemaining)

/-- NOTICE_POST, kind H'20 (R95 to R100): the value checks, then the checks of R96 in their order, then the record. -/
def takeNoticePost (body : List Byte) (s : State) : Answer :=
  match noticeClassOf (field8 body 0), noticeKindOf (field8 body 1), targetTypeOf (field8 body 2) with
  | some cls, some kind, some t =>
    if 192 < field8 body 12 then refuse s .badValue
    else if 64 ≤ s.sched.records.length then refuse s .noSpace
    else match targetRefusal t (BitVec.ofNat 32 (field32 body 3)) s with
      | some r => refuse s r
      | none => match retuneRefusal kind t (field8 body 7) s with
        | some r => refuse s r
        | none => match lendNotice (cellsNeeded (field8 body 12)) s with
          | none => refuse s .noSpace
          | some (cells, s1) =>
            let n := newNotice body cls kind t cells (assignHandle s) s.air.count
            (retuneEffect n (insertNotice n s1), n.postReply)
  | _, _, _ => refuse s .badValue

/-! ## Placement at the BUILD mark -/

/-- The record's expiry is reached in superframe m (R103). -/
def NoticeRecord.expired (n : NoticeRecord) (m : Count) : Bool :=
  match n.expiry with
  | some e => atOrAfter m e
  | none => false

/-- One handle's part in the expiry for superframe m (R103). -/
def expireOne (m : Count) (h : Nat) (s : State) : State :=
  match s.notice? h with
  | some n => if n.expired m then raise .noticeExpired h n.transmissions (removeNotice n s) else s
  | none => s

/-- Expiry, in the order of the URGENT queue and then of the ROUTINE queue (R103). -/
def expireNotices (m : Count) (s : State) : State := forEach (s.sched.urgent ++ s.sched.routine) (expireOne m) s

/-- The 64 bytes of cell i (from 0) of a payload, H'00 after its end (R98). -/
def cellContent (payload : List Byte) (i : Nat) : List Byte :=
  ((payload.drop (64 * i)).take 64 ++ List.replicate 64 0).take 64

/-- The cells of one placement, in payload order, with the transmissions count after it (R108). -/
def NoticeRecord.placed (n : NoticeRecord) : List NoticeCell :=
  (List.range n.cells.length).map (fun i =>
    { handle := n.handle, kind := n.kind, targetType := n.targetType, targetValue := n.targetValue,
      retuneChannel := n.retuneChannel, cellIndex := i + 1, cellTotal := n.cells.length, payloadLength := n.payload.length,
      transmission := n.transmissions + 1, content := cellContent n.payload i })

/-- What a build's scans have done so far: the state, the capacity that remains, the cells placed, and ROUTINE's part. -/
structure Placement where
  state : State
  room : Nat
  cells : List NoticeCell
  routineEligible : Bool
  routinePlaced : Bool

/-- The change of a placed record: its last repeat removes it; otherwise it moves to its queue's tail (R106). -/
def afterPlacement (m : Count) (n : NoticeRecord) (s : State) : State :=
  if n.repeatsRemaining ≤ 1 then removeNotice n s
  else
    let n1 := { n with transmissions := n.transmissions + 1, repeatsRemaining := n.repeatsRemaining - 1,
                       notBefore := m + BitVec.ofNat 32 n.interval }
    { s with sched := { (s.sched.setQueue n.cls ((s.sched.queue n.cls).filter (fun h => h ≠ n.handle) ++ [n.handle])) with
      records := s.sched.records.map (fun r => if r.handle = n.handle then n1 else r) } }

/-- One handle of a scan for superframe m (R105, R106). -/
def scanOne (m : Count) (cls : NoticeClass) (p : Placement) (h : Nat) : Placement :=
  match p.state.notice? h with
  | none => p
  | some n =>
    if atOrAfter m n.notBefore = false then p
    else
      let p1 := { p with routineEligible := p.routineEligible || decide (cls = .routine) }
      if p.room < n.cells.length then p1
      else
        { p1 with state := afterPlacement m n p.state, room := p.room - n.cells.length, cells := p.cells ++ n.placed,
                  routinePlaced := p.routinePlaced || decide (cls = .routine) }

/-- The scan of a class's queue, over the handles it holds when the scan begins (R105). -/
def scanQueue (m : Count) (cls : NoticeClass) (p : Placement) : Placement :=
  (p.state.sched.queue cls).foldl (scanOne m cls) p

/-- The late counter's update at the end of a placement (R107). -/
def updateLate (p : Placement) : State :=
  let n := p.state.sched
  let late := if p.routineEligible = true ∧ p.routinePlaced = false then n.lateCounter + 1 else 0
  { p.state with sched :=
    if n.lateLimit ≤ late then { n with lateCounter := 0, lateFlag := true } else { n with lateCounter := late } }

/-- The scheduler's answer at BUILD mark n for superframe m with capacity C: expiry, the order of the classes, the scans, the
late counter; it hands back the placed cells in order (R103 to R107). -/
def placeNotices (m : Count) (capacity : Nat) (s : State) : State × List NoticeCell :=
  let s1 := expireNotices m s
  let routineFirst := s1.sched.lateFlag
  let p0 : Placement := { state := { s1 with sched := { s1.sched with lateFlag := false } }, room := capacity, cells := [],
                          routineEligible := false, routinePlaced := false }
  let p := if routineFirst then scanQueue m .urgent (scanQueue m .routine p0)
    else scanQueue m .routine (scanQueue m .urgent p0)
  (updateLate p, p.cells)

/-! ## Requests -/

/-- NOTICE_CANCEL, kind H'21 (R110). -/
def takeNoticeCancel (body : List Byte) (s : State) : Answer :=
  match s.notice? (field16 body 0) with
  | none => refuse s .noObject
  | some n => (removeNotice n s, .okWith (le16 n.handle ++ le8 n.transmissions ++ le8 n.repeatsRemaining))

/-- Codes of a record's class, kind and target type (R95, R111). -/
def NoticeClass.code : NoticeClass → Nat
  | .urgent => 0
  | .routine => 1

def NoticeKind.code : NoticeKind → Nat
  | .text => 0
  | .call => 1
  | .retune => 2

def TargetType.code : TargetType → Nat
  | .all => 0
  | .channel => 1
  | .group => 2
  | .device => 3

/-- The scheduler's summary (R111). -/
def schedSummary (s : State) : List Byte :=
  le8 s.sched.records.length ++ le8 s.sched.urgent.length ++ le8 s.sched.routine.length ++ le8 (noticeHeld s) ++
    le8 s.sched.lateCounter ++ leFlag s.sched.lateFlag ++ le8 s.sched.lateLimit ++ le16 s.sched.nextHandle

/-- A record's fields with its place in its queue (R111). -/
def NoticeRecord.fields (n : NoticeRecord) (s : State) : List Byte :=
  le16 n.handle ++ le8 n.cls.code ++ le8 n.kind.code ++ le8 n.targetType.code ++ le32 n.targetValue.toNat ++
    le8 ((n.retuneChannel.map Fin.val).getD 255) ++ le8 n.repeatsRemaining ++ le8 n.transmissions ++ le8 n.interval ++
    le32 n.notBefore.toNat ++ leFlag n.expiry.isSome ++ le32 (n.expiry.getD 0).toNat ++ le8 n.payload.length ++
    le8 n.cells.length ++ le8 ((s.sched.queue n.cls).idxOf n.handle)

/-- NOTICE_STATUS, kind H'22 (R111). -/
def takeNoticeStatus (body : List Byte) (s : State) : Answer :=
  if field16 body 0 = 0 then (s, .okWith (schedSummary s))
  else match s.notice? (field16 body 0) with
    | none => refuse s .noObject
    | some n => (s, .okWith (n.fields s))

/-- The body of SCHED_CONFIG is empty or one byte (R112). -/
def schedConfigLength (body : List Byte) : Bool := decide (body.length ≤ 1)

/-- SCHED_CONFIG, kind H'23 (R112). -/
def takeSchedConfig (body : List Byte) (s : State) : Answer :=
  let s1 := if body = [] then s else { s with sched := { s.sched with lateLimit := max 1 (field8 body 0) } }
  (s1, .okWith (le8 s1.sched.lateLimit ++ le8 s1.sched.lateCounter ++ leFlag s1.sched.lateFlag))

def execNoticePost (tag : Byte) (body : List Byte) (s : State) : Host.Outcome State Fault Refusal :=
  .next (submit 0x20 noticePostLength takeNoticePost tag body s)

def execNoticeCancel (tag : Byte) (body : List Byte) (s : State) : Host.Outcome State Fault Refusal :=
  .next (submit 0x21 (exactly 2) takeNoticeCancel tag body s)

def execNoticeStatus (tag : Byte) (body : List Byte) (s : State) : Host.Outcome State Fault Refusal :=
  .next (submit 0x22 (exactly 2) takeNoticeStatus tag body s)

def execSchedConfig (tag : Byte) (body : List Byte) (s : State) : Host.Outcome State Fault Refusal :=
  .next (submit 0x23 schedConfigLength takeSchedConfig tag body s)

end Sys2Proof.Machine
end

