-- ==== Sys2Proof/Machine/Air.lean ====
section
/-! DEFINITION. The air timer (chapter 2): the superframe, the downlink image and its cells on the data-out line, the BUILD
mark, starts and stops of the air, the ready line, and the AIR requests. -/

namespace Sys2Proof.Machine

/-- The BUILD mark's place in the superframe, and the superframe's end (2.1). -/
def buildPoint : Nat := 38
def superframeEnd : Nat := 39

/-! ## The downlink image -/

/-- Channel c's line in the beacon (R23). -/
def beaconLine (s : State) (c : ChannelId) : BeaconLine :=
  let ch := s.channels[c]
  match ch.state, ch.livePlan with
  | .closed, _ => { isOpen := false, language := { first := 0, second := 0, third := 0 } }
  | _, some p => { isOpen := true, language := p.language }
  | _, none => { isOpen := true, language := { first := 0, second := 0, third := 0 } }

/-- The beacon of the superframe with this count (R23). -/
def beaconFor (count : Count) (s : State) : SlotEntry :=
  .beacon (count.truncate 16) ((List.finRange 16).map (beaconLine s))

/-- Channel c's voice slot. -/
def voiceSlot (c : ChannelId) : Fin 24 := ⟨c.val + 1, by omega⟩

/-- The content of channel c's voice slot at a build; a CLOSED channel's slot is EMPTY until a notice cell takes it (R21). -/
def voiceEntry (s : State) (c : ChannelId) : SlotEntry :=
  let ch := s.channels[c]
  match ch.state with
  | .closed => .empty
  | .silent => .silence c
  | _ =>
    match ch.activeSource with
    | some k =>
      match s.sources[k].block with
      | .samples data _ => .voice c data
      | _ => .silence c
    | none => .silence c

/-- The CLOSED channels, in increasing order. -/
def closedChannels (s : State) : List ChannelId := (List.finRange 16).filter (fun c => s.channels[c].state = .closed)

/-- The notice slots 17-23. -/
def noticeSlots : List (Fin 24) := [17, 18, 19, 20, 21, 22, 23]

/-- The slot positions of notice cells: the notice slots, then the lent voice slots (R22). -/
def noticePositions (s : State) : List (Fin 24) := noticeSlots ++ (closedChannels s).map voiceSlot

/-- Put a list of entries into their slots. -/
def fillImage (l : List (Fin 24 × SlotEntry)) (image : Vector SlotEntry 24) : Vector SlotEntry 24 :=
  l.foldl (fun im p => im.set p.1 p.2) image

/-- The image built for the superframe with this count, from the channels as they stand and the notice cells handed back
(R20 to R23). -/
def imageFor (count : Count) (cells : List NoticeCell) (s : State) : Vector SlotEntry 24 :=
  fillImage (((0 : Fin 24), beaconFor count s) :: (List.finRange 16).map (fun c => (voiceSlot c, voiceEntry s c)) ++
    (noticePositions s).zip (cells.map SlotEntry.notice)) imageEmpty

/-- The notice capacity of the coming superframe: 7 + z (R20 step 1). -/
def noticeCapacity (s : State) : Nat := 7 + (closedChannels s).length

/-- The build for superframe n + 1 (R20). The scheduler's placement changes no channel and no source. -/
def buildImage (s : State) : State :=
  let m := s.air.count + 1
  let p := placeNotices m (noticeCapacity s) s
  { p.1 with air := { p.1.air with
      image := imageFor m p.2 s,
      lastBuild := some { count := m, capacity := noticeCapacity s, placed := p.2.length }, due := superframeEnd } }

/-! ## Stopping the air -/

/-- A stop of the air for REQUEST or READY_LOST (R24): the count is kept, the image emptied, every source goes OFF and every
channel takes its steps of R90. -/
def stopAir (reason : StopReason) (order : List ChannelId) (s : State) : State :=
  let s1 := { s with
    air := { s.air with running := false, stopPending := false, lastStop := reason, image := imageEmpty, due := 0,
                        lineTaken0 := false, lineTaken1 := false },
    pins := { s.pins with frameStrobe := false, dataOut := [] } }
  forEach (fullOrder order) stopChannel (forEach (List.finRange 14) sourceOff s1)

/-- BUILD_MARK: while the air runs and after the superframe's REVIEW mark, the build, or a pending stop in its place
(R20, R26). -/
def execBuildMark (order : List ChannelId) (s : State) : Host.Outcome State Fault Refusal :=
  if s.air.running = true ∧ s.air.due = buildPoint then
    .next (if s.air.stopPending then stopAir .request order s else buildImage s)
  else .next s

/-- READY_LINE_FALL (R27). -/
def execReadyLineFall (order : List ChannelId) (s : State) : Host.Outcome State Fault Refusal :=
  let s1 := { s with air := { s.air with ready := false }, pins := { s.pins with readyLine := false } }
  .next (if s.air.running then raise .radioDown 0 0 (stopAir .readyLost order s1) else s1)

/-- READY_LINE_RISE (R27). -/
def execReadyLineRise (s : State) : Host.Outcome State Fault Refusal :=
  .next { s with air := { s.air with ready := true }, pins := { s.pins with readyLine := true } }

/-! ## The superframe -/

/-- A superframe starts: the count rises by 1 and the frame strobe is driven (R17). -/
def startSuperframe (s : State) : State :=
  { s with air := { s.air with count := s.air.count + 1, due := 0, lineTaken0 := false, lineTaken1 := false },
           pins := { s.pins with frameStrobe := true, dataOut := [] } }

/-- SUPERFRAME_START: while the air runs and the superframe in progress has passed its BUILD mark (R17). -/
def execSuperframeStart (s : State) : Host.Outcome State Fault Refusal :=
  .next (if s.air.running = true ∧ s.air.due = superframeEnd then startSuperframe s else s)

/-- The bytes of a language tag or of a closed channel's (R175). -/
def BeaconLine.bytes (l : BeaconLine) : List Byte := leFlag l.isOpen ++ l.language.bytes

/-- A sample's two bytes on the data-out line (R175). DESIGN CHOICE (assumption 26): the low byte first; 11.1 gives a byte order for
the host link and the rack bus only. -/
def sampleBytes (x : Sample) : List Byte := le16 x.toNat

/-- A notice cell's bytes, its fields in the order of R175. DESIGN CHOICE (assumption 26): handle and target_value go low byte first on
this port. -/
def NoticeCell.bytes (n : NoticeCell) : List Byte :=
  le16 n.handle ++ le8 n.kind.code ++ le8 n.targetType.code ++ le32 n.targetValue.toNat ++
    le8 ((n.retuneChannel.map Fin.val).getD 0) ++ le8 n.cellIndex ++ le8 n.cellTotal ++ le8 n.payloadLength ++
    le8 n.transmission ++ n.content

/-- What the data-out line carries in a slot: the 4-byte header and the content, or nothing for an EMPTY entry (R175). DESIGN CHOICE
(assumption 26): count_low goes low byte first on this port. -/
def slotBytes (slot : Fin 24) : SlotEntry → List Byte
  | .empty => []
  | .beacon low lines => le8 slot.val ++ [0, 255, 1] ++ le16 low.toNat ++ lines.flatMap BeaconLine.bytes
  | .voice c samples => le8 slot.val ++ [1] ++ le8 c.val ++ [5] ++ samples.flatMap sampleBytes
  | .silence c => le8 slot.val ++ [2] ++ le8 c.val ++ [1] ++ List.replicate 64 0
  | .notice n => le8 slot.val ++ [3, 255, 1] ++ n.bytes

/-- DOWNLINK_SLOT: the slot's entry of the image is sent (R17, R175). A slot already past in this superframe does not come
again. -/
def execDownlinkSlot (slot : Fin 24) (s : State) : Host.Outcome State Fault Refusal :=
  if s.air.running = true ∧ s.air.due ≤ slot.val then
    .next { s with air := { s.air with due := slot.val + 1 },
                   pins := { s.pins with frameStrobe := false, dataOut := slotBytes slot s.air.image[slot] } }
  else .next s

/-! ## Requests -/

/-- Whether source k goes to WAITING at AIR_START: an uplink source whose entry is BOUND, a line source that is ON (R25, R50). -/
def startsWaiting (s : State) (k : SourceId) : Bool :=
  if isLineSource k then s.sources[k].line
  else match toIndex 12 k.val with
    | some e => match s.roster[e] with | .bound _ => true | _ => false
    | none => false

/-- The image of the first superframe: the beacon, SILENCE for every open channel, EMPTY for the rest (R25). -/
def firstImage (count : Count) (s : State) : Vector SlotEntry 24 :=
  fillImage (((0 : Fin 24), beaconFor count s) :: (List.finRange 16).map (fun c =>
    (voiceSlot c, if s.channels[c].state = .closed then .empty else .silence c))) imageEmpty

/-- AIR_START, kind H'08 (R25). -/
def takeAirStart (_body : List Byte) (s : State) : Answer :=
  if s.air.running then refuse s .wrongState
  else if s.air.ready = false then refuse s .wrongState
  else
    let s1 := { s with air := { s.air with running := true } }
    let s2 := startSuperframe (forEach ((List.finRange 14).filter (startsWaiting s)) sourceWaiting s1)
    ({ s2 with air := { s2.air with image := firstImage s2.air.count s2 } }, .okWith (le32 s2.air.count.toNat))

/-- AIR_STOP, kind H'09 (R26). -/
def takeAirStop (_body : List Byte) (s : State) : Answer :=
  if s.air.running = false then (s, .okWith (le32 s.air.count.toNat))
  else if s.air.stopPending then (s, .okWith (le32 s.air.stopAt.toNat))
  else
    let at_ := if s.air.due ≤ buildPoint then s.air.count else s.air.count + 1
    ({ s with air := { s.air with stopPending := true, stopAt := at_ } }, .okWith (le32 at_.toNat))

/-- The code of last_stop (R28). -/
def StopReason.code : StopReason → Nat
  | .none => 0
  | .request => 1
  | .readyLost => 2
  | .softReset => 3

/-- AIR_STATUS, kind H'0A (R28). -/
def takeAirStatus (_body : List Byte) (s : State) : Answer :=
  let b : LastBuild := s.air.lastBuild.getD { count := 0, capacity := 0, placed := 0 }
  (s, .okWith (leFlag s.air.running ++ leFlag s.air.stopPending ++ leFlag s.air.ready ++ le32 s.air.count.toNat ++
    le8 s.air.lastStop.code ++ leFlag s.air.lastBuild.isSome ++ le32 b.count.toNat ++ le8 b.capacity ++ le8 b.placed))

def execAirStart (tag : Byte) (body : List Byte) (s : State) : Host.Outcome State Fault Refusal :=
  .next (submit 0x08 (exactly 0) takeAirStart tag body s)

def execAirStop (tag : Byte) (body : List Byte) (s : State) : Host.Outcome State Fault Refusal :=
  .next (submit 0x09 (exactly 0) takeAirStop tag body s)

def execAirStatus (tag : Byte) (body : List Byte) (s : State) : Host.Outcome State Fault Refusal :=
  .next (submit 0x0A (exactly 0) takeAirStatus tag body s)

end Sys2Proof.Machine
end

