-- ==== Sys2Proof/Machine/Exchange.lean ====
section
/-! DEFINITION. Exchanges on the rack bus (7.2): kinds and classes, requesting one, the arbiter, the frames of R176, and the
good answer. The commands EXCHANGE_START, EXCHANGE_ANSWER, SCAN_TIMER_EXPIRY and ATTENTION_FALL. -/

namespace Sys2Proof.Machine

/-- The code of an exchange's kind (R115). -/
def Exchange.code : Exchange → Nat
  | .scan _ => 1
  | .probe _ => 2
  | .poll _ => 3
  | .setCharge _ _ => 4
  | .tune _ _ _ _ => 5
  | .release _ => 6
  | .clear _ _ => 7

/-- The class queue an exchange joins, as an index: the class of R115 less 1. -/
def Exchange.queue : Exchange → Fin 6
  | .scan _ => 0
  | .tune _ _ _ _ => 1
  | .release _ => 1
  | .probe _ => 2
  | .setCharge _ _ => 3
  | .clear _ _ => 4
  | .poll _ => 5

/-- The slot an exchange names; a SCAN names none. -/
def Exchange.slot? : Exchange → Option SlotAddr
  | .scan _ => none
  | .probe a => some a
  | .poll a => some a
  | .setCharge a _ => some a
  | .tune a _ _ _ => some a
  | .release a => some a
  | .clear a _ => some a

/-- The result of a request for an exchange (R116). -/
inductive RequestResult where
  | queued
  | dropped
  | discarded
deriving DecidableEq, Repr

/-- The slot state lets the exchange be asked for: a PROBE of a PROBING slot, another slot exchange of an OCCUPIED one (R116). -/
def Exchange.allowed (e : Exchange) (s : State) : Bool :=
  match e with
  | .scan _ => true
  | .probe a => decide ((s.slots[a].map Slot.occupancy) = some .probing)
  | .poll a => decide ((s.slots[a].map Slot.occupancy) = some .occupied)
  | .setCharge a _ => decide ((s.slots[a].map Slot.occupancy) = some .occupied)
  | .tune a _ _ _ => decide ((s.slots[a].map Slot.occupancy) = some .occupied)
  | .release a => decide ((s.slots[a].map Slot.occupancy) = some .occupied)
  | .clear a _ => decide ((s.slots[a].map Slot.occupancy) = some .occupied)

/-- A class queue's capacity (R116). -/
def queueCapacity : Nat := 64

/-- A POLL of the slot stands in the POLL queue already (R116). -/
def Exchange.merged (e : Exchange) (s : State) : Bool :=
  match e with
  | .poll _ => decide (e ∈ s.bus.queues[e.queue])
  | _ => false

/-- A request for an exchange (R116): discarded, merged with a waiting POLL, dropped, or added at its class queue's tail. -/
def request (e : Exchange) (s : State) : RequestResult × State :=
  if e.allowed s = false then (.discarded, s)
  else if e.merged s then (.queued, s)
  else if queueCapacity ≤ (s.bus.queues[e.queue]).length then (.dropped, s)
  else (.queued, s.setQueue e.queue (s.bus.queues[e.queue] ++ [e]))

/-- A request whose requester does nothing with the result: SCAN, PROBE, POLL (R116), and the candidate's TUNE, which is
always queued (R153). -/
def ask (e : Exchange) (s : State) : State := (request e s).2

/-- A SCAN of every defined window is requested, in increasing rack index (R123, R129). -/
def scanAll (s : State) : State := forEach s.definedRacks (fun r => ask (.scan r)) s

/-- The exchanges in the class queues that satisfy a test, in the order of the classes and from head to tail (R120). -/
def queuedWhere (p : Exchange → Bool) (s : State) : List Exchange :=
  (List.finRange 6).flatMap (fun q => (s.bus.queues[q]).filter p)

/-- An exchange is taken out of its class queue, and those behind it close up (R120). -/
def unqueue (e : Exchange) (s : State) : State := s.setQueue e.queue ((s.bus.queues[e.queue]).erase e)

/-! ## The arbiter -/

/-- The head of the lowest-numbered class queue that is not empty (R117). -/
def nextExchange (s : State) : Option Exchange := (queuedWhere (fun _ => true) s).head?

/-- The request parameters of an exchange (R176). -/
def Exchange.parameters : Exchange → List Byte
  | .setCharge _ .off => [0]
  | .setCharge _ .bulk => [1]
  | .setCharge _ .top => [2]
  | .tune _ c g k => le8 c.val ++ le8 g.val ++ le8 ((k.map Fin.val).getD 255)
  | _ => []

/-- A frame of the rack bus: start byte, rack, kind, number, position, parameter length, parameters, check (R176). -/
def rackFrame (start : Byte) (rack : RackId) (code : Nat) (number position : Byte) (params : List Byte) : List Byte :=
  let covered := le8 rack.val ++ le8 code ++ [number, position] ++ le8 params.length ++ params
  [start] ++ covered ++ le16 (crc covered).toNat

/-- The rack an exchange goes to; rack 0 stands for none, which cannot arise while queued exchanges name defined racks. -/
def Exchange.rack (e : Exchange) (s : State) : RackId :=
  match e with
  | .scan r => r
  | _ => (e.slot?.bind s.rackOf).getD 0

/-- The position byte: the slot address minus the window's base; 255 for SCAN (R176). -/
def Exchange.position (e : Exchange) (s : State) : Byte :=
  match e.slot? with
  | none => 255
  | some a => BitVec.ofNat 8 (a.val - ((s.racks[e.rack s].map RackWindow.base).getD 0))

/-- An exchange as it goes in flight, with its number (R117). -/
def Exchange.launched (e : Exchange) (number : Byte) (s : State) : InFlight :=
  { exchange := e, rack := e.rack s, position := e.position s, number := number,
    settle := (s.racks[e.rack s].map RackWindow.settle).getD 0, answer := none, doomed := false }

/-- The request frame of an exchange in flight (R117, R176). -/
def InFlight.requestFrame (x : InFlight) : List Byte :=
  rackFrame 0x5A x.rack x.exchange.code x.number x.position x.exchange.parameters

/-- EXCHANGE_START: when the bus is free the arbiter starts the next exchange (R117). DESIGN CHOICE (log entry 27): R117 lets either of
two requests that join together on a free bus start first; of two that one step requests, the model starts the lower class. -/
def execExchangeStart (s : State) : Host.Outcome State Fault Refusal :=
  match s.bus.inFlight, nextExchange s with
  | none, some e =>
    let x := e.launched (s.bus.number + 1) s
    let s1 := unqueue e s
    .next { s1 with bus := { s1.bus with inFlight := some x, number := s.bus.number + 1 },
                    pins := { s1.pins with rackBus := x.requestFrame } }
  | _, _ => .next s

/-! ## Answers -/

/-- The parameter length of an answer of each kind (R176). -/
def Exchange.answerLength : Exchange → Nat
  | .scan _ => 4
  | .probe _ => 7
  | .poll _ => 2
  | .setCharge _ _ => 1
  | .tune _ _ _ _ => 1
  | .release _ => 1
  | .clear _ _ => 0

/-- The parameters of a good answer to the exchange in flight: the frame is, byte for byte, an answer frame with its rack
index, kind code, number and position, a P of its kind's length, and a check that passes (R118, R176). -/
def goodAnswer (x : InFlight) (bytes : List Byte) : Option (List Byte) :=
  let params := (bytes.drop 6).take x.exchange.answerLength
  if params.length = x.exchange.answerLength ∧
      bytes = rackFrame 0x5B x.rack x.exchange.code x.number x.position params then some params
  else none

/-- EXCHANGE_ANSWER: the first good answer to the exchange in flight is recorded; any other frame is ignored (R118). -/
def execExchangeAnswer (bytes : List Byte) (s : State) : Host.Outcome State Fault Refusal :=
  match s.bus.inFlight with
  | some x =>
    match x.answer, goodAnswer x bytes with
    | none, some params => .next { s with bus := { s.bus with inFlight := some { x with answer := some params } } }
    | _, _ => .next s
  | none => .next s

/-! ## Causes of SCANs -/

/-- SCAN_TIMER_EXPIRY: a running scan timer expires, restarts, and a SCAN of its rack is requested (R123). -/
def execScanTimerExpiry (r : RackId) (s : State) : Host.Outcome State Fault Refusal :=
  match s.racks[r] with
  | some w => .next (if w.scanTimer then ask (.scan r) s else s)
  | none => .next s

/-- ATTENTION_FALL: one SCAN of every defined window (R123). -/
def execAttentionFall (s : State) : Host.Outcome State Fault Refusal := .next (scanAll s)

end Sys2Proof.Machine
end

