-- ==== Sys2Proof/Machine/Charge.lean ====
section
/-! DEFINITION. The charge controller (chapter 8): accounts, the admission queue, admission, sessions and their ends,
shedding, polling, and the commands POLL_TIMER_EXPIRY, RACK_BUDGET and CHARGE_CONFIG. -/

namespace Sys2Proof.Machine

/-- The draws of BULK and TOP sessions in mA (8.1). -/
def bulkDraw : Nat := 450
def topDraw : Nat := 120

/-- The draw of a phase (8.1). -/
def ChargePhase.draw : ChargePhase → Nat
  | .bulk => bulkDraw
  | .top => topDraw
  | _ => 0

/-- A rack's admission queue: the shed part, the microphone part, the receiver part (R133). -/
def RackWindow.admission (w : RackWindow) : List SlotAddr := w.shedPart ++ w.micPart ++ w.receiverPart

/-- A slot leaves the admission queue. -/
def RackWindow.withoutWaiting (w : RackWindow) (a : SlotAddr) : RackWindow :=
  { w with shedPart := w.shedPart.erase a, micPart := w.micPart.erase a, receiverPart := w.receiverPart.erase a }

/-- A slot leaves the session list, and committed falls by its draw. -/
def RackWindow.withoutSession (w : RackWindow) (a : SlotAddr) (draw : Nat) : RackWindow :=
  { w with sessions := w.sessions.erase a, committed := w.committed - draw }

/-- A SET_CHARGE is requested; one that is DROPPED is owed (R135). -/
def requestSetCharge (a : SlotAddr) (mode : ChargeMode) (s : State) : State :=
  match request (.setCharge a mode) s with
  | (.dropped, s1) => s1.modSlot a (fun x => { x with setOwed := true })
  | (_, s1) => s1

/-! ## Admission -/

/-- The draw the head of the queue would take, with its level and top_level as they stand (R134). -/
def headDraw (a : SlotAddr) (s : State) : Nat :=
  if (s.slots[a].map Slot.level).getD 0 < s.charge.topLevel then bulkDraw else topDraw

/-- The head is admitted: it joins the tail of the session list in BULK or TOP, and the rack is told (R134). -/
def admitHead (r : RackId) (a : SlotAddr) (s : State) : State :=
  let draw := headDraw a s
  let bulk := decide (draw = bulkDraw)
  let s1 := s.modRack r (fun w =>
    { w.withoutWaiting a with sessions := w.sessions ++ [a], committed := w.committed + draw })
  let s2 := s1.modSlot a (fun x =>
    { x with phase := if bulk then .bulk else .top, topCounter := if bulk then 0 else s.charge.topPolls })
  requestSetCharge a (if bulk then .bulk else .top) s2

/-- Looks at the queue's head one after another; the first argument bounds their number (R134). -/
def attemptLoop : Nat → RackId → State → State
  | 0, _, s => s
  | n + 1, r, s =>
    match s.racks[r] with
    | none => s
    | some w =>
      match w.admission with
      | [] => s
      | a :: _ => if w.committed + headDraw a s ≤ w.budget then attemptLoop n r (admitHead r a s) else s

/-- An attempt at admission for a rack (R134). -/
def attempt (r : RackId) (s : State) : State :=
  attemptLoop ((s.racks[r].map (fun w => w.admission.length)).getD 0) r s

/-- An attempt at admission for the rack that holds a slot. -/
def attemptFor (a : SlotAddr) (s : State) : State :=
  match s.rackOf a with
  | some r => attempt r s
  | none => s

/-- Change the window of the rack that holds a slot. -/
def modRackOf (a : SlotAddr) (f : RackWindow → RackWindow) (s : State) : State :=
  match s.rackOf a with
  | some r => s.modRack r f
  | none => s

/-- The slot heads its rack's admission queue. -/
def isHead (a : SlotAddr) (s : State) : Bool :=
  match s.rackOf a with
  | some r => decide ((s.racks[r].bind (fun w => w.admission.head?)) = some a)
  | none => false

/-! ## Entering charging -/

/-- The kind of the device a slot names. -/
def deviceKindAt (a : SlotAddr) (s : State) : Option DeviceKind :=
  ((s.slots[a].bind Slot.deviceId).bind s.device?).map Device.kind

/-- A slot joins the queue at the tail of its device kind's part (R133). -/
def joinQueue (a : SlotAddr) (s : State) : State :=
  modRackOf a (fun w => if deviceKindAt a s = some .mic then { w with micPart := w.micPart ++ [a] }
    else { w with receiverPart := w.receiverPart ++ [a] }) s

/-- A slot becomes WAITING and joins the queue; an attempt at admission follows (R132, R138). -/
def startWaiting (a : SlotAddr) (s : State) : State :=
  attemptFor a (joinQueue a (s.modSlot a (fun x => { x with phase := .waiting })))

/-- A slot enters charging by the level it holds (R132). -/
def enterCharging (a : SlotAddr) (s : State) : State :=
  let s1 := s.modSlot a (fun x =>
    { x with topCounter := 0, setOwed := false, pollTimer := some s.charge.pollPeriod })
  if (s.slots[a].map Slot.level).getD 0 < 100 then startWaiting a s1 else s1.modSlot a (fun x => { x with phase := .full })

/-! ## Ending charging from outside -/

/-- A slot with charging ended: phase NONE, timer stopped, nothing owed (R139, R140). -/
def Slot.uncharged (x : Slot) : Slot := { x with phase := .none, topCounter := 0, pollTimer := none, setOwed := false }

/-- The slot leaves the queue or the session list with its draw, and takes phase NONE, with no attempt yet (R139, R140). -/
def leaveCharging (a : SlotAddr) (s : State) : State :=
  let phase := (s.slots[a].map Slot.phase).getD .none
  let s1 := match phase with
    | .waiting => modRackOf a (fun w => w.withoutWaiting a) s
    | .bulk => modRackOf a (fun w => w.withoutSession a bulkDraw) s
    | .top => modRackOf a (fun w => w.withoutSession a topDraw) s
    | _ => s
  s1.modSlot a Slot.uncharged

/-- Charging of an emptied or faulted slot ends; an attempt follows when committed has fallen or the queue's head has left
(R139). A slot in phase NONE is left as it is. -/
def endCharging (a : SlotAddr) (s : State) : State :=
  let phase := (s.slots[a].map Slot.phase).getD .none
  let headLeft := isHead a s
  match phase with
  | .none => s
  | .waiting => if headLeft then attemptFor a (leaveCharging a s) else leaveCharging a s
  | .full => leaveCharging a s
  | _ => attemptFor a (leaveCharging a s)

/-- The SET_CHARGE and POLL exchanges of a slot are discarded; their DISCARDED outcomes have no effect (R140, R120, R135, R136). -/
def dropChargeExchanges (a : SlotAddr) (s : State) : State :=
  let keep := fun (e : Exchange) => decide (e.slot? ≠ some a)
  (s.setQueue 3 ((s.bus.queues[3]).filter keep)).setQueue 5 ((s.bus.queues[5]).filter keep)

/-- Charging ends by a reservation (R140). -/
def endByReservation (a : SlotAddr) (s : State) : State := attemptFor a (dropChargeExchanges a (leaveCharging a s))

/-- A failed candidate's slot is handed back to charging (R140). -/
def handBack (a : SlotAddr) (s : State) : State := enterCharging a (requestSetCharge a .off s)

/-! ## Polls -/

/-- The mode a slot's phase calls for (R135). -/
def ChargePhase.mode : ChargePhase → ChargeMode
  | .bulk => .bulk
  | .top => .top
  | _ => .off

/-- A passage from BULK to TOP (R137). -/
def passToTop (a : SlotAddr) (s : State) : State :=
  let s1 := modRackOf a (fun w => { w with committed := w.committed - (bulkDraw - topDraw) }) s
  let s2 := s1.modSlot a (fun x => { x with phase := .top, topCounter := s.charge.topPolls })
  attemptFor a (requestSetCharge a .top s2)

/-- A passage from TOP to FULL (R138). -/
def passToFull (a : SlotAddr) (s : State) : State :=
  let s1 := modRackOf a (fun w => w.withoutSession a topDraw) s
  let s2 := s1.modSlot a (fun x => { x with phase := .full, topCounter := 0 })
  attemptFor a (requestSetCharge a .off s2)

/-- The judgement of an answered POLL by the phase the slot holds and the level just stored (R136 to R138). -/
def judgePoll (a : SlotAddr) (s : State) : State :=
  match s.slots[a] with
  | none => s
  | some x =>
    match x.phase with
    | .none => s
    | .waiting =>
      if x.level = 100 then
        let s1 := (modRackOf a (fun w => w.withoutWaiting a) s).modSlot a (fun y => { y with phase := .full })
        if isHead a s then attemptFor a s1 else s1
      else if isHead a s then attemptFor a s else s
    | .bulk => if s.charge.topLevel ≤ x.level then passToTop a s else s
    | .top =>
      let s1 := s.modSlot a (fun y => { y with topCounter := x.topCounter - 1 })
      if x.level = 100 ∨ x.topCounter - 1 = 0 then passToFull a s1 else s1
    | .full => if x.level < s.charge.rechargeLevel then startWaiting a s else s

/-- POLL_TIMER_EXPIRY: a running poll timer restarts, a POLL is requested, and an owed SET_CHARGE (R136, R135). -/
def execPollTimerExpiry (a : SlotAddr) (s : State) : Host.Outcome State Fault Refusal :=
  match s.slots[a] with
  | none => .next s
  | some x =>
    if x.pollTimer = none then .next s
    else
      let s1 := ask (.poll a) (s.modSlot a (fun y => { y with pollTimer := some s.charge.pollPeriod }))
      .next (if x.setOwed then requestSetCharge a x.phase.mode (s1.modSlot a (fun y => { y with setOwed := false })) else s1)

/-! ## Budgets and shedding -/

/-- The next session to shed: the newest BULK session, or the newest TOP session when no BULK is left (R142). -/
def nextShed (w : RackWindow) (s : State) : Option SlotAddr :=
  let inPhase := fun (p : ChargePhase) (a : SlotAddr) => decide ((s.slots[a].map Slot.phase) = some p)
  (w.sessions.reverse.find? (inPhase .bulk)).orElse (fun _ => w.sessions.reverse.find? (inPhase .top))

/-- One session is shed: it leaves the session list, its phase becomes WAITING, and SET_CHARGE OFF is requested (R142). -/
def shedOne (r : RackId) (a : SlotAddr) (s : State) : State :=
  let draw := ((s.slots[a].map Slot.phase).getD .none).draw
  let s1 := s.modRack r (fun w => w.withoutSession a draw)
  requestSetCharge a .off (s1.modSlot a (fun x => { x with topCounter := 0, phase := .waiting }))

/-- Sessions are shed until committed is at or below the budget; the shed slots are handed back in the order of shedding.
The first argument bounds their number (R142). -/
def shedLoop : Nat → RackId → State → List SlotAddr × State
  | 0, _, s => ([], s)
  | n + 1, r, s =>
    match s.racks[r] with
    | none => ([], s)
    | some w =>
      if w.committed ≤ w.budget then ([], s)
      else match nextShed w s with
        | none => ([], s)
        | some a =>
          let p := shedLoop n r (shedOne r a s)
          (a :: p.1, p.2)

/-- Shedding (R142): the shed slots stand at the head of the shed part in the order of their admission; BUDGET_SHED is
raised with the number shed, and an attempt follows. It answers that number too. -/
def shed (r : RackId) (s : State) : Nat × State :=
  match s.racks[r] with
  | none => (0, s)
  | some w =>
    let p := shedLoop w.sessions.length r s
    if p.1 = [] then (0, p.2)
    else
      let back := w.sessions.filter (fun a => a ∈ p.1)
      let s1 := p.2.modRack r (fun v => { v with shedPart := back ++ v.shedPart })
      (p.1.length, attempt r (raise .budgetShed r.val p.1.length s1))

/-- The slots of a rack in a phase. -/
def slotsInPhase (w : RackWindow) (p : ChargePhase) (s : State) : Nat :=
  (w.addresses.filter (fun a => (s.slots[a].map Slot.phase) = some p)).length

/-- The reply fields of RACK_BUDGET (R141). -/
def budgetFields (r : RackId) (w : RackWindow) (shedCount : Nat) (s : State) : List Byte :=
  le8 r.val ++ le16 w.budget ++ le16 w.committed ++ le8 (slotsInPhase w .bulk s) ++ le8 (slotsInPhase w .top s) ++
    le8 w.admission.length ++ le8 (slotsInPhase w .full s) ++ le8 ((w.admission.head?.map Fin.val).getD 255) ++ le8 shedCount

/-- The body of RACK_BUDGET is 1 byte or 3 (R141). -/
def rackBudgetLength (body : List Byte) : Bool := decide (body.length = 1 ∨ body.length = 3)

/-- A budget written: shedding or an attempt at admission, and the number of sessions shed (R141). -/
def writeBudget (r : RackId) (w : RackWindow) (budget : Nat) (s : State) : Nat × State :=
  let s1 := s.modRack r (fun v => { v with budget := budget })
  if budget < w.committed then shed r s1
  else if w.budget < budget then (0, attempt r s1)
  else (0, s1)

/-- RACK_BUDGET, kind H'32 (R141, R142). -/
def takeRackBudget (body : List Byte) (s : State) : Answer :=
  match toIndex 8 (field8 body 0) with
  | none => refuse s .noObject
  | some r =>
    match s.racks[r] with
    | none => refuse s .wrongState
    | some w =>
      let p := if body.length = 3 then writeBudget r w (min 10000 (field16 body 1)) s else (0, s)
      (p.2, .okWith (budgetFields r ((p.2.racks[r]).getD w) p.1 p.2))

/-- The body of CHARGE_CONFIG is empty or 5 bytes (R143). -/
def chargeConfigLength (body : List Byte) : Bool := decide (body.length = 0 ∨ body.length = 5)

/-- CHARGE_CONFIG, kind H'33 (R143). DESIGN CHOICE (log entry 29): R134 has an attempt for every rack when CHARGE_CONFIG is taken, R143
names it after a write only; a read makes none. -/
def takeChargeConfig (body : List Byte) (s : State) : Answer :=
  let s1 := if body = [] then s
    else
      let s2 := { s with charge := { pollPeriod := clamp 1 60 (field8 body 0), topLevel := clamp 50 100 (field8 body 1),
                                     rechargeLevel := clamp 50 100 (field8 body 2), topPolls := clamp 1 3000 (field16 body 3) } }
      forEach s.definedRacks attempt s2
  let c := s1.charge
  (s1, .okWith (le8 c.pollPeriod ++ le8 c.topLevel ++ le8 c.rechargeLevel ++ le16 c.topPolls))

def execRackBudget (tag : Byte) (body : List Byte) (s : State) : Host.Outcome State Fault Refusal :=
  .next (submit 0x32 rackBudgetLength takeRackBudget tag body s)

def execChargeConfig (tag : Byte) (body : List Byte) (s : State) : Host.Outcome State Fault Refusal :=
  .next (submit 0x33 chargeConfigLength takeChargeConfig tag body s)

end Sys2Proof.Machine
end

