-- ==== Sys2Proof/Machine/Fleet.lean ====
section
/-! DEFINITION. The fleet manager (chapter 9): the roster, issue operations and their candidates, outcomes of its exchanges,
return processing; and the DEVICE, GROUP and ISSUE requests. -/

namespace Sys2Proof.Machine

/-! ## The roster -/

/-- Entry k becomes BOUND, and source k is told (R151, R50). -/
def bindRoster (k : RosterId) (id : DeviceId) (s : State) : State :=
  let s1 := s.setRoster k (.bound id)
  if s1.air.running then sourceWaiting (uplinkSource k) s1 else s1

/-- Entry k leaves BOUND, and source k goes OFF (R151, R50). -/
def unbindRoster (k : RosterId) (s : State) : State := sourceOff (uplinkSource k) (s.setRoster k .free)

/-! ## Issue operations -/

/-- A slot is eligible for an operation's candidate (R153). -/
def eligible (o : IssueOperation) (s : State) (a : SlotAddr) : Bool :=
  match s.slots[a] with
  | none => false
  | some x =>
    match x.deviceId.bind s.device? with
    | none => false
    | some d =>
      decide (x.occupancy = .occupied ∧ x.reservation = none ∧ d.state = .docked ∧ d.kind = o.kind ∧ d.clearState ≠ .queued ∧
        o.minLevel ≤ x.level ∧ a ∉ o.tried)

/-- The level a slot record holds. -/
def levelAt (s : State) (a : SlotAddr) : Nat := (s.slots[a].map Slot.level).getD 0

/-- The better of the best so far and the next address: the higher level, the lower address among equals (R153). -/
def better (s : State) (best : Option SlotAddr) (a : SlotAddr) : Option SlotAddr :=
  match best with
  | none => some a
  | some b => if levelAt s b < levelAt s a then some a else some b

/-- The eligible slot with the highest level, the lowest address among equals (R153). -/
def bestSlot (o : IssueOperation) (s : State) : Option SlotAddr :=
  ((List.finRange 256).filter (eligible o s)).foldl (better s) none

/-- The detail of ISSUE_DONE (R158). -/
def IssueOperation.detail (o : IssueOperation) : Nat :=
  ((if o.retuned then 1 else 0) + (if o.cancel then 2 else 0)) * 65536 + o.issued * 256 + o.count

/-- An operation completes (R158). -/
def completeOp (g : GroupId) (s : State) : State :=
  match s.op? g with
  | none => s
  | some o =>
    let s1 := match o.kind, o.roster with
      | .mic, some k => if o.issued = 0 then s.setRoster k .free else s
      | _, _ => s
    let s2 := s1.setGroup g { s1.groups[g] with
      issueHandle := none,
      lastIssue := some { issued := o.issued, count := o.count, retuned := o.retuned, cancelled := o.cancel } }
    let s3 := raise .issueDone g.val o.detail s2
    { s3 with ops := s3.ops.filter (fun p => p.group ≠ g) }

/-- The chosen slot is reserved, its charging ends, and its TUNE with the group's channel is requested (R153, R140). -/
def reserveSlot (g : GroupId) (o : IssueOperation) (a : SlotAddr) (s : State) : State :=
  let c := (s.groups[g].channel).getD 0
  let s1 := endByReservation a (s.modSlot a (fun x => { x with reservation := some (handleOf g) }))
  ask (.tune a c g o.roster)
    (s1.modOp g (fun p => { p with candidate := some { slot := a, stage := .tune, tunedChannel := c } }))

/-- The next candidate is chosen, or the operation completes when no slot is eligible (R153, R158). -/
def chooseNext (g : GroupId) (s : State) : State :=
  match s.op? g with
  | none => s
  | some o =>
    match bestSlot o s with
    | some a => reserveSlot g o a s
    | none => completeOp g s

/-- The operation goes on after a candidate's outcome: it completes when cancelled, and chooses otherwise (R156, R157). -/
def nextOrComplete (g : GroupId) (s : State) : State :=
  match s.op? g with
  | none => s
  | some o => if o.cancel then completeOp g s else chooseNext g s

/-- A candidate fails (R157). A slot that is faulted or being emptied is not handed back to charging. -/
def failCandidate (g : GroupId) (a : SlotAddr) (emptying : Bool) (s : State) : State :=
  let s1 := (s.modSlot a (fun x => { x with reservation := none })).modOp g (fun o =>
    { o with candidate := none, tried := if a ∈ o.tried then o.tried else o.tried ++ [a] })
  let occupied := decide ((s1.slots[a].map Slot.occupancy) = some .occupied)
  nextOrComplete g (if emptying = false ∧ occupied = true then handBack a s1 else s1)

/-- The group whose running operation has a candidate at this slot, in one of these stages. -/
def candidateGroup (a : SlotAddr) (stages : List Stage) (s : State) : Option GroupId :=
  (s.ops.find? (fun o => match o.candidate with
    | some c => decide (c.slot = a ∧ c.stage ∈ stages)
    | none => false)).map IssueOperation.group

/-- A cause of failure reaches the candidate at a slot, if there is one (R157). -/
def failAt (a : SlotAddr) (stages : List Stage) (emptying : Bool) (s : State) : State :=
  match candidateGroup a stages s with
  | some g => failCandidate g a emptying s
  | none => s

/-- The candidate's TUNE is answered (R155). -/
def tuneAnswered (a : SlotAddr) (s : State) : State :=
  match candidateGroup a [.tune] s with
  | none => s
  | some g =>
    let s1 := match s.slots[a].bind Slot.deviceId with
      | some id => s.modDevice id (fun d => { d with clearState := if d.clearState = .owed then .none else d.clearState })
      | none => s
    match request (.release a) s1 with
    | (.discarded, s2) => failCandidate g a false s2
    | (_, s2) => s2.modOp g (fun o => { o with candidate := o.candidate.map (fun c => { c with stage := .release }) })

/-- The device, the group, the slot and the operation's counts at a successful RELEASE (R156). -/
def issueDevice (g : GroupId) (o : IssueOperation) (a : SlotAddr) (id : DeviceId) (s : State) : State :=
  let c := (s.groups[g].channel).getD 0
  let tuned := (o.candidate.map Candidate.tunedChannel).getD c
  let s1 := s.modDevice id (fun d =>
    { d with state := .out, assignment := some { group := g, channel := c, roster := o.roster } })
  let s2 := s1.modOp g (fun p =>
    { p with retuned := p.retuned || decide (c ≠ tuned), issued := p.issued + 1, candidate := none })
  let s3 := s2.setGroup g { s2.groups[g] with outCount := s2.groups[g].outCount + 1 }
  let s4 := s3.modSlot a (fun x => { x with reservation := none, released := true })
  match o.kind, o.roster with
  | .mic, some k => bindRoster k id s4
  | _, _ => s4

/-- The candidate's RELEASE is answered: it succeeds, and the operation completes or goes on (R156). -/
def releaseAnswered (a : SlotAddr) (s : State) : State :=
  match candidateGroup a [.release] s with
  | none => s
  | some g =>
    match s.op? g, s.slots[a].bind Slot.deviceId with
    | some o, some id =>
      let s1 := issueDevice g o a id s
      if o.count ≤ o.issued + 1 then completeOp g s1 else nextOrComplete g s1
    | _, _ => s

/-! ## Outcomes of queued exchanges -/

/-- A device's clear_state takes a value, if its record still exists (R162). -/
def setClear (id : DeviceId) (c : ClearState) (s : State) : State := s.modDevice id (fun d => { d with clearState := c })

/-- The outcome DISCARDED reaches an exchange's requester (R120, R135, R136, R155, R156, R162). -/
def deliverDiscarded (emptying : Bool) (e : Exchange) (s : State) : State :=
  match e with
  | .tune a _ _ _ => failAt a [.tune] emptying s
  | .release a => failAt a [.release] emptying s
  | .clear _ id => setClear id .owed s
  | .scan _ => s
  | .probe _ => s
  | .poll _ => s
  | .setCharge _ _ => s

/-- The outcome TIMEOUT reaches an exchange's requester (R119, R135, R136, R155, R156, R162). -/
def deliverTimeout (e : Exchange) (s : State) : State :=
  match e with
  | .tune a _ _ _ => failAt a [.tune] false s
  | .release a => failAt a [.release] false s
  | .clear _ id => setClear id .owed s
  | .setCharge a _ =>
    s.modSlot a (fun x => if x.occupancy = .occupied ∧ x.phase ≠ .none then { x with setOwed := true } else x)
  | .scan _ => s
  | .probe _ => s
  | .poll _ => s

/-- The queued exchanges that satisfy a test are discarded, one after another (R120). -/
def discardWhere (p : Exchange → Bool) (emptying : Bool) (s : State) : State :=
  forEach (queuedWhere p s) (fun e s1 => deliverDiscarded emptying e (unqueue e s1)) s

/-- The queued exchanges of a slot are discarded (R120). -/
def discardSlot (a : SlotAddr) (emptying : Bool) (s : State) : State :=
  discardWhere (fun e => decide (e.slot? = some a)) emptying s

/-- A CLEAR is requested for a device at a slot; QUEUED, or OWED when it is DROPPED (R161 step 6, R162). -/
def requestClear (a : SlotAddr) (id : DeviceId) (s : State) : State :=
  match request (.clear a id) s with
  | (.queued, s1) => setClear id .queued s1
  | (_, s1) => setClear id .owed s1

/-! ## Groups -/

/-- A group becomes FREE: its channel absent, and that channel's bound group count lower by 1 (R149, R161). -/
def freeGroup (g : GroupId) (s : State) : State :=
  let old := s.groups[g].channel
  let s1 := s.setGroup g { s.groups[g] with state := .free, channel := none }
  match old with
  | some c => s1.modBound c (fun n => n - 1)
  | none => s1

/-- A CLOSING group with no device out becomes FREE, and GROUP_CLOSED is raised with its former channel (R161 step 5). -/
def closeIfEmpty (g : GroupId) (s : State) : State :=
  let x := s.groups[g]
  if x.state = .closing ∧ x.outCount = 0 then
    raise .groupClosed g.val ((x.channel.map Fin.val).getD 0) (freeGroup g s)
  else s

/-- Return processing of an OUT device at the probed slot (R161 steps 1 to 5). An OUT device always has an assignment. -/
def returnDevice (d : Device) (a : SlotAddr) (level : Nat) (s : State) : State :=
  match d.assignment with
  | none => s.modDevice d.id (fun x => { x with state := .docked, slot := some a, level := level })
  | some asg =>
    let g := asg.group
    let s1 := s.setGroup g { s.groups[g] with outCount := s.groups[g].outCount - 1 }
    let s2 := match asg.roster with
      | some k => unbindRoster k s1
      | none => s1
    let s3 := s2.modDevice d.id (fun x => { x with state := .docked, slot := some a, level := level, assignment := none })
    closeIfEmpty g (raise .deviceReturned a.val d.id.toNat s3)

/-! ## DEVICE requests -/

/-- The device table's capacity (R145). -/
def deviceCapacity : Nat := 384

/-- Put a record into its place by increasing id. -/
def insertById (d : Device) : List Device → List Device
  | [] => [d]
  | e :: l => if d.id.toNat ≤ e.id.toNat then d :: e :: l else e :: insertById d l

/-- The records in increasing order of id, computed at the request (R145, R146). -/
def devicesById (s : State) : List Device := s.devices.foldr insertById []

/-- Codes of the fields of a device record (R146). -/
def DeviceKind.code : DeviceKind → Nat
  | .receiver => 0
  | .mic => 1

def DeviceState.code : DeviceState → Nat
  | .docked => 0
  | .out => 1
  | .unseen => 2

def ClearState.code : ClearState → Nat
  | .none => 0
  | .owed => 1
  | .queued => 2

/-- An object number or 255 when absent. -/
def indexOr255 {n : Nat} (i : Option (Fin n)) : List Byte := le8 ((i.map Fin.val).getD 255)

/-- The reply fields of DEVICE_READ (R146). -/
def Device.fields (d : Device) (records : Nat) : List Byte :=
  le16 records ++ le32 d.id.toNat ++ le8 d.kind.code ++ le8 d.state.code ++ indexOr255 d.slot ++ leFlag d.slot.isSome ++
    le8 d.level ++ leFlag d.assignment.isSome ++ indexOr255 (d.assignment.map Assignment.group) ++
    indexOr255 (d.assignment.map Assignment.channel) ++ indexOr255 (d.assignment.bind Assignment.roster) ++
    le8 d.clearState.code

/-- The body of DEVICE_READ is 4 bytes or 2 (R146). -/
def deviceReadLength (body : List Byte) : Bool := decide (body.length = 4 ∨ body.length = 2)

/-- DEVICE_READ, kind H'38 (R146). -/
def takeDeviceRead (body : List Byte) (s : State) : Answer :=
  let found := if body.length = 4 then s.device? (BitVec.ofNat 32 (field32 body 0)) else (devicesById s)[field16 body 0]?
  match found with
  | none => refuse s .noObject
  | some d => (s, .okWith (d.fields s.devices.length))

/-- DEVICE_FORGET, kind H'39 (R147). -/
def takeDeviceForget (body : List Byte) (s : State) : Answer :=
  match s.device? (BitVec.ofNat 32 (field32 body 0)) with
  | none => refuse s .noObject
  | some d =>
    if d.state ≠ .unseen then refuse s .wrongState
    else
      let s1 := { s with devices := s.devices.filter (fun e => e.id ≠ d.id) }
      (s1, .okWith (le16 s1.devices.length))

/-! ## GROUP requests -/

/-- A group state's code (R150). -/
def GroupState.code : GroupState → Nat
  | .free => 0
  | .opened => 1
  | .closing => 2

/-- GROUP_OPEN, kind H'3C (R148). -/
def takeGroupOpen (body : List Byte) (s : State) : Answer :=
  match toIndex 24 (field8 body 0), toIndex 16 (field8 body 1) with
  | some g, some c =>
    if s.groups[g].state ≠ .free then refuse s .wrongState
    else if s.channels[c].state = .closed then refuse s .wrongState
    else
      let s1 := s.setGroup g { state := .opened, channel := some c, outCount := 0, issueHandle := none, lastIssue := none }
      (s1.modBound c (fun n => n + 1), .okWith (le8 g.val ++ le8 c.val))
  | _, _ => refuse s .noObject

/-- GROUP_CLOSE, kind H'3D (R149). -/
def takeGroupClose (body : List Byte) (s : State) : Answer :=
  match toIndex 24 (field8 body 0) with
  | none => refuse s .noObject
  | some g =>
    let x := s.groups[g]
    if x.state = .free then refuse s .wrongState
    else if x.issueHandle.isSome then refuse s .busy
    else if x.state = .opened ∧ x.outCount = 0 then (freeGroup g s, .okWith (le8 GroupState.free.code))
    else (s.setGroup g { x with state := .closing }, .okWith (le8 GroupState.closing.code))

/-- GROUP_STATUS, kind H'3E (R150). -/
def takeGroupStatus (body : List Byte) (s : State) : Answer :=
  match toIndex 24 (field8 body 0) with
  | none => refuse s .noObject
  | some g =>
    let x := s.groups[g]
    let l : LastIssue := x.lastIssue.getD { issued := 0, count := 0, retuned := false, cancelled := false }
    (s, .okWith (le8 g.val ++ le8 x.state.code ++ indexOr255 x.channel ++ le16 x.outCount ++ le8 (x.issueHandle.getD 0) ++
      leFlag x.lastIssue.isSome ++ le8 l.issued ++ le8 l.count ++ leFlag l.retuned ++ leFlag l.cancelled))

/-! ## ISSUE requests -/

/-- The number of operations that may run at once (9.4). -/
def opCapacity : Nat := 4

/-- The body of ISSUE is 4 bytes or 5 (R152). -/
def issueLength (body : List Byte) : Bool := decide (body.length = 4 ∨ body.length = 5)

/-- The values of an ISSUE body are bad (R152 check 2). -/
def issueBadValue (body : List Byte) : Bool :=
  decide (1 < field8 body 1 ∨ field8 body 2 = 0 ∨ 64 < field8 body 2 ∨
    (field8 body 1 = 1 ∧ (field8 body 2 ≠ 1 ∨ 11 < field8 body 3)))

/-- The roster entry an ISSUE of a MIC names; a RECEIVER's is not read (R152). -/
def issueRoster (body : List Byte) : Option RosterId := if field8 body 1 = 1 then toIndex 12 (field8 body 3) else none

/-- The roster entry an ISSUE names is not FREE (R152 check 6). -/
def rosterConflict (k : Option RosterId) (s : State) : Bool :=
  match k with
  | some k => decide (s.roster[k] ≠ .free)
  | none => false

/-- The operation an ISSUE creates, the group's fields and the held roster entry, before the first choice (R152). -/
def createOp (g : GroupId) (body : List Byte) (s : State) : State :=
  let o : IssueOperation :=
    { group := g, kind := if field8 body 1 = 1 then .mic else .receiver, count := field8 body 2,
      minLevel := if body.length = 5 then min 100 (field8 body 4) else 80, roster := issueRoster body, issued := 0,
      cancel := false, retuned := false, candidate := none, tried := [] }
  let s1 := s.setGroup g { s.groups[g] with issueHandle := some (handleOf g), lastIssue := none }
  let s2 := match o.roster with
    | some k => s1.setRoster k (.held (handleOf g))
    | none => s1
  { s2 with ops := s2.ops ++ [o] }

/-- ISSUE, kind H'40 (R152). -/
def takeIssue (body : List Byte) (s : State) : Answer :=
  match toIndex 24 (field8 body 0) with
  | none => refuse s .noObject
  | some g =>
    if issueBadValue body then refuse s .badValue
    else if s.groups[g].state ≠ .opened then refuse s .wrongState
    else if s.groups[g].issueHandle.isSome then refuse s .busy
    else if opCapacity ≤ s.ops.length then refuse s .noSpace
    else if rosterConflict (issueRoster body) s then refuse s .conflict
    else (chooseNext g (createOp g body s), { status := .accepted, fields := le8 (handleOf g) })

/-- ISSUE_CANCEL, kind H'41 (R159). -/
def takeIssueCancel (body : List Byte) (s : State) : Answer :=
  match toIndex 24 (field8 body 0) with
  | none => refuse s .noObject
  | some g =>
    match s.op? g with
    | none => refuse s .wrongState
    | some o => (s.modOp g (fun p => { p with cancel := true }), .okWith (le8 o.issued ++ le8 o.count))

/-- A stage's code (R160). -/
def Stage.code : Stage → Nat
  | .tune => 1
  | .release => 2

/-- ISSUE_STATUS, kind H'42 (R160). -/
def takeIssueStatus (body : List Byte) (s : State) : Answer :=
  match toIndex 24 (field8 body 0) with
  | none => refuse s .noObject
  | some g =>
    match s.op? g with
    | none => refuse s .wrongState
    | some o =>
      let c : Candidate := o.candidate.getD { slot := 0, stage := .tune, tunedChannel := 0 }
      (s, .okWith (le8 (handleOf g) ++ le8 o.kind.code ++ le8 o.count ++ le8 o.minLevel ++ indexOr255 o.roster ++ le8 o.issued ++
        leFlag o.cancel ++ leFlag o.retuned ++ le8 c.slot.val ++ le8 c.stage.code ++ le8 c.tunedChannel.val ++
        le16 o.tried.length))

def execDeviceRead (tag : Byte) (body : List Byte) (s : State) : Host.Outcome State Fault Refusal :=
  .next (submit 0x38 deviceReadLength takeDeviceRead tag body s)

def execDeviceForget (tag : Byte) (body : List Byte) (s : State) : Host.Outcome State Fault Refusal :=
  .next (submit 0x39 (exactly 4) takeDeviceForget tag body s)

def execGroupOpen (tag : Byte) (body : List Byte) (s : State) : Host.Outcome State Fault Refusal :=
  .next (submit 0x3C (exactly 2) takeGroupOpen tag body s)

def execGroupClose (tag : Byte) (body : List Byte) (s : State) : Host.Outcome State Fault Refusal :=
  .next (submit 0x3D (exactly 1) takeGroupClose tag body s)

def execGroupStatus (tag : Byte) (body : List Byte) (s : State) : Host.Outcome State Fault Refusal :=
  .next (submit 0x3E (exactly 1) takeGroupStatus tag body s)

def execIssue (tag : Byte) (body : List Byte) (s : State) : Host.Outcome State Fault Refusal :=
  .next (submit 0x40 issueLength takeIssue tag body s)

def execIssueCancel (tag : Byte) (body : List Byte) (s : State) : Host.Outcome State Fault Refusal :=
  .next (submit 0x41 (exactly 1) takeIssueCancel tag body s)

def execIssueStatus (tag : Byte) (body : List Byte) (s : State) : Host.Outcome State Fault Refusal :=
  .next (submit 0x42 (exactly 1) takeIssueStatus tag body s)

end Sys2Proof.Machine
end

