-- ==== Sys2Proof/Machine/Rack.lean ====
section
/-! DEFINITION. The rack bus controller's handling of what the exchanges bring (chapter 7): emptying a slot, the completion
of each kind, timeouts; EXCHANGE_COMPLETE, EXCHANGE_TIMEOUT, and the RACK and SLOT requests. -/

namespace Sys2Proof.Machine

/-! ## Emptying a slot -/

/-- Why a slot is emptied (R121). -/
inductive EmptyReason where
  | removed
  | stale
  | lost
deriving DecidableEq, Repr

/-- A device that is in no slot any more and was DOCKED: UNSEEN (R121, R128, R163). -/
def Device.unseen (d : Device) : Device := { d with state := .unseen, slot := none }

/-- What an emptied slot's device becomes (R121 steps 4 and 5). -/
def emptiedDevice (reason : EmptyReason) (a : SlotAddr) (s : State) : State :=
  match (s.slots[a].bind Slot.deviceId).bind s.device? with
  | none => s
  | some d =>
    match d.state, reason with
    | .out, _ => s.modDevice d.id (fun x => { x with slot := none })
    | .docked, .removed => raise .unissuedRemoval a.val d.id.toNat (s.modDevice d.id Device.unseen)
    | .docked, .lost => s.modDevice d.id Device.unseen
    | .docked, .stale => s
    | .unseen, _ => s

/-- A reserved slot's candidate fails when the slot is emptied (R121 step 3); the emptied record clears the reservation. -/
def emptiedReservation (a : SlotAddr) (s : State) : State :=
  if ((s.slots[a].bind Slot.reservation)).isSome then failAt a [.tune, .release] true s else s

/-- Emptying a slot, in the order of R121. -/
def emptySlot (reason : EmptyReason) (a : SlotAddr) (s : State) : State :=
  match s.slots[a] with
  | none => s
  | some x =>
    if x.occupancy = .empty then s
    else
      (emptiedDevice reason a (emptiedReservation a (endCharging a (discardSlot a true s)))).setSlot a (some .initial)

/-- A slot enters FAULT with a cause; for causes TIMEOUT and DEVICE, SLOT_FAULT is raised with the cause's detail (R119, R124,
R125). -/
def markFault (a : SlotAddr) (cause : FaultCause) (s : State) : State :=
  let s1 := s.modSlot a (fun x => { x with occupancy := .fault, faultCause := some cause })
  match cause with
  | .timeout => raise .slotFault a.val 1 s1
  | .device => raise .slotFault a.val 2 s1
  | .fleetFull => s1

/-- A slot faults: its queued exchanges are discarded and its charging ends (R119, R120, R124, R125, R139). -/
def enterFault (a : SlotAddr) (cause : FaultCause) (s : State) : State :=
  endCharging a (discardSlot a false (markFault a cause s))

/-! ## Completions -/

/-- Position i of a rack is occupied in the SCAN answer (R176). -/
def occupiedAt (params : List Byte) (i : Nat) : Bool := (field32 params 0).testBit i

/-- One position of a completed SCAN against its slot record (R123). -/
def scanPosition (w : RackWindow) (params : List Byte) (a : SlotAddr) (s : State) : State :=
  let there := occupiedAt params (a.val - w.base)
  match s.slots[a].map Slot.occupancy with
  | none => s
  | some .empty =>
    if there then ask (.probe a) (s.modSlot a (fun x => { x with occupancy := .probing })) else s
  | some .probing =>
    if there then (if .probe a ∈ s.bus.queues[2] then s else ask (.probe a) s) else emptySlot .removed a s
  | some _ => if there then s else emptySlot .removed a s

/-- A CLEAR is requested for an OCCUPIED slot whose DOCKED device owes one, if it is not reserved (R162). -/
def clearOwed (a : SlotAddr) (s : State) : State :=
  match s.slots[a] with
  | none => s
  | some x =>
    match x.deviceId.bind s.device? with
    | none => s
    | some d =>
      if x.occupancy = .occupied ∧ d.state = .docked ∧ d.clearState = .owed ∧ x.reservation = none then requestClear a d.id s
      else s

/-- A completed SCAN: the rack is ONLINE, its positions are compared, owed CLEARs are requested (R123, R162). -/
def scanComplete (r : RackId) (params : List Byte) (s : State) : State :=
  match s.racks[r] with
  | none => s
  | some w =>
    let s1 := s.modRack r (fun v => { v with rackState := .online, scanMisses := 0 })
    forEach w.addresses clearOwed (forEach w.addresses (scanPosition w params) s1)

/-- The fault flag of an answer: 0 clear, 1 set, any other byte the free value (R176, assumption 9). -/
def faultFlagOf (b : Byte) : Bool := if b = 0 then false else if b = 1 then true else Config.faultFlag b

/-- A reported level, taken as 100 when above 100 (R124, R125). -/
def reportedLevel (params : List Byte) (i : Nat) : Nat := min 100 (field8 params i)

/-- The device kinds by their codes in a PROBE answer (R176). -/
def probeKind : Nat → Option DeviceKind
  | 0 => some .receiver
  | 1 => some .mic
  | _ => none

/-- The other slot record that names a device id (R124 step 2). -/
def otherSlotOf (a : SlotAddr) (id : DeviceId) (s : State) : Option SlotAddr :=
  (List.finRange 256).find? (fun b => decide (b ≠ a) && decide ((s.slots[b].bind Slot.deviceId) = some id))

/-- The slot becomes OCCUPIED by the device, whose record takes the level and the kind reported (R124). -/
def occupySlot (a : SlotAddr) (id : DeviceId) (kind : DeviceKind) (level : Nat) (s : State) : State :=
  (s.modSlot a (fun x => { x with occupancy := .occupied, deviceId := some id, level := level })).modDevice id
    (fun d => { d with kind := kind, level := level })

/-- The outcome of a PROBE by the device record with the reported id (R124 step 3, R145, R161). -/
def probeOutcome (a : SlotAddr) (id : DeviceId) (kind : DeviceKind) (level : Nat) (s : State) : State :=
  match s.device? id with
  | none =>
    if s.devices.length < deviceCapacity then
      let d : Device := { id := id, kind := kind, state := .docked, slot := some a, level := level, assignment := none,
                          clearState := .none }
      enterCharging a (occupySlot a id kind level { s with devices := s.devices ++ [d] })
    else
      let s1 := enterFault a .fleetFull (s.modSlot a (fun x => { x with deviceId := none }))
      raise .fleetFull a.val id.toNat s1
  | some d =>
    match d.state with
    | .out =>
      enterCharging a (requestClear a id (occupySlot a id kind level (returnDevice d a level s)))
    | _ =>
      enterCharging a (occupySlot a id kind level (s.modDevice id (fun x => { x with state := .docked, slot := some a })))

/-- A completed PROBE is judged (R124). The parameters are device_id, kind, level and fault (R176). -/
def probeComplete (a : SlotAddr) (params : List Byte) (s : State) : State :=
  let id : DeviceId := BitVec.ofNat 32 (field32 params 0)
  match probeKind (field8 params 4) with
  | none => enterFault a .device (s.modSlot a (fun x => { x with deviceId := none }))
  | some kind =>
    if faultFlagOf (params.getD 6 0) = true ∨ id = 0 then
      enterFault a .device (s.modSlot a (fun x => { x with deviceId := none }))
    else
      let s1 := match otherSlotOf a id s with
        | some b => emptySlot .stale b s
        | none => s
      probeOutcome a id kind (reportedLevel params 5) s1

/-- A level carried by an answer is stored in the slot and in the record of the device it names (R125). -/
def storeLevel (a : SlotAddr) (level : Nat) (s : State) : State :=
  let s1 := s.modSlot a (fun x => { x with level := level })
  match s.slots[a].bind Slot.deviceId with
  | some id => s1.modDevice id (fun d => { d with level := level })
  | none => s1

/-- A completed POLL: the level, then the fault flag or the charge controller's judgement (R125, R136). -/
def pollComplete (a : SlotAddr) (params : List Byte) (s : State) : State :=
  let s1 := storeLevel a (reportedLevel params 0) s
  if faultFlagOf (params.getD 1 0) then enterFault a .device s1 else judgePoll a s1

/-- The slot's timeouts counter takes a value. -/
def setTimeouts (a : SlotAddr) (n : Nat) (s : State) : State := s.modSlot a (fun x => { x with timeouts := n })

/-- A completed exchange, acted on by its kind (R118, R123 to R125, R155, R156, R162). -/
def complete (e : Exchange) (params : List Byte) (s : State) : State :=
  match e with
  | .scan r => scanComplete r params s
  | .probe a => probeComplete a params (setTimeouts a 0 s)
  | .poll a => pollComplete a params (setTimeouts a 0 s)
  | .setCharge a _ => storeLevel a (reportedLevel params 0) (setTimeouts a 0 s)
  | .tune a _ _ _ => tuneAnswered a (storeLevel a (reportedLevel params 0) (setTimeouts a 0 s))
  | .release a => releaseAnswered a (storeLevel a (reportedLevel params 0) (setTimeouts a 0 s))
  | .clear a id => setClear id .none (setTimeouts a 0 s)

/-- The bus is free again. -/
def freeBus (s : State) : State := { s with bus := { s.bus with inFlight := none } }

/-- EXCHANGE_COMPLETE: an exchange with its good answer completes; the answer of one whose rack has been removed is not acted
on, and DISCARDED is delivered (R118, R120). -/
def execExchangeComplete (s : State) : Host.Outcome State Fault Refusal :=
  match s.bus.inFlight with
  | none => .next s
  | some x =>
    match x.answer with
    | none => .next s
    | some params =>
      .next (if x.doomed then deliverDiscarded false x.exchange (freeBus s) else complete x.exchange params (freeBus s))

/-! ## Timeouts -/

/-- A PROBE that times out for the first time is requested again (R119). -/
def probeAgain (e : Exchange) (s : State) : State :=
  match e with
  | .probe a => ask (.probe a) s
  | _ => s

/-- A slot exchange times out (R119). -/
def slotTimeout (e : Exchange) (a : SlotAddr) (s : State) : State :=
  if (s.slots[a].map Slot.timeouts).getD 0 = 0 then
    probeAgain e (deliverTimeout e (raise .dockTimeout a.val e.code (setTimeouts a 1 s)))
  else deliverTimeout e (enterFault a .timeout (setTimeouts a 2 s))

/-- A SCAN times out (R126). -/
def scanTimeout (r : RackId) (s : State) : State :=
  match s.racks[r] with
  | none => s
  | some w =>
    match w.rackState with
    | .unreachable => s
    | .online =>
      if w.scanMisses = 0 then s.modRack r (fun v => { v with scanMisses := 1 })
      else
        forEach w.addresses (emptySlot .lost)
          (raise .rackUnreachable r.val 0 (s.modRack r (fun v => { v with scanMisses := 2, rackState := .unreachable })))

/-- EXCHANGE_TIMEOUT: an exchange with no good answer times out; one whose rack has been removed is delivered DISCARDED with no
timeout counted (R118, R120). -/
def execExchangeTimeout (s : State) : Host.Outcome State Fault Refusal :=
  match s.bus.inFlight with
  | none => .next s
  | some x =>
    if x.answer.isSome then .next s
    else if x.doomed then .next (deliverDiscarded false x.exchange (freeBus s))
    else match x.exchange with
      | .scan r => .next (scanTimeout r (freeBus s))
      | e => .next (match e.slot? with
        | some a => slotTimeout e a (freeBus s)
        | none => freeBus s)

/-! ## RACK requests -/

/-- The sizes a rack may have (R114). -/
def rackSizes : List Nat := [4, 8, 16, 32]

/-- The window's addresses overlap another defined window (R114 check 4). -/
def overlaps (base size : Nat) (s : State) : Bool :=
  (List.finRange 8).any (fun r => match s.racks[r] with
    | some w => decide (base < w.base + w.size ∧ w.base < base + size)
    | none => false)

/-- The body of RACK_DEFINE is 4 bytes or 6 (R114). -/
def rackDefineLength (body : List Byte) : Bool := decide (body.length = 4 ∨ body.length = 6)

/-- A window as RACK_DEFINE defines it, with its account opened (R114, R130). -/
def newWindow (base size settle budget : Nat) : RackWindow :=
  { base := base, size := size, settle := settle, rackState := .online, scanMisses := 0, scanTimer := true, budget := budget,
    committed := 0, sessions := [], shedPart := [], micPart := [], receiverPart := [] }

/-- A window is defined: its slot records are created and a SCAN of it is requested (R114). -/
def defineRack (r : RackId) (w : RackWindow) (s : State) : State :=
  ask (.scan r) (forEach w.addresses (fun a s1 => s1.setSlot a (some .initial)) (s.setRack r (some w)))

/-- RACK_DEFINE, kind H'30 (R114). -/
def takeRackDefine (body : List Byte) (s : State) : Answer :=
  match toIndex 8 (field8 body 0) with
  | none => refuse s .noObject
  | some r =>
    let base := field8 body 1
    let size := field8 body 2
    let settle := field8 body 3
    if (s.racks[r]).isSome then refuse s .wrongState
    else if size ∉ rackSizes ∨ base % size ≠ 0 ∨ 15 < settle then refuse s .badValue
    else if overlaps base size s then refuse s .conflict
    else
      let budget := if body.length = 6 then min 10000 (field16 body 4) else 2000
      (defineRack r (newWindow base size settle budget) s,
        .okWith (le8 r.val ++ le8 base ++ le8 size ++ le8 settle ++ le16 budget))

/-- An exchange names the rack or one of its slots (R122). -/
def namesRack (r : RackId) (w : RackWindow) (e : Exchange) : Bool :=
  match e with
  | .scan q => decide (q = r)
  | _ => match e.slot? with
    | some a => w.holds a
    | none => false

/-- An exchange in flight with the rack is marked to be discarded at its end (R122, R120). -/
def doomInFlight (r : RackId) (s : State) : State :=
  { s with bus := { s.bus with inFlight := s.bus.inFlight.map (fun x => if x.rack = r then { x with doomed := true } else x) } }

/-- The removal of a rack (R122), in its order; the account closes with the window. -/
def removeRack (r : RackId) (w : RackWindow) (s : State) : State :=
  let s1 := doomInFlight r (discardWhere (namesRack r w) false (s.modRack r (fun v => { v with scanTimer := false })))
  let s2 := forEach w.addresses (emptySlot .lost) s1
  (forEach w.addresses (fun a s3 => s3.setSlot a none) s2).setRack r none

/-- RACK_REMOVE, kind H'31 (R122). -/
def takeRackRemove (body : List Byte) (s : State) : Answer :=
  match toIndex 8 (field8 body 0) with
  | none => refuse s .noObject
  | some r =>
    match s.racks[r] with
    | none => refuse s .wrongState
    | some w =>
      if w.addresses.any (fun a => ((s.slots[a].bind Slot.reservation)).isSome) then refuse s .busy
      else (removeRack r w s, .okWith [])

/-! ## SLOT requests -/

/-- Codes of a slot's fields (R127). -/
def RackState.code : RackState → Nat
  | .online => 0
  | .unreachable => 1

def Occupancy.code : Occupancy → Nat
  | .empty => 0
  | .probing => 1
  | .occupied => 2
  | .fault => 3

def FaultCause.code : FaultCause → Nat
  | .timeout => 1
  | .device => 2
  | .fleetFull => 3

def ChargePhase.code : ChargePhase → Nat
  | .none => 0
  | .waiting => 1
  | .bulk => 2
  | .top => 3
  | .full => 4

/-- The kind code of the exchange in flight with a slot; 0 when none. An exchange marked to a removed window is not with the
slot of a later one (R127, R122). -/
def inFlightWith (a : SlotAddr) (s : State) : Nat :=
  match s.bus.inFlight with
  | some x => if x.exchange.slot? = some a ∧ x.doomed = false then x.exchange.code else 0
  | none => 0

/-- The reply fields of SLOT_STATUS (R127). -/
def slotFields (a : SlotAddr) (r : RackId) (w : RackWindow) (x : Slot) (s : State) : List Byte :=
  le8 a.val ++ le8 r.val ++ le8 w.rackState.code ++ le8 w.scanMisses ++ le8 x.occupancy.code ++ leFlag x.deviceId.isSome ++
    le32 (x.deviceId.getD 0).toNat ++ le8 x.level ++ le8 x.timeouts ++ le8 ((x.faultCause.map FaultCause.code).getD 0) ++
    leFlag x.released ++ le8 x.phase.code ++ le8 (x.reservation.getD 0) ++
    le8 (min 255 (queuedWhere (fun e => decide (e.slot? = some a)) s).length) ++ le8 (inFlightWith a s)

/-- SLOT_STATUS, kind H'34 (R127). -/
def takeSlotStatus (body : List Byte) (s : State) : Answer :=
  match toIndex 256 (field8 body 0) with
  | none => refuse s .noObject
  | some a =>
    match s.rackOf a, s.slots[a] with
    | some r, some x =>
      match s.racks[r] with
      | some w => (s, .okWith (slotFields a r w x s))
      | none => refuse s .noObject
    | _, _ => refuse s .noObject

/-- A FAULT slot is cleared to PROBING and its PROBE requested (R128). -/
def clearFault (a : SlotAddr) (s : State) : State :=
  let s1 := match (s.slots[a].bind Slot.deviceId).bind s.device? with
    | some d => if d.state = DeviceState.docked then s.modDevice d.id Device.unseen else s
    | none => s
  ask (.probe a) (s1.modSlot a (fun x =>
    { x with occupancy := .probing, deviceId := none, faultCause := none, level := 0, timeouts := 0 }))

/-- SLOT_CLEAR_FAULT, kind H'35 (R128). -/
def takeSlotClearFault (body : List Byte) (s : State) : Answer :=
  match toIndex 256 (field8 body 0) with
  | none => refuse s .noObject
  | some a =>
    match s.slots[a] with
    | none => refuse s .noObject
    | some x => if x.occupancy ≠ .fault then refuse s .wrongState else (clearFault a s, .okWith [])

def execRackDefine (tag : Byte) (body : List Byte) (s : State) : Host.Outcome State Fault Refusal :=
  .next (submit 0x30 rackDefineLength takeRackDefine tag body s)

def execRackRemove (tag : Byte) (body : List Byte) (s : State) : Host.Outcome State Fault Refusal :=
  .next (submit 0x31 (exactly 1) takeRackRemove tag body s)

def execSlotStatus (tag : Byte) (body : List Byte) (s : State) : Host.Outcome State Fault Refusal :=
  .next (submit 0x34 (exactly 1) takeSlotStatus tag body s)

def execSlotClearFault (tag : Byte) (body : List Byte) (s : State) : Host.Outcome State Fault Refusal :=
  .next (submit 0x35 (exactly 1) takeSlotClearFault tag body s)

end Sys2Proof.Machine
end

