-- ==== Sys2Proof/Machine/Events.lean ====
section
/-! DEFINITION. The five requests of the event unit (10.3). -/

namespace Sys2Proof.Machine

/-- The kinds a request names: one kind, or every kind for 255 (10.3). -/
def namedKinds (n : Nat) : Option (List EventId) :=
  if n = 255 then some (List.finRange 25) else (toIndex 25 n).map (fun k => [k])

/-- The reply fields of EVENT_READ with a kind (R167). -/
def eventFields (k : EventId) (s : State) : List Byte :=
  let e := s.events[k]
  let l : LatestRecord := e.latest.getD { object := 0, detail := 0, count := 0, byRequest := false }
  le8 k.val ++ leFlag e.raw ++ leFlag e.enable ++ leFlag (isLevelKind k) ++ leFlag (levelCondition k s) ++ le8 e.repeats ++
    leFlag e.latest.isSome ++ le16 l.object ++ le32 l.detail.toNat ++ le32 l.count.toNat ++ leFlag l.byRequest

/-- The body of EVENT_READ is empty or one byte (R167). -/
def eventReadLength (body : List Byte) : Bool := decide (body.length ≤ 1)

/-- EVENT_READ, kind H'48 (R167). -/
def takeEventRead (body : List Byte) (s : State) : Answer :=
  if body = [] then (s, .okWith (le32 (rawFlags s) ++ le32 (enableFlags s)))
  else match toIndex 25 (field8 body 0) with
    | none => refuse s .noObject
    | some k => (s, .okWith (eventFields k s))

/-- One kind's part in EVENT_CLEAR: a level kind whose condition holds is kept, and a kind whose raw is clear is left as it
is (R168). -/
def clearKind (k : EventId) (s : State) : State :=
  if levelCondition k s = true ∨ (s.events[k]).raw = false then s
  else s.setEvent k { s.events[k] with raw := false, repeats := 0 }

/-- EVENT_CLEAR, kind H'49 (R168). -/
def takeEventClear (body : List Byte) (s : State) : Answer :=
  match namedKinds (field8 body 0) with
  | none => refuse s .noObject
  | some ks =>
    let s1 := forEach ks clearKind s
    (s1, .okWith (match ks with
      | [k] => le8 k.val ++ leFlag s1.events[k].raw
      | _ => le32 (rawFlags s1)))

/-- The body of EVENT_SET is 1 byte or 7 (R169). -/
def eventSetLength (body : List Byte) : Bool := decide (body.length = 1 ∨ body.length = 7)

/-- EVENT_SET, kind H'4A (R169): a raise in the event unit alone, with by_request set. -/
def takeEventSet (body : List Byte) (s : State) : Answer :=
  match toIndex 25 (field8 body 0) with
  | none => refuse s .noObject
  | some k =>
    let s1 := raiseKind k (field16 body 1) (BitVec.ofNat 32 (field32 body 3)) true s
    (s1, .okWith (le8 k.val ++ le8 s1.events[k].repeats))

/-- One kind's part in EVENT_ENABLE (R170). -/
def enableKind (k : EventId) (s : State) : State :=
  let e := s.events[k]
  if e.enable then s
  else
    let s1 := s.setEvent k { e with enable := true }
    if e.raw then offerNotice k s1 else s1

/-- EVENT_ENABLE, kind H'4B (R170). -/
def takeEventEnable (body : List Byte) (s : State) : Answer :=
  match namedKinds (field8 body 0) with
  | none => refuse s .noObject
  | some ks =>
    let s1 := forEach ks enableKind s
    (s1, .okWith (match ks with
      | [k] => le8 k.val ++ leFlag s1.events[k].raw
      | _ => le32 (enableFlags s1)))

/-- One kind's part in EVENT_DISABLE (R171). -/
def disableKind (k : EventId) (s : State) : State := s.setEvent k { s.events[k] with enable := false }

/-- EVENT_DISABLE, kind H'4C (R171). -/
def takeEventDisable (body : List Byte) (s : State) : Answer :=
  match namedKinds (field8 body 0) with
  | none => refuse s .noObject
  | some ks =>
    let s1 := forEach ks disableKind s
    (s1, .okWith (match ks with
      | [k] => le8 k.val
      | _ => le32 (enableFlags s1)))

def execEventRead (tag : Byte) (body : List Byte) (s : State) : Host.Outcome State Fault Refusal :=
  .next (submit 0x48 eventReadLength takeEventRead tag body s)

def execEventClear (tag : Byte) (body : List Byte) (s : State) : Host.Outcome State Fault Refusal :=
  .next (submit 0x49 (exactly 1) takeEventClear tag body s)

def execEventSet (tag : Byte) (body : List Byte) (s : State) : Host.Outcome State Fault Refusal :=
  .next (submit 0x4A eventSetLength takeEventSet tag body s)

def execEventEnable (tag : Byte) (body : List Byte) (s : State) : Host.Outcome State Fault Refusal :=
  .next (submit 0x4B (exactly 1) takeEventEnable tag body s)

def execEventDisable (tag : Byte) (body : List Byte) (s : State) : Host.Outcome State Fault Refusal :=
  .next (submit 0x4C (exactly 1) takeEventDisable tag body s)

end Sys2Proof.Machine
end

