-- ==== Sys2Proof/Machine/Operands.lean ====
section
/-! DEFINITION. The host request kinds by their codes: the body lengths each allows and the owner's work on it, as REQUEST_SERVICE
judges and passes them (R9). Each owner's work is defined in its block's own file. -/

namespace Sys2Proof.Machine

/-- The request kinds the part assigns (R9, and each owner's chapter). -/
inductive RequestKind where
  | identify
  | softReset
  | airStart
  | airStop
  | airStatus
  | sourceConfig
  | sourceMode
  | sourceMute
  | sourceStatus
  | sourceLolSet
  | channelStage
  | channelApply
  | channelClose
  | channelStatus
  | noticePost
  | noticeCancel
  | noticeStatus
  | schedConfig
  | poolStatus
  | rackDefine
  | rackRemove
  | rackBudget
  | chargeConfig
  | slotStatus
  | slotClearFault
  | deviceRead
  | deviceForget
  | groupOpen
  | groupClose
  | groupStatus
  | issue
  | issueCancel
  | issueStatus
  | eventRead
  | eventClear
  | eventSet
  | eventEnable
  | eventDisable
deriving DecidableEq, Repr

/-- The kinds in the order of their codes. -/
def allRequestKinds : List RequestKind :=
  [.identify, .softReset, .airStart, .airStop, .airStatus, .sourceConfig, .sourceMode, .sourceMute, .sourceStatus,
   .sourceLolSet, .channelStage, .channelApply, .channelClose, .channelStatus, .noticePost, .noticeCancel, .noticeStatus,
   .schedConfig, .poolStatus] ++
  [.rackDefine, .rackRemove, .rackBudget, .chargeConfig, .slotStatus, .slotClearFault, .deviceRead, .deviceForget, .groupOpen,
   .groupClose, .groupStatus, .issue, .issueCancel, .issueStatus, .eventRead, .eventClear, .eventSet, .eventEnable,
   .eventDisable]

/-- The kind code of a request. -/
def RequestKind.code : RequestKind → Byte
  | .identify => 0x01
  | .softReset => 0x02
  | .airStart => 0x08
  | .airStop => 0x09
  | .airStatus => 0x0A
  | .sourceConfig => 0x10
  | .sourceMode => 0x11
  | .sourceMute => 0x12
  | .sourceStatus => 0x13
  | .sourceLolSet => 0x14
  | .channelStage => 0x18
  | .channelApply => 0x19
  | .channelClose => 0x1A
  | .channelStatus => 0x1B
  | .noticePost => 0x20
  | .noticeCancel => 0x21
  | .noticeStatus => 0x22
  | .schedConfig => 0x23
  | .poolStatus => 0x25
  | .rackDefine => 0x30
  | .rackRemove => 0x31
  | .rackBudget => 0x32
  | .chargeConfig => 0x33
  | .slotStatus => 0x34
  | .slotClearFault => 0x35
  | .deviceRead => 0x38
  | .deviceForget => 0x39
  | .groupOpen => 0x3C
  | .groupClose => 0x3D
  | .groupStatus => 0x3E
  | .issue => 0x40
  | .issueCancel => 0x41
  | .issueStatus => 0x42
  | .eventRead => 0x48
  | .eventClear => 0x49
  | .eventSet => 0x4A
  | .eventEnable => 0x4B
  | .eventDisable => 0x4C

/-- The request kind with this code, if the part assigns one (R9). -/
def requestKindOf (code : Byte) : Option RequestKind := allRequestKinds.find? (fun k => k.code = code)

/-- The body lengths a request's description allows (R9). -/
def RequestKind.lengthOk : RequestKind → List Byte → Bool
  | .identify => exactly 0
  | .softReset => exactly 0
  | .airStart => exactly 0
  | .airStop => exactly 0
  | .airStatus => exactly 0
  | .sourceConfig => exactly 17
  | .sourceMode => exactly 5
  | .sourceMute => exactly 2
  | .sourceStatus => exactly 1
  | .sourceLolSet => exactly 2
  | .channelStage => channelStageLength
  | .channelApply => exactly 1
  | .channelClose => exactly 1
  | .channelStatus => exactly 1
  | .noticePost => noticePostLength
  | .noticeCancel => exactly 2
  | .noticeStatus => exactly 2
  | .schedConfig => schedConfigLength
  | .poolStatus => poolStatusLength
  | .rackDefine => rackDefineLength
  | .rackRemove => exactly 1
  | .rackBudget => rackBudgetLength
  | .chargeConfig => chargeConfigLength
  | .slotStatus => exactly 1
  | .slotClearFault => exactly 1
  | .deviceRead => deviceReadLength
  | .deviceForget => exactly 4
  | .groupOpen => exactly 2
  | .groupClose => exactly 1
  | .groupStatus => exactly 1
  | .issue => issueLength
  | .issueCancel => exactly 1
  | .issueStatus => exactly 1
  | .eventRead => eventReadLength
  | .eventClear => exactly 1
  | .eventSet => eventSetLength
  | .eventEnable => exactly 1
  | .eventDisable => exactly 1

/-- The owner's work on a request (R9). -/
def RequestKind.take : RequestKind → List Byte → State → Answer
  | .identify => takeIdentify
  | .softReset => takeSoftReset
  | .airStart => takeAirStart
  | .airStop => takeAirStop
  | .airStatus => takeAirStatus
  | .sourceConfig => takeSourceConfig
  | .sourceMode => takeSourceMode
  | .sourceMute => takeSourceMute
  | .sourceStatus => takeSourceStatus
  | .sourceLolSet => takeSourceLolSet
  | .channelStage => takeChannelStage
  | .channelApply => takeChannelApply
  | .channelClose => takeChannelClose
  | .channelStatus => takeChannelStatus
  | .noticePost => takeNoticePost
  | .noticeCancel => takeNoticeCancel
  | .noticeStatus => takeNoticeStatus
  | .schedConfig => takeSchedConfig
  | .poolStatus => takePoolStatus
  | .rackDefine => takeRackDefine
  | .rackRemove => takeRackRemove
  | .rackBudget => takeRackBudget
  | .chargeConfig => takeChargeConfig
  | .slotStatus => takeSlotStatus
  | .slotClearFault => takeSlotClearFault
  | .deviceRead => takeDeviceRead
  | .deviceForget => takeDeviceForget
  | .groupOpen => takeGroupOpen
  | .groupClose => takeGroupClose
  | .groupStatus => takeGroupStatus
  | .issue => takeIssue
  | .issueCancel => takeIssueCancel
  | .issueStatus => takeIssueStatus
  | .eventRead => takeEventRead
  | .eventClear => takeEventClear
  | .eventSet => takeEventSet
  | .eventEnable => takeEventEnable
  | .eventDisable => takeEventDisable

end Sys2Proof.Machine
end

