-- ==== Sys2Proof/Machine/Service.lean ====
section
/-! DEFINITION. REQUEST_SERVICE (R9), and the two resets: HARD_RESET and SOFT_RESET_PERFORM, every block at the values its
chapter states. -/

namespace Sys2Proof.Machine

/-! ## Service of the request queue -/

/-- What becomes of a request in service: BAD_KIND, BAD_LENGTH, or its owner's answer (R9). -/
def answerFrame (f : Frame) (s : State) : Answer :=
  match requestKindOf f.kind with
  | none => refuse s .badKind
  | some k => judged k.lengthOk k.take f.body s

/-- REQUEST_SERVICE: the head of the request queue is served, and leaves it, when the link may serve (R9). -/
def execRequestService (s : State) : Host.Outcome State Fault Refusal :=
  match s.link.requests with
  | [] => .next s
  | f :: rest =>
    if canServe s then
      let s1 := serveWith f.kind f.tag (answerFrame f) s
      .next { s1 with link := { s1.link with requests := rest } }
    else .next s

/-! ## The hard reset -/

/-- The line rate the straps select; both high selects 115200 baud (R1). -/
def rateOf (rate1 rate0 : Bool) : LineRate :=
  match rate1, rate0 with
  | false, false => .b115200
  | false, true => .b460800
  | true, false => .b921600
  | true, true => .b115200

/-- HARD_RESET: every block takes its hard-reset values, and STARTED with cause HARD is queued (R1, R13, R16). The commands
still waiting outside the part stay. -/
def execHardReset (rate1 rate0 ready : Bool) (s : State) : Host.Outcome State Fault Refusal :=
  .next { State.hardReset (rateOf rate1 rate0) ready with pending := s.pending }

/-! ## The soft reset -/

/-- A source after a soft reset: OFF as R49 states with lol 0; muted, line, mode, f_fixed and settings kept (R73). -/
def Source.softReset (x : Source) : Source := { x.rested .off with lol := 0 }

/-- A channel after a soft reset: bound_groups kept (R92). -/
def Channel.softReset (ch : Channel) : Channel := { Channel.initial with boundGroups := ch.boundGroups }

/-- A window after a soft reset, with its account emptied and its budget kept (R129, R144). -/
def RackWindow.softReset (w : RackWindow) : RackWindow := newWindow w.base w.size w.settle w.budget

/-- A device record after a soft reset (R163). -/
def Device.softReset (d : Device) : Device :=
  { d with state := if d.state = .docked then .unseen else d.state, slot := none,
           clearState := if d.clearState = .queued then .owed else d.clearState }

/-- A group after a soft reset (R163). -/
def Group.softReset (g : Group) : Group := { g with issueHandle := none, lastIssue := none }

/-- A roster entry after a soft reset (R151, R163). -/
def RosterEntry.softReset : RosterEntry → RosterEntry
  | .free => .free
  | .held _ => .free
  | .bound id => .bound id

/-- An event kind after a soft reset: the enable flag kept (R172). -/
def EventKindState.softReset (e : EventKindState) : EventKindState := { EventKindState.initial with enable := e.enable }

/-- The link controller after a soft reset: the rate kept, both queues emptied, STARTED with cause SOFT added (R15, R16). -/
def Link.softReset (l : Link) : Link :=
  { rate := l.rate, rx := .hunt, under := none, gapTimer := false, requests := [],
    outbound := [.frame (startedNotice 2 l.rate)], resetPending := false }

/-- The air timer after a soft reset (R24, R29). -/
def airSoftReset (ready : Bool) : Air :=
  { running := false, count := 0, stopPending := false, stopAt := 0, ready := ready, image := imageEmpty, lastBuild := none,
    lastStop := .softReset, due := 0, lineTaken0 := false, lineTaken1 := false }

/-- The same change of every object of a fixed number. -/
def mapAll {α : Type} {n : Nat} (f : α → α) (v : Vector α n) : Vector α n :=
  (List.finRange n).foldl (fun (w : Vector α n) (i : Fin n) => w.set i (f w[i])) v

/-- The soft reset in every block (R15, R29, R48, R73, R92, R113, R129, R144, R163, R172); then the SCANs of R129. -/
def softReset (s : State) : State :=
  scanAll { s with
    link := s.link.softReset, air := airSoftReset s.pins.readyLine, pool := .initial, sources := mapAll Source.softReset s.sources,
    channels := mapAll Channel.softReset s.channels, sched := { Scheduler.initial with lateLimit := s.sched.lateLimit },
    racks := mapAll (Option.map RackWindow.softReset) s.racks, slots := mapAll (Option.map (fun _ => Slot.initial)) s.slots,
    bus := .idle s.bus.number, devices := s.devices.map Device.softReset, groups := mapAll Group.softReset s.groups, ops := [],
    roster := mapAll RosterEntry.softReset s.roster, events := mapAll EventKindState.softReset s.events,
    pins := { s.pins with frameStrobe := false, dataOut := [] } }

/-- SOFT_RESET_PERFORM: with a reset pending, once the OK reply, the last entry added, has left the outbound queue (R15). -/
def execSoftResetPerform (s : State) : Host.Outcome State Fault Refusal :=
  .next (if s.link.resetPending = true ∧ s.link.outbound = [] then softReset s else s)

end Sys2Proof.Machine
end

