-- ==== Sys2Proof/Machine/Dispatch.lean ====
section
/-! DEFINITION. One arm per command: the direct call of its meaning. -/

namespace Sys2Proof.Machine

def exec (i : Instr) (s : State) : Host.Outcome State Fault Refusal :=
  match i with
  | .hardReset rate1 rate0 ready => Sys2Proof.Machine.execHardReset rate1 rate0 ready s
  | .frameReceive chars => Sys2Proof.Machine.execFrameReceive chars s
  | .gapExpiry => Sys2Proof.Machine.execGapExpiry s
  | .requestService => Sys2Proof.Machine.execRequestService s
  | .frameTransmitted => Sys2Proof.Machine.execFrameTransmitted s
  | .softResetPerform => Sys2Proof.Machine.execSoftResetPerform s
  | .identify tag body => Sys2Proof.Machine.execIdentify tag body s
  | .softReset tag body => Sys2Proof.Machine.execSoftReset tag body s
  | .superframeStart => Sys2Proof.Machine.execSuperframeStart s
  | .downlinkSlot slot => Sys2Proof.Machine.execDownlinkSlot slot s
  | .uplinkBlockDelivery slot bytes checkGood => Sys2Proof.Machine.execUplinkBlockDelivery slot bytes checkGood s
  | .lineBlockDelivery line samples => Sys2Proof.Machine.execLineBlockDelivery line samples s
  | .outputMark order => Sys2Proof.Machine.execOutputMark order s
  | .reviewMark order => Sys2Proof.Machine.execReviewMark order s
  | .buildMark order => Sys2Proof.Machine.execBuildMark order s
  | .readyLineFall order => Sys2Proof.Machine.execReadyLineFall order s
  | .readyLineRise => Sys2Proof.Machine.execReadyLineRise s
  | .airStart tag body => Sys2Proof.Machine.execAirStart tag body s
  | .airStop tag body => Sys2Proof.Machine.execAirStop tag body s
  | .airStatus tag body => Sys2Proof.Machine.execAirStatus tag body s
  | .poolStatus tag body => Sys2Proof.Machine.execPoolStatus tag body s
  | .sourceConfig tag body => Sys2Proof.Machine.execSourceConfig tag body s
  | .sourceMode tag body => Sys2Proof.Machine.execSourceMode tag body s
  | .sourceMute tag body => Sys2Proof.Machine.execSourceMute tag body s
  | .sourceStatus tag body => Sys2Proof.Machine.execSourceStatus tag body s
  | .sourceLolSet tag body => Sys2Proof.Machine.execSourceLolSet tag body s
  | .channelStage tag body => Sys2Proof.Machine.execChannelStage tag body s
  | .channelApply tag body => Sys2Proof.Machine.execChannelApply tag body s
  | .channelClose tag body => Sys2Proof.Machine.execChannelClose tag body s
  | .channelStatus tag body => Sys2Proof.Machine.execChannelStatus tag body s
  | .noticePost tag body => Sys2Proof.Machine.execNoticePost tag body s
  | .noticeCancel tag body => Sys2Proof.Machine.execNoticeCancel tag body s
  | .noticeStatus tag body => Sys2Proof.Machine.execNoticeStatus tag body s
  | .schedConfig tag body => Sys2Proof.Machine.execSchedConfig tag body s
  | .rackDefine tag body => Sys2Proof.Machine.execRackDefine tag body s
  | .rackRemove tag body => Sys2Proof.Machine.execRackRemove tag body s
  | .exchangeStart => Sys2Proof.Machine.execExchangeStart s
  | .exchangeAnswer bytes => Sys2Proof.Machine.execExchangeAnswer bytes s
  | .exchangeComplete => Sys2Proof.Machine.execExchangeComplete s
  | .exchangeTimeout => Sys2Proof.Machine.execExchangeTimeout s
  | .scanTimerExpiry rack => Sys2Proof.Machine.execScanTimerExpiry rack s
  | .attentionFall => Sys2Proof.Machine.execAttentionFall s
  | .slotStatus tag body => Sys2Proof.Machine.execSlotStatus tag body s
  | .slotClearFault tag body => Sys2Proof.Machine.execSlotClearFault tag body s
  | .pollTimerExpiry slot => Sys2Proof.Machine.execPollTimerExpiry slot s
  | .rackBudget tag body => Sys2Proof.Machine.execRackBudget tag body s
  | .chargeConfig tag body => Sys2Proof.Machine.execChargeConfig tag body s
  | .deviceRead tag body => Sys2Proof.Machine.execDeviceRead tag body s
  | .deviceForget tag body => Sys2Proof.Machine.execDeviceForget tag body s
  | .groupOpen tag body => Sys2Proof.Machine.execGroupOpen tag body s
  | .groupClose tag body => Sys2Proof.Machine.execGroupClose tag body s
  | .groupStatus tag body => Sys2Proof.Machine.execGroupStatus tag body s
  | .issue tag body => Sys2Proof.Machine.execIssue tag body s
  | .issueCancel tag body => Sys2Proof.Machine.execIssueCancel tag body s
  | .issueStatus tag body => Sys2Proof.Machine.execIssueStatus tag body s
  | .eventRead tag body => Sys2Proof.Machine.execEventRead tag body s
  | .eventClear tag body => Sys2Proof.Machine.execEventClear tag body s
  | .eventSet tag body => Sys2Proof.Machine.execEventSet tag body s
  | .eventEnable tag body => Sys2Proof.Machine.execEventEnable tag body s
  | .eventDisable tag body => Sys2Proof.Machine.execEventDisable tag body s

end Sys2Proof.Machine
end

