-- ==== Sys2Proof/Safety.lean ====
section
/-! DEFINITION. What a sound state of the part is, block by block, in the terms the claims use; when the link serves a request
at once; and what a reply adds to the state. -/

namespace Sys2Proof.Machine

/-! ## The link (chapter 1) -/

/-- The link controller between two commands: at most four requests and 32 outbound entries (1.4, R7), no entry left reserved
(R9; that no state between two steps has one is the model's choice, assumption 23), a frame under reception and a running gap timer
exactly outside HUNT (R2, R6, R16). -/
def LinkSound (l : Link) : Prop :=
  l.requests.length ≤ 4 ∧ l.outbound.length ≤ 32 ∧ OutEntry.reserved ∉ l.outbound ∧
    (l.rx = .hunt ↔ l.under = none) ∧ (l.gapTimer = true ↔ l.rx ≠ .hunt)

/-- A request whose frame completes now is served at once (R9, assumption 2): no other waits, the occupancy is below 28, no
reset is pending, and no entry stands reserved. -/
def ServesNow (s : State) : Prop :=
  s.link.requests = [] ∧ s.link.outbound.length < 28 ∧ s.link.resetPending = false ∧ OutEntry.reserved ∉ s.link.outbound

/-- The state with the reply to a request of this kind and tag at the tail of the outbound queue, and nothing else changed
(R7, R9, R10). -/
def replied (kind tag status : Byte) (fields : List Byte) (s : State) : State :=
  { s with link := { s.link with
      outbound := s.link.outbound ++ [.frame { kind := kind + 0x80, tag := tag, body := status :: fields }] } }

/-- The characters of a frame on the host link, each with a good stop bit (R1, R173). -/
def Frame.chars (f : Frame) : List RxChar := f.bytes.map (fun b => { byte := b, framingError := false })

/-! ## Sources (chapters 3 and 4) -/

/-- A signed value within a band about 0. -/
def Within (b x : Int) : Prop := -b ≤ x ∧ x ≤ b

/-- The settings lie in the ranges of R66. -/
def SettingsSound (c : SourceSettings) : Prop :=
  (160 ≤ c.targetFill ∧ c.targetFill ≤ 800) ∧ (4 ≤ c.biAcq ∧ c.biAcq ≤ 20) ∧ (4 ≤ c.biTrk ∧ c.biTrk ≤ 20) ∧
    (4 ≤ c.bpAcq ∧ c.bpAcq ≤ 20) ∧ (4 ≤ c.bpTrk ∧ c.bpTrk ≤ 20) ∧ (1 ≤ c.slopeLimit ∧ c.slopeLimit ≤ 4096) ∧
    (1 ≤ c.lockThreshold ∧ c.lockThreshold ≤ 64) ∧ (2 ≤ c.lockTimer ∧ c.lockTimer ≤ 2000 ∧ c.lockTimer % 2 = 0) ∧
    c.historyDepth ≤ 8 ∧ (1 ≤ c.reacquireLimit ∧ c.reacquireLimit ≤ 255) ∧
    (10 ≤ c.lostLimit ∧ c.lostLimit ≤ 3000 ∧ c.reacquireLimit + 1 ≤ c.lostLimit) ∧ c.lolThreshold ≤ 15

/-- A source's numbers lie in the ranges of chapter 4's table (R57). -/
def NumbersSound (x : Source) : Prop :=
  Within 8192 x.f ∧ Within 65535 x.acc ∧ Within 65535 x.r ∧ Within 8192 x.fFixed ∧ (∀ h ∈ x.history, Within 8192 h) ∧
    x.history.length ≤ 8 ∧ x.historyCounter ≤ 99 ∧ x.lol ≤ 15 ∧ x.run ≤ 65535 ∧ x.age ≤ 3000 ∧ SettingsSound x.settings

/-- An elastic buffer as R42 lays it out: at most 1024 samples, no cell while it holds none, and as many cells as the samples
from the head cell's start reach into. -/
def BufferSound (b : Buffer) : Prop :=
  b.samples.length ≤ 1024 ∧ b.readOffset ≤ 31 ∧ b.chain.length = (b.readOffset + b.samples.length + 31) / 32 ∧
    (b.samples = [] → b.readOffset = 0)

/-- A source: its numbers, its buffer, and neither a cell nor an output block held in OFF or WAITING (R46, R49). -/
def SourceSound (x : Source) : Prop :=
  NumbersSound x ∧ BufferSound x.buffer ∧
    (x.state = .off ∨ x.state = .waiting → x.buffer = .empty ∧ x.block = .none ∧ x.blockArrived = false)

/-- Every source is sound. -/
def SourcesSound (s : State) : Prop := ∀ k : SourceId, SourceSound s.sources[k]

/-! ## The cell store and the notices (chapters 3 and 6) -/

/-- The cells of the free list, of every elastic buffer and of every notice record, one after another. -/
def allCells (s : State) : List CellId :=
  s.pool.freeList ++ (List.finRange 14).flatMap (fun k => s.sources[k].buffer.chain) ++ s.sched.records.flatMap NoticeRecord.cells

/-- Every cell has exactly one owner (R36). -/
def CellsSound (s : State) : Prop := (allCells s).Perm (List.finRange 512)

/-- A notice record's repeats, interval, payload and cells (chapter 6's table). -/
def NoticeSound (n : NoticeRecord) : Prop :=
  (1 ≤ n.handle ∧ n.handle ≤ 65535) ∧ (1 ≤ n.repeatsRemaining ∧ n.repeatsRemaining ≤ 15) ∧ (1 ≤ n.interval ∧ n.interval ≤ 255) ∧
    n.transmissions + n.repeatsRemaining ≤ 15 ∧ n.cells.length = cellsNeeded n.payload.length

/-- The notice table and its queues (R93): at most 64 records, no handle twice, every record in the queue its class names. -/
def NoticesSound (n : Scheduler) : Prop :=
  n.records.length ≤ 64 ∧ (n.records.map NoticeRecord.handle).Nodup ∧ (∀ r ∈ n.records, NoticeSound r) ∧
    n.urgent.Perm ((n.records.filter (fun r => r.cls = .urgent)).map NoticeRecord.handle) ∧
    n.routine.Perm ((n.records.filter (fun r => r.cls = .routine)).map NoticeRecord.handle) ∧
    (1 ≤ n.nextHandle ∧ n.nextHandle ≤ 65535) ∧ (1 ≤ n.lateLimit ∧ n.lateLimit ≤ 255) ∧ n.lateCounter ≤ 254

/-! ## Channels and groups (chapters 5 and 9) -/

/-- A plan (chapter 5): one to four sources, none twice, and its revert_wait. -/
def PlanSound (p : Plan) : Prop :=
  1 ≤ p.sources.length ∧ p.sources.length ≤ 4 ∧ p.sources.Nodup ∧ 1 ≤ p.revertWait ∧ p.revertWait ≤ 1000 ∧ p.switchDelay ≤ 255

/-- A channel (R74): the active source of a LIVE or BRIDGING channel is a member of its live list; a CLOSED or SILENT channel
has none; a live plan exactly outside CLOSED; a pending apply has its staged plan. -/
def ChannelSound (ch : Channel) : Prop :=
  (ch.state = .closed ↔ ch.livePlan = none) ∧
    (ch.state = .closed ∨ ch.state = .silent → ch.activeSource = none) ∧
    (ch.state = .live ∨ ch.state = .bridging → ∃ k ∈ ch.activeSource, k ∈ ch.liveSources) ∧
    (ch.applyPending = true → ch.stagedPlan ≠ none) ∧
    (∀ p ∈ ch.livePlan, PlanSound p) ∧ ∀ p ∈ ch.stagedPlan, PlanSound p

/-- Every channel is sound, and while the air is stopped each is CLOSED or SILENT with no apply pending (R74, R85, R90). -/
def ChannelsSound (s : State) : Prop :=
  (∀ c : ChannelId, ChannelSound s.channels[c]) ∧
    (s.air.running = false →
      ∀ c : ChannelId, (s.channels[c].state = .closed ∨ s.channels[c].state = .silent) ∧ s.channels[c].applyPending = false)

/-- The number of groups on a channel. -/
def groupsOn (c : ChannelId) (s : State) : Nat :=
  ((List.finRange 24).filter (fun g => decide (s.groups[g].channel = some c))).length

/-- bound_groups counts the groups whose channel it is (R87), and a group has a channel unless FREE (9.2). -/
def BindingsSound (s : State) : Prop :=
  (∀ c : ChannelId, s.channels[c].boundGroups = groupsOn c s) ∧ ∀ g : GroupId, s.groups[g].state = .free ↔ s.groups[g].channel = none

/-! ## The event unit (chapter 10) -/

/-- A kind's repeats are at most 255 and are 0 while raw is clear, and raw is set only with a latest record (R164, R168). -/
def EventsSound (s : State) : Prop :=
  ∀ k : EventId, (s.events[k]).repeats ≤ 255 ∧ ((s.events[k]).raw = false → (s.events[k]).repeats = 0) ∧
    ((s.events[k]).raw = true → (s.events[k]).latest ≠ none)

/-! ## The air (chapter 2) -/

/-- The air timer: a stop is pending only while the air runs (R24, R26), the image is empty while it is stopped (R24, R29), and
the superframe's place lies within its parts (2.1). -/
def AirSound (a : Air) : Prop :=
  (a.stopPending = true → a.running = true) ∧ (a.running = false → a.image = imageEmpty) ∧ a.due ≤ 39

/-! ## The host requests -/

/-- A request body of exactly these many bytes. -/
def bodyOf (n : Nat) (body : List Byte) : Bool := decide (body.length = n)

/-- The host requests by kind code, with the command each one is and the body lengths its description allows (R9, R173). -/
def requestTable : List (Byte × (Byte → List Byte → Instr) × (List Byte → Bool)) :=
  [(0x01, .identify, bodyOf 0), (0x02, .softReset, bodyOf 0), (0x08, .airStart, bodyOf 0), (0x09, .airStop, bodyOf 0),
   (0x0A, .airStatus, bodyOf 0), (0x10, .sourceConfig, bodyOf 17), (0x11, .sourceMode, bodyOf 5), (0x12, .sourceMute, bodyOf 2),
   (0x13, .sourceStatus, bodyOf 1), (0x14, .sourceLolSet, bodyOf 2),
   (0x18, .channelStage, fun b => decide (b.length = 13 ∨ b.length = 9)), (0x19, .channelApply, bodyOf 1),
   (0x1A, .channelClose, bodyOf 1), (0x1B, .channelStatus, bodyOf 1),
   (0x20, .noticePost, fun b => decide (13 ≤ b.length ∧ b.length = 13 + (b.getD 12 0).toNat)), (0x21, .noticeCancel, bodyOf 2),
   (0x22, .noticeStatus, bodyOf 2), (0x23, .schedConfig, fun b => decide (b.length ≤ 1)),
   (0x25, .poolStatus, fun b => decide (b.length ≤ 1))] ++
  [(0x30, .rackDefine, fun b => decide (b.length = 4 ∨ b.length = 6)), (0x31, .rackRemove, bodyOf 1),
   (0x32, .rackBudget, fun b => decide (b.length = 1 ∨ b.length = 3)),
   (0x33, .chargeConfig, fun b => decide (b.length = 0 ∨ b.length = 5)), (0x34, .slotStatus, bodyOf 1),
   (0x35, .slotClearFault, bodyOf 1), (0x38, .deviceRead, fun b => decide (b.length = 4 ∨ b.length = 2)),
   (0x39, .deviceForget, bodyOf 4), (0x3C, .groupOpen, bodyOf 2), (0x3D, .groupClose, bodyOf 1), (0x3E, .groupStatus, bodyOf 1),
   (0x40, .issue, fun b => decide (b.length = 4 ∨ b.length = 5)), (0x41, .issueCancel, bodyOf 1), (0x42, .issueStatus, bodyOf 1),
   (0x48, .eventRead, fun b => decide (b.length ≤ 1)), (0x49, .eventClear, bodyOf 1),
   (0x4A, .eventSet, fun b => decide (b.length = 1 ∨ b.length = 7)), (0x4B, .eventEnable, bodyOf 1),
   (0x4C, .eventDisable, bodyOf 1)]

/-- The condition of a level kind as it stands (R165): kind 4 while some source's lol is above its threshold, kind 11 while fewer
than 64 cells are free. -/
abbrev ConditionHolds (k : EventId) (s : State) : Prop :=
  (k = 4 ∧ ∃ j : SourceId, s.sources[j].settings.lolThreshold < s.sources[j].lol) ∨ (k = 11 ∧ s.pool.freeList.length < 64)

/-- The sum of 2^k over the kinds whose flag is set (R167). -/
def sumOfKinds (flag : EventKindState → Bool) (s : State) : Nat := ∑ k : EventId, if flag (s.events[k]) then 2 ^ k.val else 0

/-! ## The air, in the terms of chapter 2 -/

/-- Channel c's line in the beacon (R23): closed with three zero bytes, or open with its live plan's language. -/
def beaconOf (s : State) (c : ChannelId) : BeaconLine :=
  let ch := s.channels[c]
  let zero : Language := { first := 0, second := 0, third := 0 }
  if ch.state = .closed then { isOpen := false, language := zero }
  else { isOpen := true, language := (ch.livePlan.map Plan.language).getD zero }

/-- A roster entry is BOUND. -/
def RosterEntry.isBound : RosterEntry → Bool
  | .bound _ => true
  | .free => false
  | .held _ => false

/-- AIR_START sends source k to WAITING (R25, R50): a line source that is ON, an uplink source whose roster entry is BOUND. -/
abbrev CalledIn (s : State) (k : SourceId) : Prop :=
  (12 ≤ k.val ∧ s.sources[k].line = true) ∨ ∃ e : RosterId, e.val = k.val ∧ (s.roster[e]).isBound = true

/-! ## A source's work, on its record alone (chapter 4) -/

/-- A buffer after its n oldest samples have left it (R45): nothing is left, or the cells emptied are gone from the head. -/
def Buffer.without (b : Buffer) (n : Nat) : Buffer :=
  if b.samples.length ≤ n then { chain := [], readOffset := 0, samples := [] }
  else { chain := b.chain.drop ((b.readOffset + n) / 32), readOffset := (b.readOffset + n) % 32, samples := b.samples.drop n }

/-- The slip decided on acc + r (R59). -/
def slipFor (a : Int) : Int := if 65536 ≤ a then 1 else if a ≤ -65536 then -1 else 0

/-- The number of samples an output asks for: 161, 160 or 159 (R59). -/
def demand (x : Source) : Nat := (160 + slipFor (x.acc + x.r)).toNat

/-- A source after its output (R59, R60, R45), its mark's work ended (R58): acc corrected by the slip; the samples taken; the block
of 160 samples, with the last repeated at a slip of -1, or padded with zeros on an underrun. -/
def produced (x : Source) : Source :=
  let slip := slipFor (x.acc + x.r)
  let n := demand x
  let fill := x.buffer.samples.length
  { x with
    acc := x.acc + x.r - 65536 * slip, buffer := x.buffer.without n, blockArrived := false,
    block := if fill < n then .samples ((x.buffer.samples ++ List.replicate 160 0).take 160) (160 - fill)
      else if slip = -1 then .samples (x.buffer.samples.take 159 ++ (x.buffer.samples.drop 158).take 1) 0
      else .samples (x.buffer.samples.take 160) 0 }

/-- f_hold (R62): the mean of the newest m history values, rounded toward zero, or f. -/
def meanOfHistory (x : Source) : Int :=
  let m := min x.settings.historyDepth x.history.length
  if m = 0 then x.f else ((x.history.reverse.take m).sum).tdiv m

/-- A source as it enters HOLDOVER (R62). -/
def held (x : Source) : Source :=
  { x with state := .holdover, priorState := some (if x.state = .track then .track else .acquire), priorLocked := x.locked,
           locked := false, age := 1, f := meanOfHistory x, r := meanOfHistory x }

/-- x times 2 to the 16 - b, rounded toward negative infinity (4.3). -/
def scaled (x : Int) (b : Nat) : Int := (x * 65536).fdiv (2 ^ b)

/-- A value brought into the band from -b to b (00_scope.md, Numbers). -/
def band (b x : Int) : Int := max (-b) (min b x)

/-- A source after the filter and lock detection, on the fill F that the append left (R54, R55, R57). -/
def tracked (x : Source) (fill : Nat) : Source :=
  let acquiring := decide (x.state = .acquire)
  let e := band 512 ((fill : Int) - x.settings.targetFill)
  let f := band 8192 (x.f + band x.settings.slopeLimit (scaled e (if acquiring then x.settings.biAcq else x.settings.biTrk)))
  let r := band 65535 (f + scaled e (if acquiring then x.settings.bpAcq else x.settings.bpTrk))
  let n := min 65535 (x.run + 1)
  let due := decide (x.settings.lockTimer / 2 ≤ n)
  if |e| ≤ x.settings.lockThreshold then
    if acquiring then { x with f := f, r := r, state := if due then .track else .acquire, run := if due then 0 else n }
    else { x with f := f, r := r, run := n, locked := x.locked || due }
  else { x with f := f, r := r, run := 0, state := .acquire, locked := if acquiring then x.locked else false,
                lol := if acquiring = false ∧ x.locked = true then min 15 (x.lol + 1) else x.lol }

/-- A source in HOLDOVER as its first arrival finds it for the filter (R64 steps 1 and 2). -/
def resumed (x : Source) : Source :=
  let y := { x with age := 0, priorState := none, priorLocked := false }
  if x.age ≤ x.settings.reacquireLimit then
    { y with state := if x.priorState = some .track then .track else .acquire, locked := x.priorLocked }
  else { y with state := .acquire, locked := false, lol := if x.priorLocked then min 15 (x.lol + 1) else x.lol }

/-- A source after an arrival that is not in OFF, on the record x with the samples appended (R34, R51, R52, R54, R55, R64, R65). -/
def arrived (x : Source) : Source :=
  let fill := x.buffer.samples.length
  let y := match x.state, x.mode with
    | .waiting, .auto => { x with state := .acquire, prefill := true, f := 0, acc := 0, run := 0, age := 0 }
    | .waiting, .fixed => { x with state := .fixed, prefill := true, f := x.fFixed, r := x.fFixed, acc := 0, run := 0, age := 0 }
    | _, _ => x
  if y.prefill = true ∧ fill < y.settings.targetFill then { y with age := 0 }
  else match y.state with
    | .fixed => { y with prefill := false, age := 0, r := if y.prefill then y.fFixed else y.r }
    | .holdover => tracked (resumed y) fill
    | _ => tracked (if y.prefill then { y with prefill := false, age := 0 } else y) fill

/-- A lock is lost at this arrival (R55, R57, R64): in locked TRACK, or of a source whose lock was kept through HOLDOVER, which ends past
the reacquire limit or on a fill that loses the lock at once. -/
abbrev LosesLock (x : Source) : Prop :=
  (x.state = .track ∧ x.locked = true ∧ (arrived x).locked = false) ∨
    (x.state = .holdover ∧ x.priorLocked = true ∧
      (x.settings.reacquireLimit < x.age ∨ (x.priorState = some .track ∧ (arrived x).locked = false)))

/-- A lock is gained at this arrival (R55, R64): in TRACK without lock, or resumed so out of HOLDOVER. -/
abbrev GainsLock (x : Source) : Prop :=
  ((x.state = .track ∧ x.locked = false) ∨
    (x.state = .holdover ∧ x.age ≤ x.settings.reacquireLimit ∧ x.priorState = some .track ∧ x.priorLocked = false)) ∧
    (arrived x).locked = true

/-! ## What an OUTPUT mark reports -/

/-- The samples that a source's output lacks at a mark (R60), where that output raises ELASTIC_UNDERRUN: in ACQUIRE or TRACK with an
arrival, or in FIXED within its lost limit, prefill clear. In HOLDOVER, and where nothing is produced, 0. -/
def shortfall (x : Source) : Nat :=
  if x.blockArrived = true ∧ (x.state = .track ∨ (x.state = .acquire ∧ x.prefill = false)) then demand x - x.buffer.samples.length
  else if x.state = .fixed ∧ x.prefill = false ∧ (x.blockArrived = true ∨ x.age + 1 < x.settings.lostLimit) then
    demand { x with r := x.fFixed } - x.buffer.samples.length
  else 0

/-- A source enters HOLDOVER at a mark (R62). -/
abbrev EntersHoldover (x : Source) : Prop :=
  x.blockArrived = false ∧ (x.state = .track ∨ (x.state = .acquire ∧ x.prefill = false))

/-- The cause with which a source is lost at a mark (R53, R63, R65): 1 in prefill, 2 in HOLDOVER, 3 in FIXED; 0 when it is not lost. -/
def lossCause (x : Source) : Nat :=
  let age := if x.blockArrived then x.age else x.age + 1
  if x.prefill = true ∧ (x.state = .acquire ∨ x.state = .fixed) ∧ x.settings.lostLimit ≤ age then 1
  else if x.state = .holdover ∧ x.settings.lostLimit ≤ x.age + 1 then 2
  else if x.state = .fixed ∧ x.prefill = false ∧ x.blockArrived = false ∧ x.settings.lostLimit ≤ age then 3
  else 0

/-! ## What a review makes of a source (R75) -/

/-- USABLE. -/
abbrev Usable (x : Source) : Prop :=
  x.muted = false ∧ ((x.state = .track ∧ x.locked = true) ∨ (x.state = .fixed ∧ x.prefill = false))

/-- PRODUCING. -/
abbrev Producing (x : Source) : Prop :=
  x.muted = false ∧ x.prefill = false ∧ (x.state = .acquire ∨ (x.state = .track ∧ x.locked = false) ∨ x.state = .holdover)

/-- The first USABLE source of a list in rank order. -/
def bestUsable (l : List SourceId) (s : State) : Option SourceId := l.find? (fun k => decide (Usable s.sources[k]))

/-- A channel that has taken a source (R78, R79, R82, R83). -/
def Channel.taking (ch : Channel) (k : SourceId) : Channel :=
  { ch with state := .live, activeSource := some k, bridgeCount := 0, revertCandidate := none, revertCount := 0,
            switchCount := (ch.switchCount + 1) % 65536 }

/-- Reselection (R79): the first USABLE source of the live list is taken, or the channel falls SILENT. -/
def Channel.reselected (ch : Channel) (best : Option SourceId) : Channel :=
  match best with
  | some k => ch.taking k
  | none => { ch with state := .silent, activeSource := none, bridgeCount := 0, revertCandidate := none, revertCount := 0 }

/-! ## A raise, said whole -/

/-- s after a block's raise (R164, R11, R166): the kind's record and flags, and the EVENT notice when a clear raw of an enabled kind
rises with no reset pending and the occupancy below 24. -/
def reported (k : EventId) (object : Nat) (detail : BitVec 32) (s : State) : State :=
  let e := s.events[k]
  let l : LatestRecord := { object := object, detail := detail, count := s.air.count, byRequest := false }
  let n := if e.raw then min 255 (e.repeats + 1) else e.repeats
  let t := { s with events := s.events.set k { raw := true, enable := e.enable, latest := some l, repeats := n } }
  if e.raw = false ∧ e.enable = true ∧ s.link.resetPending = false ∧ s.link.outbound.length < 24 then
    { t with link := { t.link with outbound := t.link.outbound ++ [.frame
      { kind := 0xE0, tag := 0, body := le8 k.val ++ le16 object ++ le32 detail.toNat ++ le32 s.air.count.toNat ++ [0] }] } }
  else t

/-- A kind is set with this object and detail as its latest raise, made by a block at the state s. -/
abbrev Raised (k : EventId) (object : Nat) (detail : BitVec 32) (s t : State) : Prop :=
  (t.events[k]).raw = true ∧ (t.events[k]).latest =
    some { object := object, detail := detail, count := s.air.count, byRequest := false }

/-- What raises do to the link and to the flags (R11, R164, R166): EVENT notices join the outbound queue's tail and nothing else of the
link changes; each is of an enabled kind whose raw was clear and is set now, one for a kind, none with a reset pending and none past an
occupancy of 24; of every other such kind the notice found no room. No enable changes and no raw is cleared. -/
def NoticesAdded (s t : State) : Prop :=
  (∀ k : EventId, (t.events[k]).enable = (s.events[k]).enable ∧ ((s.events[k]).raw = true → (t.events[k]).raw = true)) ∧
    ∃ l : List (EventId × Nat × BitVec 32),
      t.link = { s.link with outbound := s.link.outbound ++ l.map (fun p => .frame
        { kind := 0xE0, tag := 0, body := le8 p.1.val ++ le16 p.2.1 ++ le32 p.2.2.toNat ++ le32 s.air.count.toNat ++ [0] }) } ∧
      (l.map Prod.fst).Nodup ∧
      (∀ p ∈ l, (s.events[p.1]).raw = false ∧ (s.events[p.1]).enable = true ∧ (t.events[p.1]).raw = true ∧
        s.link.resetPending = false) ∧
      s.link.outbound.length + l.length ≤ max 24 s.link.outbound.length ∧
      ∀ k : EventId, (s.events[k]).raw = false → (s.events[k]).enable = true → (t.events[k]).raw = true →
        s.link.resetPending = false → (∃ p ∈ l, p.1 = k) ∨ 24 ≤ t.link.outbound.length

/-- The cells of the sources' elastic buffers, counted. -/
def bufferCells (s : State) : Nat := ∑ k : SourceId, s.sources[k].buffer.chain.length

/-- Cells go from the elastic buffers back to the free list and none is lent: low_water stays (R36, R41, R45). -/
def CellsReturned (s t : State) : Prop :=
  t.pool.lowWater = s.pool.lowWater ∧ t.pool.freeList.length + bufferCells t = s.pool.freeList.length + bufferCells s

/-- What an arrival moves of the air timer's record: the place, past the uplink block's slot or past the line input's block of this
superframe (R34, R35; the places are the model's choice, assumption 10). -/
def PlaceMoved (c : Instr) (s t : State) : Prop :=
  (∀ (e : RosterId) (bytes : List Byte) (good : Bool), c = .uplinkBlockDelivery e bytes good →
      t.air = { s.air with due := 25 + e.val }) ∧
    ∀ (l : Fin 2) (v : Vector Sample 160), c = .lineBlockDelivery l v →
      t.air = { s.air with lineTaken0 := s.air.lineTaken0 || decide (l = 0), lineTaken1 := s.air.lineTaken1 || decide (l = 1) }

/-- What a mark leaves of an event kind that several sources may raise at it, in any order (R58): the object and the detail of one of
those that raise it, and the record as it was when none does. -/
abbrev ReportedBy (e : EventId) (raises : SourceId → Prop) (detail : SourceId → BitVec 32) (s t : State) : Prop :=
  ((∃ k, raises k) → ∃ k : SourceId, raises k ∧ Raised e k.val (detail k) s t) ∧
    ((∀ k, ¬ raises k) → t.events[e] = s.events[e])

/-- The superframe's block of line input l has come (R35). -/
def lineCame (l : Fin 2) (s : State) : Bool := if l = 0 then s.air.lineTaken0 else s.air.lineTaken1

/-- The command is an arrival of these samples at source k, which is not OFF (R34, R35): an uplink block in its place that passes
every test of R31, or the superframe's block of a line input that is ON. The block's device_id and samples are read low byte first,
an order that the spec does not give for this port (the model's choice, assumption 26), and its slot's place is assumption 10's. -/
def Arrives (c : Instr) (k : SourceId) (sequence : Option Byte) (xs : List Sample) (s : State) : Prop :=
  s.air.running = true ∧ s.sources[k].state ≠ .off ∧
    ((∃ (e : RosterId) (bytes : List Byte), c = .uplinkBlockDelivery e bytes true ∧ k.val = e.val ∧ s.air.due ≤ 24 + e.val ∧
        bytes.length = 6 + 2 * field8 bytes 5 ∧ 152 ≤ field8 bytes 5 ∧ field8 bytes 5 ≤ 168 ∧
        s.roster[e] = .bound (BitVec.ofNat 32 (field32 bytes 0)) ∧ sequence = some (bytes.getD 4 0) ∧
        s.sources[k].lastSequence ≠ sequence ∧
        xs = (List.range (field8 bytes 5)).map (fun i => BitVec.ofNat 16 (field16 bytes (6 + 2 * i)))) ∨
      (∃ (l : Fin 2) (v : Vector Sample 160), c = .lineBlockDelivery l v ∧ k.val = 12 + l.val ∧ s.air.due ≤ 36 ∧
        lineCame l s = false ∧ s.sources[k].line = true ∧ sequence = none ∧ xs = v.toList))

/-- A source after a mode and a fixed rate have been stored (R69). -/
def rated (x : Source) (m : RateMode) (f : Int) : Source :=
  let y := { x with mode := m, fFixed := f }
  let age := if x.prefill then x.age else 0
  if x.state = .off ∨ x.state = .waiting then y
  else if x.state = .fixed then
    if m = .fixed then { y with f := f, r := f } else { y with state := .acquire, locked := false, run := 0, age := age, r := x.f }
  else if m = .fixed then
    { y with state := .fixed, locked := false, run := 0, priorState := none, priorLocked := false, age := age, f := f, r := f }
  else y

/-! ## Notices, in the terms of chapter 6 -/

/-- No notice record holds the handle. -/
abbrev HandleFree (h : Nat) (s : State) : Prop := ∀ n ∈ s.sched.records, n.handle ≠ h

/-- The number after a handle (R94). -/
def nextNumber (h : Nat) : Nat := if h = 65535 then 1 else h + 1

/-- The cells a payload of b bytes needs (R98). -/
def payloadCells (b : Nat) : Nat := if b ≤ 64 then 1 else if b ≤ 128 then 2 else 3

/-- The status that refuses a NOTICE_POST, by the checks of R95 and R96 in their order; none when every check passes. -/
def postRefusal (cls kind target value channel len : Nat) (s : State) : Option Byte :=
  let closed := fun x : Nat => decide (∃ c : ChannelId, c.val = x ∧ s.channels[c].state = .closed)
  if 1 < cls ∨ 2 < kind ∨ 3 < target ∨ 192 < len then some 0x05
  else if 64 ≤ s.sched.records.length then some 0x09
  else if target = 1 ∧ 15 < value then some 0x06
  else if target = 1 ∧ closed value then some 0x07
  else if target = 2 ∧ 23 < value then some 0x06
  else if target = 2 ∧ ¬ ∃ g : GroupId, g.val = value ∧ s.groups[g].state = .opened then some 0x07
  else if target = 3 ∧ ¬ ∃ d ∈ s.devices, d.id.toNat = value then some 0x06
  else if kind = 2 ∧ target ≠ 2 ∧ target ≠ 3 then some 0x05
  else if kind = 2 ∧ 15 < channel then some 0x06
  else if kind = 2 ∧ closed channel then some 0x07
  else if s.pool.freeList.length < payloadCells len + 64 then some 0x09
  else none

/-- The record's expiry is reached in superframe m (R103, R18; log entry 28 for counts 2^31 apart). -/
def expiredIn (m : Count) (n : NoticeRecord) : Bool := (n.expiry.map (fun e => decide ((m - e).toNat < 2 ^ 31))).getD false

/-- Superframe m is at or after the record's not_before (R105, R18; log entry 28 for counts 2^31 apart). -/
def eligibleIn (m : Count) (n : NoticeRecord) : Bool := decide ((m - n.notBefore).toNat < 2 ^ 31)

/-- The records that a queue of handles names, in its order. -/
def recordsOf (queue : List Nat) (s : State) : List NoticeRecord :=
  queue.filterMap (fun h => s.sched.records.find? (fun n => n.handle = h))

/-- The records that a queue holds when a build scans it: those of the queue, in its order, that have not expired (R103, R105). -/
def liveRecords (m : Count) (queue : List Nat) (s : State) : List NoticeRecord :=
  (recordsOf queue s).filter (fun n => !(expiredIn m n))

/-- The cells of these records together. -/
def cellSum (l : List NoticeRecord) : Nat := (l.map (fun n => n.cells.length)).sum

/-- The records that a scan places (R105): from head to tail, each that is eligible and whose cells are at or below the room that the
records placed before it have left; any other is passed over. -/
def scanned (m : Count) : Nat → List NoticeRecord → List NoticeRecord
  | _, [] => []
  | room, n :: l => if eligibleIn m n = true ∧ n.cells.length ≤ room then n :: scanned m (room - n.cells.length) l else scanned m room l

/-- A queue after a build has placed these of its records (R106): the rest in their order, then those placed with repeats left, in
the order of their placement. -/
def queueAfter (placed live : List NoticeRecord) : List Nat :=
  ((live.filter (fun n => n ∉ placed)) ++ placed.filter (fun n => 1 < n.repeatsRemaining)).map NoticeRecord.handle

/-! ## Racks, charging and fleet (chapters 7 to 9) -/

/-- The rack windows and the slot records (R114, R122): each window of a legal size on a multiple of it, within the address space;
no two windows share an address; a slot record stands at each address inside a window and at no other; the slots of a window's
account lie in it; each class queue holds at most 64 exchanges of its class (R116). -/
def WindowsSound (s : State) : Prop :=
  (∀ r : RackId, ∀ w ∈ s.racks[r], w.size ∈ [4, 8, 16, 32] ∧ w.base % w.size = 0 ∧ w.base + w.size ≤ 256 ∧ w.settle ≤ 15 ∧
      w.budget ≤ 10000 ∧ ∀ a ∈ w.sessions ++ w.admission, w.holds a = true) ∧
    (∀ r q : RackId, ∀ w ∈ s.racks[r], ∀ v ∈ s.racks[q], ∀ a : SlotAddr, w.holds a = true → v.holds a = true → r = q) ∧
    (∀ a : SlotAddr, s.slots[a] ≠ none ↔ ∃ r : RackId, ∃ w ∈ s.racks[r], w.holds a = true) ∧
    ∀ q : Fin 6, (s.bus.queues[q]).length ≤ 64 ∧ ∀ e ∈ s.bus.queues[q], e.queue = q

/-- The device table (R145): at most 384 records, one per id, no id 0. -/
def DevicesSound (s : State) : Prop :=
  s.devices.length ≤ 384 ∧ (s.devices.map Device.id).Nodup ∧ ∀ d ∈ s.devices, d.id ≠ 0

/-- The issue operations (9.4, R152, R158): at most four, one per group, each of an OPEN group whose issue_handle is its own; every
other group's is absent. -/
def IssuesSound (s : State) : Prop :=
  s.ops.length ≤ 4 ∧ (s.ops.map IssueOperation.group).Nodup ∧
    ∀ g : GroupId, ((∃ o ∈ s.ops, o.group = g) → s.groups[g].state = .opened ∧ s.groups[g].issueHandle = some (g.val + 1)) ∧
      ((∀ o ∈ s.ops, o.group ≠ g) → s.groups[g].issueHandle = none)

/-- Every rack's committed draw is at or below its budget (R131). -/
def BudgetsRespected (s : State) : Prop := ∀ r : RackId, ∀ w ∈ s.racks[r], w.committed ≤ w.budget

/-- s with exchanges at the tail of a class queue, as far as its 64 places reach (R116). -/
def asked (q : Fin 6) (es : List Exchange) (s : State) : State :=
  let l := s.bus.queues[q]
  { s with bus := { s.bus with queues := s.bus.queues.set q (l ++ es.take (64 - l.length)) } }

/-- A SET_CHARGE of an OCCUPIED slot requested (R135): at the tail of its queue, or owed when the queue is full. -/
def told (a : SlotAddr) (m : ChargeMode) (s : State) : State :=
  if (s.bus.queues[(3 : Fin 6)]).length < 64 then asked 3 [.setCharge a m] s
  else s.setSlot a ((s.slots[a]).map (fun x => { x with setOwed := true }))

/-- The class of an exchange (R115). -/
def classOf : Exchange → Nat
  | .scan _ => 1
  | .tune _ _ _ _ => 2
  | .release _ => 2
  | .probe _ => 3
  | .setCharge _ _ => 4
  | .clear _ _ => 5
  | .poll _ => 6

/-- The code of an exchange's kind (R115). -/
def kindCode : Exchange → Nat
  | .scan _ => 1
  | .probe _ => 2
  | .poll _ => 3
  | .setCharge _ _ => 4
  | .tune _ _ _ _ => 5
  | .release _ => 6
  | .clear _ _ => 7

/-- The parameters an exchange's request carries (R115, R176). -/
def requestParams : Exchange → List Byte
  | .setCharge _ .off => [0]
  | .setCharge _ .bulk => [1]
  | .setCharge _ .top => [2]
  | .tune _ c g none => le8 c.val ++ le8 g.val ++ [255]
  | .tune _ c g (some k) => le8 c.val ++ le8 g.val ++ le8 k.val
  | _ => []

/-- The number of parameter bytes an exchange's answer carries (R115, R176). -/
def answerSize : Exchange → Nat
  | .scan _ => 4
  | .probe _ => 7
  | .poll _ => 2
  | .setCharge _ _ => 1
  | .tune _ _ _ _ => 1
  | .release _ => 1
  | .clear _ _ => 0

/-- A frame of the rack bus (R176): start, rack, kind code, number, position, parameter count, parameters, check. -/
def busFrame (start : Byte) (x : InFlight) (params : List Byte) : List Byte :=
  let covered := le8 x.rack.val ++ le8 (kindCode x.exchange) ++ [x.number, x.position] ++ le8 params.length ++ params
  [start] ++ covered ++ le16 (crc covered).toNat

/-- The rack an exchange goes to, with its window: the one it names, or the one whose window holds its slot. -/
def GoesTo (e : Exchange) (r : RackId) (w : RackWindow) (s : State) : Prop :=
  s.racks[r] = some w ∧ (e = .scan r ∨ ∃ a ∈ e.slot?, w.holds a = true)

/-- The exchange in flight has this good answer, and its rack has not been removed (R118). -/
def Answered (e : Exchange) (params : List Byte) (s : State) : Prop :=
  ∃ x ∈ s.bus.inFlight, x.exchange = e ∧ x.answer = some params ∧ x.doomed = false

/-- The exchange in flight has no good answer, and its rack has not been removed (R118). -/
def Unanswered (e : Exchange) (s : State) : Prop :=
  ∃ x ∈ s.bus.inFlight, x.exchange = e ∧ x.answer = none ∧ x.doomed = false

/-- s when the answer with this level to an exchange with slot a, whose record is x, has been taken (R118, R125): the bus free,
timeouts 0, and the level, 100 at most, in the slot's record and in that of the device it names. -/
def heard (a : SlotAddr) (x : Slot) (level : Byte) (s : State) : State :=
  { s with
    bus := { s.bus with inFlight := none }, slots := s.slots.set a (some { x with timeouts := 0, level := min 100 level.toNat }),
    devices := s.devices.map (fun d => if x.deviceId = some d.id then { d with level := min 100 level.toNat } else d) }

/-- The draw of a session in its phase (8.1). -/
def drawOf (s : State) (a : SlotAddr) : Nat :=
  match (s.slots[a]).map Slot.phase with
  | some .bulk => 450
  | some .top => 120
  | _ => 0

/-- The sessions in the order shedding takes them (R142): BULK from the newest to the oldest, then TOP in the same way. -/
def sheddingOrder (w : RackWindow) (s : State) : List SlotAddr :=
  w.sessions.reverse.filter (fun a => drawOf s a = 450) ++ w.sessions.reverse.filter (fun a => drawOf s a = 120)

/-- The number of sessions a budget cut sheds (R142): the least number from the front of the shedding order whose draws bring the
committed draw to the budget. -/
def shedCount (budget : Nat) (w : RackWindow) (s : State) : Nat :=
  let order := sheddingOrder w s
  ((List.range (order.length + 1)).find? (fun n => w.committed ≤ budget + ((order.take n).map (drawOf s)).sum)).getD order.length

/-- The slots of a window in a phase, counted. -/
def countIn (p : ChargePhase) (w : RackWindow) (s : State) : Nat :=
  ((List.finRange 256).filter (fun a => w.holds a && decide ((s.slots[a]).map Slot.phase = some p))).length

/-- The admission queue, from its head (R133): the part of shed slots, the microphones' part, the receivers' part. -/
def admissionOrder (w : RackWindow) : List SlotAddr := w.shedPart ++ w.micPart ++ w.receiverPart

/-- The fields of a RACK_BUDGET reply (R141). -/
def accountFields (r : RackId) (w : RackWindow) (shedCount : Nat) (s : State) : List Byte :=
  le8 r.val ++ le16 w.budget ++ le16 w.committed ++ le8 (countIn .bulk w s) ++ le8 (countIn .top w s) ++
    le8 (admissionOrder w).length ++ le8 (countIn .full w s) ++ [((admissionOrder w).head?.map (fun a : SlotAddr => BitVec.ofNat 8 a.val)).getD 255] ++
    le8 shedCount

/-- A slot may be chosen for an operation (R153): OCCUPIED, unreserved, at or above min_level, not tried, its device DOCKED, of the
operation's kind, with no CLEAR queued. -/
abbrev Choosable (o : IssueOperation) (s : State) (a : SlotAddr) : Prop :=
  ∃ x ∈ s.slots[a], ∃ d ∈ x.deviceId.bind s.device?, x.occupancy = .occupied ∧ x.reservation = none ∧ d.state = .docked ∧
    d.kind = o.kind ∧ d.clearState ≠ .queued ∧ o.minLevel ≤ x.level ∧ a ∉ o.tried

/-- The slot a choice takes (R153): choosable, of the highest level, and of the lowest address among equals. -/
def Chosen (o : IssueOperation) (s : State) (a : SlotAddr) : Prop :=
  Choosable o s a ∧ ∀ b : SlotAddr, Choosable o s b → b ≠ a →
    ∀ x ∈ s.slots[a], ∀ y ∈ s.slots[b], y.level < x.level ∨ (y.level = x.level ∧ a < b)

/-- s after an operation has completed (R158). -/
def completed (o : IssueOperation) (s : State) : State :=
  let flags := (if o.retuned then 1 else 0) + (if o.cancel then 2 else 0)
  let last : LastIssue := { issued := o.issued, count := o.count, retuned := o.retuned, cancelled := o.cancel }
  let freed := if o.kind = .mic ∧ o.issued = 0 then o.roster else none
  reported 22 o.group.val (BitVec.ofNat 32 (flags * 65536 + o.issued * 256 + o.count))
    { s with
      roster := match freed with
        | some k => s.roster.set k .free
        | none => s.roster
      groups := s.groups.set o.group { s.groups[o.group] with issueHandle := none, lastIssue := some last }
      ops := s.ops.filter (fun p => p.group ≠ o.group) }

/-! ## The laws of the racks and of the fleet together -/

/-- The device id that the slot record at an address names. -/
def namedAt (s : State) (a : SlotAddr) : Option DeviceId := (s.slots[a]).bind Slot.deviceId

/-- The accounts (R131, R133): no slot stands twice in a session list or in an admission queue; the session list holds exactly the
window's slots in BULK and TOP, the queue exactly those WAITING; committed is the sum of 450 and 120 over the sessions. -/
def AccountsSound (s : State) : Prop :=
  ∀ r : RackId, ∀ w ∈ s.racks[r], w.sessions.Nodup ∧ w.admission.Nodup ∧ w.committed = (w.sessions.map (drawOf s)).sum ∧
    ∀ a : SlotAddr, (a ∈ w.sessions ↔ w.holds a = true ∧ drawOf s a ≠ 0) ∧
      (a ∈ w.admission ↔ w.holds a = true ∧ (s.slots[a]).map Slot.phase = some .waiting)

/-- The slot records (chapter 7's table, R132, R139, R140, R153): only an OCCUPIED slot without a reservation has a charge phase, only an
OCCUPIED slot is reserved, an OCCUPIED slot names a device, and an EMPTY or PROBING one names none. -/
def SlotsSound (s : State) : Prop :=
  ∀ a : SlotAddr, ∀ x ∈ s.slots[a],
    (x.phase ≠ .none → x.occupancy = .occupied ∧ x.reservation = none) ∧ (x.reservation ≠ none → x.occupancy = .occupied) ∧
      (x.occupancy = .occupied → x.deviceId ≠ none) ∧ (x.occupancy = .empty ∨ x.occupancy = .probing → x.deviceId = none)

/-- Slots and devices name each other (R121, R124): a DOCKED device is in a slot whose record names it, an UNSEEN one in none, and a
slot names only a device that is DOCKED or OUT and in that slot. So exactly one slot names a DOCKED device. -/
def NamesSound (s : State) : Prop :=
  (∀ d ∈ s.devices, (d.state = .docked → ∃ a : SlotAddr, d.slot = some a ∧ namedAt s a = some d.id) ∧
      (d.state = .unseen → d.slot = none)) ∧
    ∀ (a : SlotAddr) (id : DeviceId), namedAt s a = some id → ∃ d ∈ s.devices, d.id = id ∧ d.state ≠ .unseen ∧ d.slot = some a

/-- The OUT devices assigned to a group, counted. -/
def outOf (g : GroupId) (s : State) : Nat :=
  (s.devices.filter (fun d => decide (d.state = .out ∧ d.assignment.map Assignment.group = some g))).length

/-- Each group's out_count is the number of OUT devices assigned to it (R149), 0 in FREE; and the OUT devices are those with an
assignment (R145). -/
def OutCountsSound (s : State) : Prop :=
  (∀ d ∈ s.devices, d.state = .out ↔ d.assignment ≠ none) ∧
    ∀ g : GroupId, s.groups[g].outCount = outOf g s ∧ (s.groups[g].state = .free → s.groups[g].outCount = 0)

/-- The roster (R151): an entry is BOUND to an id exactly when the OUT microphone with that id names the entry in its assignment, an OUT
device names an entry exactly when it is a MIC, and an entry is HELD only by a running operation that names it. An operation for a MIC
holds its entry, has count 1 and has issued none; one for a RECEIVER names no entry (R152). -/
def RosterSound (s : State) : Prop :=
  (∀ (k : RosterId) (id : DeviceId), s.roster[k] = .bound id ↔ ∃ d ∈ s.devices, d.id = id ∧ d.state = .out ∧ d.kind = .mic ∧
      d.assignment.bind Assignment.roster = some k) ∧
    (∀ d ∈ s.devices, d.state = .out → (d.kind = .mic ↔ d.assignment.bind Assignment.roster ≠ none)) ∧
    (∀ (k : RosterId) (h : Nat), s.roster[k] = .held h → ∃ o ∈ s.ops, h = o.group.val + 1 ∧ o.roster = some k) ∧
    ∀ o ∈ s.ops, (o.kind = .receiver → o.roster = none) ∧
      (o.kind = .mic → o.count = 1 ∧ o.issued = 0 ∧ ∃ k : RosterId, o.roster = some k ∧ s.roster[k] = .held (o.group.val + 1))

/-- The candidates (R153): every operation has one, whose slot its handle reserves and whose device is DOCKED and of its kind; and every
reserved slot is the candidate's slot of the operation with that handle. With one operation a group (IssuesSound) it is exactly one. -/
def CandidatesSound (s : State) : Prop :=
  (∀ o ∈ s.ops, ∃ c ∈ o.candidate, (s.slots[c.slot]).bind Slot.reservation = some (o.group.val + 1) ∧
      ∃ d ∈ s.devices, namedAt s c.slot = some d.id ∧ d.state = .docked ∧ d.kind = o.kind) ∧
    ∀ (a : SlotAddr) (h : Nat), (s.slots[a]).bind Slot.reservation = some h →
      ∃ o ∈ s.ops, h = o.group.val + 1 ∧ o.candidate.map Candidate.slot = some a

/-- The exchange in flight, unless its rack has been removed. -/
def liveInFlight (s : State) : List Exchange :=
  match s.bus.inFlight with
  | some x => if x.doomed then [] else [x.exchange]
  | none => []

/-- The exchange that an operation's candidate waits for, by its stage (R153, R155). -/
def taskOf (o : IssueOperation) : Option Exchange :=
  o.candidate.map (fun c => match c.stage with
    | .tune => .tune c.slot c.tunedChannel o.group o.roster
    | .release => .release c.slot)

/-- What an exchange under way needs (R116): a SCAN its window defined, a PROBE its slot PROBING, any other its slot OCCUPIED. -/
def Supported (e : Exchange) (s : State) : Prop :=
  match e with
  | .scan r => s.racks[r] ≠ none
  | .probe a => (s.slots[a]).map Slot.occupancy = some .probing
  | _ => ∀ a ∈ e.slot?, (s.slots[a]).map Slot.occupancy = some .occupied

/-- The exchanges under way, queued or in flight (R116, R118, R120, R122, R153): each is supported; one in flight goes to its rack, or,
marked by the removal of that rack, is no TUNE or RELEASE; no slot has two PROBEs; and the TUNEs and RELEASEs are, one for one, those that
the candidates wait for. -/
def ExchangesSound (s : State) : Prop :=
  (∀ e ∈ liveInFlight s, Supported e s) ∧ (∀ q : Fin 6, ∀ e ∈ s.bus.queues[q], Supported e s) ∧
    (∀ x ∈ s.bus.inFlight, (x.doomed = false → ∃ w, GoesTo x.exchange x.rack w s) ∧ (x.doomed = true → classOf x.exchange ≠ 2)) ∧
    (liveInFlight s ++ s.bus.queues[(2 : Fin 6)]).Nodup ∧
    ((liveInFlight s).filter (fun e => classOf e = 2) ++ s.bus.queues[(1 : Fin 6)]).Perm (s.ops.filterMap taskOf)

/-- The laws of racks, charging and fleet, which hold together or not at all: each command's work on one relies on the others. -/
def DockSound (s : State) : Prop :=
  (WindowsSound s ∧ DevicesSound s ∧ IssuesSound s) ∧ AccountsSound s ∧ SlotsSound s ∧ NamesSound s ∧ OutCountsSound s ∧
    RosterSound s ∧ CandidatesSound s ∧ ExchangesSound s

end Sys2Proof.Machine
end

