-- ==== Sys2Proof/Certificates/Slice0/Obligations.lean ====
section
/-! DEFINITION. The statements about the model, each a proposition by name; OBLIGATIONS.json says what each formalises. -/

open Sys2Proof Sys2Proof.Machine

/-! ## The machine -/

/-- The command at the front of the queue is run on the state with the queue's rest. -/
def Obligations.StepRunsFrontCommand : Prop :=
  ∀ (c : Instr) (rest : List Instr) (s : State), s.pending = c :: rest → step s = exec c { s with pending := rest }

/-- Every command, in every state, answers a next state, and leaves the queue of waiting commands as it was. The queue is the
model's own (assumption 5). -/
def Obligations.EveryCommandAnswersAndKeepsQueue : Prop :=
  ∀ (c : Instr) (s : State), ∃ t, exec c s = .next t ∧ t.pending = s.pending

/-! ## What every step keeps -/

/-- The bounds of the two queues of the link, no entry left reserved, and the gap timer running exactly outside HUNT. That no entry is
left reserved rests on the model's choice that a reserved entry is filled in the step that reserved it (assumption 23). -/
def Obligations.LinkBoundsKept : Prop :=
  ∀ s t : State, LinkSound s.link → step s = .next t → LinkSound t.link

/-- f, acc, lol and the other numbers of every source in their ranges, its buffer laid out as R42 says, nothing held at rest. -/
def Obligations.SourceRangesKept : Prop :=
  ∀ s t : State, SourcesSound s → step s = .next t → SourcesSound t

/-- Every cell has exactly one owner, and the notice table and its queues agree. -/
def Obligations.CellOwnershipKept : Prop :=
  ∀ s t : State, CellsSound s → NoticesSound s.sched → step s = .next t → CellsSound t ∧ NoticesSound t.sched

/-- The free cells, the cells of the elastic buffers and those of the notice records add up to 512. -/
def Obligations.CellCountsAddUp : Prop :=
  ∀ s : State, CellsSound s → s.pool.free + elasticHeld s + noticeHeld s = 512

/-- A CLOSED or SILENT channel has no active source; a LIVE or BRIDGING one has one of its live list. -/
def Obligations.ActiveSourceLawKept : Prop :=
  ∀ s t : State, ChannelsSound s → step s = .next t → ChannelsSound t

/-- The laws of racks, charging and fleet: each account's committed draw is the sum of its sessions' draws; a DOCKED device is named by
exactly one slot; out_count counts the group's OUT devices; a roster entry is BOUND exactly to the OUT microphone that names it; a reserved
slot has no charge phase and is held by exactly one operation; and the exchanges under way are those that these need. -/
def Obligations.DockLawsKept : Prop :=
  ∀ s t : State, DockSound s → step s = .next t → DockSound t

/-- bound_groups of each channel counts the groups whose channel it is. The event flags, repeats and records agree, and so do the air
timer's fields (the place within the superframe is the model's own, assumption 10). -/
def Obligations.BindingEventAndAirRecordsKept : Prop :=
  (∀ s t : State, BindingsSound s → step s = .next t → BindingsSound t) ∧
    ∀ s t : State, EventsSound s → AirSound s.air → step s = .next t → EventsSound t ∧ AirSound t.air

/-- All of these hold right after a hard reset, at every line rate and level of the ready line. -/
def Obligations.SoundAfterHardReset : Prop :=
  ∀ (rate : LineRate) (ready : Bool), let s := State.hardReset rate ready
    LinkSound s.link ∧ SourcesSound s ∧ CellsSound s ∧ NoticesSound s.sched ∧ ChannelsSound s ∧ BindingsSound s ∧
      EventsSound s ∧ AirSound s.air ∧ WindowsSound s ∧ DevicesSound s ∧ IssuesSound s ∧ BudgetsRespected s ∧ DockSound s

/-! ## The message link -/

/-- A frame received whole in HUNT with a good check takes its place: it joins a request queue of fewer than four, is answered
BUSY while the outbound queue has room, is discarded for OVERFLOW at 32 entries, and is dropped silently while a reset is
pending. -/
def Obligations.GoodFrameTakesItsPlace : Prop :=
  ∀ (f : Frame) (s : State), f.body.length ≤ 256 → s.link.rx = .hunt →
    (s.link.resetPending = true → exec (.frameReceive f.chars) s = .next { s with link := s.link.hunting }) ∧
    (s.link.resetPending = false → s.link.requests.length < 4 →
      exec (.frameReceive f.chars) s =
        .next { s with link := { s.link.hunting with requests := s.link.requests ++ [f] } }) ∧
    (s.link.resetPending = false → 4 ≤ s.link.requests.length → s.link.outbound.length < 32 →
      exec (.frameReceive f.chars) s = .next (replied f.kind f.tag 0x02 [] { s with link := s.link.hunting })) ∧
    (s.link.resetPending = false → 4 ≤ s.link.requests.length → 32 ≤ s.link.outbound.length →
      exec (.frameReceive f.chars) s = .next (reported 0 0 5 { s with link := s.link.hunting }))

/-- The four causes that discard a frame under reception: the receiver is in HUNT again with the gap timer stopped, and
LINK_FRAME_BAD is raised with object 0 and the cause's detail. In HUNT, a character that is no start byte is ignored. -/
def Obligations.DiscardedFrameRaisesItsCause : Prop :=
  ∀ s : State,
    (∀ (f : Frame) (lo hi : Byte), s.link.rx = .hunt → f.body.length ≤ 256 → f.bytes.take (5 + f.body.length) ++ [lo, hi] ≠ f.bytes →
      exec (.frameReceive ((f.bytes.take (5 + f.body.length) ++ [lo, hi]).map (fun b => { byte := b, framingError := false }))) s =
        .next (reported 0 0 1 { s with link := s.link.hunting })) ∧
    (s.link.gapTimer = true → exec .gapExpiry s = .next (reported 0 0 2 { s with link := s.link.hunting })) ∧
    (∀ lo hi : Byte, s.link.rx = .hunt → 256 < lo.toNat + 256 * hi.toNat →
      exec (.frameReceive ([0xA5, lo, hi].map (fun b => { byte := b, framingError := false }))) s =
        .next (reported 0 0 3 { s with link := s.link.hunting })) ∧
    (∀ b : Byte, s.link.rx ≠ .hunt → s.link.under ≠ none →
      exec (.frameReceive [{ byte := b, framingError := true }]) s =
        .next (reported 0 0 4 { s with link := s.link.hunting })) ∧
    (∀ (b : Byte) (e : Bool), s.link.rx = .hunt → (b ≠ 0xA5 ∨ e = true) →
      exec (.frameReceive [{ byte := b, framingError := e }]) s = .next s)

/-- The request at the head of the queue is served while the occupancy is below 28 and no reset is pending: a kind that is
not assigned is answered BAD_KIND; for every kind that is, a length not allowed is answered BAD_LENGTH, and otherwise the owner acts and
answers as on the request's command (written out for SOURCE_MUTE). It leaves the queue. At 28 entries or with a reset pending it waits.
That the command stands for a request served at once is the model's choice (assumption 2). -/
def Obligations.RequestServiceServesTheHead : Prop :=
  ∀ (f : Frame) (rest : List Frame) (s : State), s.link.requests = f :: rest →
    (28 ≤ s.link.outbound.length ∨ s.link.resetPending = true → exec .requestService s = .next s) ∧
    (s.link.outbound.length < 28 → s.link.resetPending = false → OutEntry.reserved ∉ s.link.outbound →
      (f.kind ∉ ([0x01, 0x02, 0x08, 0x09, 0x0A, 0x10, 0x11, 0x12, 0x13, 0x14, 0x18, 0x19, 0x1A, 0x1B, 0x20, 0x21, 0x22, 0x23,
          0x25, 0x30, 0x31, 0x32, 0x33, 0x34, 0x35, 0x38, 0x39, 0x3C, 0x3D, 0x3E, 0x40, 0x41, 0x42, 0x48, 0x49, 0x4A, 0x4B,
          0x4C] : List Byte) →
        exec .requestService s = .next (replied f.kind f.tag 0x03 [] { s with link := { s.link with requests := rest } })) ∧
      (∀ q ∈ requestTable, f.kind = q.1 →
        (q.2.2 f.body = false →
          exec .requestService s = .next (replied f.kind f.tag 0x04 [] { s with link := { s.link with requests := rest } })) ∧
        ∃ t, exec (q.2.1 f.tag f.body) { s with link := { s.link with requests := [] } } = .next t ∧
          exec .requestService s = .next { t with link := { t.link with requests := rest } }) ∧
      (∀ (k : SourceId) (b : Bool), f.kind = 0x12 → f.body = [BitVec.ofNat 8 k.val, if b then 1 else 0] →
        exec .requestService s = .next (replied f.kind f.tag 0x00 [BitVec.ofNat 8 k.val, if b then 1 else 0]
          ((({ s with link := { s.link with requests := rest } } : State)).setSource k { s.sources[k] with muted := b }))))

/-- A frame transmitted leaves the head of the outbound queue; a reserved entry keeps its place. A frame takes its body's
length and seven bytes more on the line, from the start byte H'A5 on. -/
def Obligations.TransmittedFrameLeavesTheQueue : Prop :=
  ∀ s : State,
    (∀ (f : Frame) (rest : List OutEntry), s.link.outbound = .frame f :: rest →
      exec .frameTransmitted s =
        .next { s with link := { s.link with outbound := rest }, pins := { s.pins with txd := f.bytes } } ∧
      f.bytes.length = f.body.length + 7 ∧ f.bytes.head? = some 0xA5) ∧
    (∀ rest : List OutEntry, s.link.outbound = .reserved :: rest → exec .frameTransmitted s = .next s)

/-- IDENTIFY with an empty body is answered with the part's fixed fields and the line rate's code, and with any other body
BAD_LENGTH; it changes no state. -/
def Obligations.IdentifyAnswersTheFixedFields : Prop :=
  ∀ (tag : Byte) (s : State), ServesNow s →
    exec (.identify tag []) s = .next (replied 0x01 tag 0x00
      [0xB3, 0x42, 0x4E, 0x06, 1, (match s.link.rate with | .b115200 => 0 | .b460800 => 1 | .b921600 => 2), 14, 16,
        0x00, 0x02, 64, 64, 8, 0x80, 0x01, 24, 4, 12, 25] s) ∧
    ∀ body : List Byte, body ≠ [] → exec (.identify tag body) s = .next (replied 0x01 tag 0x04 [] s)

/-- SOFT_RESET is answered OK and sets reset-pending. While it is set no request is served, a good frame is discarded without
a reply, and a raise adds no notice. The moment of the reset is the command SOFT_RESET_PERFORM of its own (the model's choice, assumption
18), which changes nothing while the outbound queue holds an entry, before its moment (the model's choice, assumption 12). -/
def Obligations.SoftResetWaitsForItsReply : Prop :=
  (∀ (tag : Byte) (s : State), ServesNow s →
    exec (.softReset tag []) s =
      .next (replied 0x02 tag 0x00 [] { s with link := { s.link with resetPending := true } }) ∧
    ∀ body : List Byte, body ≠ [] → exec (.softReset tag body) s = .next (replied 0x02 tag 0x04 [] s)) ∧
  ∀ s : State, s.link.resetPending = true →
    exec .requestService s = .next s ∧ (∀ tag body, exec (.airStart tag body) s = .next s) ∧
    (∀ (k : EventId) (o : Nat) (d : BitVec 32) (b : Bool), (raiseKind k o d b s).link = s.link) ∧
    (s.link.outbound ≠ [] → exec .softResetPerform s = .next s)

/-- The link controller after either reset: the rate the straps give or the rate kept, HUNT with nothing under reception and
the gap timer stopped, no request, and the STARTED notice with its cause as the one entry. -/
def Obligations.LinkAfterEitherReset : Prop :=
  (∀ (rate1 rate0 ready : Bool) (s : State), ∃ t, exec (.hardReset rate1 rate0 ready) s = .next t ∧
    t.link.rate = (if rate1 = false ∧ rate0 = true then .b460800 else if rate1 = true ∧ rate0 = false then .b921600 else .b115200) ∧
    t.link = { rate := t.link.rate, rx := .hunt, under := none, gapTimer := false, requests := [],
               outbound := [.frame { kind := 0xE1, tag := 0, body := [1, t.link.rate.code, 1] }], resetPending := false }) ∧
  (∀ s : State, s.link.resetPending = true → s.link.outbound = [] → ∃ t, exec .softResetPerform s = .next t ∧
    t.link = { rate := s.link.rate, rx := .hunt, under := none, gapTimer := false, requests := [],
               outbound := [.frame { kind := 0xE1, tag := 0, body := [2, s.link.rate.code, 1] }], resetPending := false })

/-! ## Host requests in general -/

/-- A host request sent as a command is its frame on the link: where the link may serve at once, the frame and then its service;
otherwise the frame alone, which takes its place. That the command stands for both is the model's choice (assumption 2). -/
def Obligations.RequestCommandIsItsFrame : Prop :=
  ∀ p ∈ requestTable, ∀ (tag : Byte) (body : List Byte) (s : State), body.length ≤ 256 → LinkSound s.link → s.link.rx = .hunt →
    let f : Frame := { kind := p.1, tag := tag, body := body }
    (ServesNow s → ∃ t, exec (.frameReceive f.chars) s = .next t ∧ exec (p.2.1 tag body) s = exec .requestService t) ∧
    (¬ ServesNow s → exec (p.2.1 tag body) s = exec (.frameReceive f.chars) s)

/-- Every request whose body has a length its description does not allow is answered BAD_LENGTH, and changes nothing else. -/
def Obligations.DisallowedLengthIsRefused : Prop :=
  ∀ p ∈ requestTable, ∀ (tag : Byte) (body : List Byte) (s : State), ServesNow s → p.2.2 body = false →
    exec (p.2.1 tag body) s = .next (replied p.1 tag 0x04 [] s)

/-! ## The event unit -/

/-- EVENT_SET raises its kind: the latest record with by_request set, raw set, repeats up to 255, and, where a clear raw of an
enabled kind rises and fewer than 24 entries stand in the outbound queue with the reply's, the EVENT notice behind the reply.
The short body gives object 0 and detail 0. A kind above 24 is answered NO_OBJECT. -/
def Obligations.EventSetRaisesItsKind : Prop :=
  ∀ (tag : Byte) (s : State), ServesNow s →
    (∀ (k : EventId) (long : Bool) (o d : Nat), o < 65536 → d < 2 ^ 32 → (long = false → o = 0 ∧ d = 0) →
      let e := s.events[k]
      let l : LatestRecord := { object := o, detail := BitVec.ofNat 32 d, count := s.air.count, byRequest := true }
      let n := if e.raw then min 255 (e.repeats + 1) else e.repeats
      let t := replied 0x4A tag 0x00 [BitVec.ofNat 8 k.val, BitVec.ofNat 8 n]
        { s with events := s.events.set k { raw := true, enable := e.enable, latest := some l, repeats := n } }
      exec (.eventSet tag (le8 k.val ++ (if long then le16 o ++ le32 d else []))) s =
        .next (if e.raw = false ∧ e.enable = true ∧ s.link.outbound.length < 23 then
          { t with link := { t.link with outbound := t.link.outbound ++
            [.frame { kind := 0xE0, tag := 0, body := le8 k.val ++ le16 o ++ le32 d ++ le32 s.air.count.toNat ++ [1] }] } }
          else t)) ∧
    (∀ body : List Byte, body.length = 1 ∨ body.length = 7 → 24 < (body.getD 0 0).toNat →
      exec (.eventSet tag body) s = .next (replied 0x4A tag 0x06 [] s))

/-- EVENT_READ reports the flags of all kinds, or one kind's flags, condition, repeats and latest record, and changes nothing.
EVENT_CLEAR clears raw and repeats of the kind named, or of every kind for 255, but not of a level kind whose condition holds;
record and enable are kept. Other kind numbers are answered NO_OBJECT. -/
def Obligations.EventReadAndClear : Prop :=
  ∀ (tag : Byte) (s : State), ServesNow s →
    exec (.eventRead tag []) s =
      .next (replied 0x48 tag 0x00 (le32 (sumOfKinds EventKindState.raw s) ++ le32 (sumOfKinds EventKindState.enable s)) s) ∧
    (∀ k : EventId,
      let e := s.events[k]
      let l : LatestRecord := e.latest.getD { object := 0, detail := 0, count := 0, byRequest := false }
      exec (.eventRead tag (le8 k.val)) s = .next (replied 0x48 tag 0x00
        (le8 k.val ++ leFlag e.raw ++ leFlag e.enable ++ leFlag (k = 4 ∨ k = 11) ++ leFlag (ConditionHolds k s) ++ le8 e.repeats ++
          leFlag e.latest.isSome ++ le16 l.object ++ le32 l.detail.toNat ++ le32 l.count.toNat ++ leFlag l.byRequest) s)) ∧
    (∀ b : Byte, 24 < b.toNat → exec (.eventRead tag [b]) s = .next (replied 0x48 tag 0x06 [] s)) ∧
    let cleared := fun k : EventId => let e := s.events[k]
      if ConditionHolds k s ∨ e.raw = false then e else { e with raw := false, repeats := 0 }
    (∀ k : EventId, exec (.eventClear tag (le8 k.val)) s =
      .next (replied 0x49 tag 0x00 (le8 k.val ++ leFlag (cleared k).raw) { s with events := s.events.set k (cleared k) })) ∧
    (∃ t, exec (.eventClear tag [255]) s = .next t ∧ (∀ k : EventId, t.events[k] = cleared k) ∧
      t = replied 0x49 tag 0x00 (le32 (sumOfKinds EventKindState.raw t)) { s with events := t.events }) ∧
    (∀ b : Byte, 24 < b.toNat → b ≠ 255 → exec (.eventClear tag [b]) s = .next (replied 0x49 tag 0x06 [] s))

/-- EVENT_ENABLE sets enable, and offers the notice of each kind it newly enables whose raw is set, behind the reply and only while
fewer than 24 entries stand in the outbound queue; for 255 in increasing number of the kinds. EVENT_DISABLE clears enable and keeps
raw, repeats, the record and every notice already in the outbound queue. -/
def Obligations.EventEnableAndDisable : Prop :=
  ∀ (tag : Byte) (s : State), ServesNow s →
    (∀ k : EventId, exec (.eventDisable tag (le8 k.val)) s =
      .next (replied 0x4C tag 0x00 (le8 k.val) { s with events := s.events.set k { s.events[k] with enable := false } })) ∧
    (∃ t, exec (.eventDisable tag [255]) s = .next t ∧ (∀ k : EventId, t.events[k] = { s.events[k] with enable := false }) ∧
      t = replied 0x4C tag 0x00 (le32 0) { s with events := t.events }) ∧
    (∀ b : Byte, 24 < b.toNat → b ≠ 255 → exec (.eventDisable tag [b]) s = .next (replied 0x4C tag 0x06 [] s)) ∧
    let offer := fun k : EventId => let e := s.events[k]
      if e.enable = false ∧ e.raw = true then e.latest.map (fun l => OutEntry.frame
        { kind := 0xE0, tag := 0, body := le8 k.val ++ le16 l.object ++ le32 l.detail.toNat ++ le32 l.count.toNat ++ leFlag l.byRequest }) else none
    let room := 23 - s.link.outbound.length
    (∀ k : EventId,
      let t := replied 0x4B tag 0x00 (le8 k.val ++ leFlag (s.events[k]).raw)
        { s with events := s.events.set k { s.events[k] with enable := true } }
      exec (.eventEnable tag (le8 k.val)) s =
        .next { t with link := { t.link with outbound := t.link.outbound ++ (offer k).toList.take room } }) ∧
    (∃ t, exec (.eventEnable tag [255]) s = .next t ∧ (∀ k : EventId, t.events[k] = { s.events[k] with enable := true }) ∧
      let u := replied 0x4B tag 0x00 (le32 (2 ^ 25 - 1)) { s with events := t.events }
      t = { u with link := { u.link with outbound := u.link.outbound ++ ((List.finRange 25).filterMap offer).take room } }) ∧
    (∀ b : Byte, 24 < b.toNat → b ≠ 255 → exec (.eventEnable tag [b]) s = .next (replied 0x4B tag 0x06 [] s))

/-! ## The two resets -/

/-- HARD_RESET at any moment: every block at its hard-reset values, the ready line's level recorded. The commands still waiting
outside the part stay (the queue is the model's own, assumption 5). -/
def Obligations.HardResetValues : Prop :=
  ∀ (rate1 rate0 ready : Bool) (s : State), ∃ t, exec (.hardReset rate1 rate0 ready) s = .next t ∧ t.pending = s.pending ∧
    (t.air.running = false ∧ t.air.count = 0 ∧ t.air.stopPending = false ∧ t.air.ready = ready ∧ t.air.lastBuild = none ∧
      t.air.lastStop = .none ∧ ∀ i : Fin 24, t.air.image[i] = .empty) ∧
    (t.pool.freeList.Perm (List.finRange 512) ∧ t.pool.lowWater = 512) ∧
    (∀ k : SourceId, t.sources[k] =
      { state := .off, locked := false, prefill := false, f := 0, acc := 0, r := 0, run := 0, age := 0, priorState := none,
        priorLocked := false, history := [], historyCounter := 0, lol := 0, blockArrived := false, lastSequence := none,
        block := .none, muted := false, line := false, mode := if k.val < 12 then .auto else .fixed, fFixed := 0,
        settings := { targetFill := 320, biAcq := 10, biTrk := 14, bpAcq := 6, bpTrk := 8, slopeLimit := 256, lockThreshold := 6,
                      lockTimer := 200, historyDepth := 4, reacquireLimit := 50, lostLimit := 300, lolThreshold := 3 },
        buffer := { chain := [], readOffset := 0, samples := [] } }) ∧
    (∀ c : ChannelId, t.channels[c] =
      { state := .closed, livePlan := none, stagedPlan := none, applyPending := false, activeSource := none, bridgeCount := 0,
        revertCandidate := none, revertCount := 0, boundGroups := 0, switchCount := 0 }) ∧
    t.sched = { records := [], urgent := [], routine := [], lateCounter := 0, lateFlag := false, lateLimit := 10,
                nextHandle := 1 } ∧
    ((∀ r : RackId, t.racks[r] = none) ∧ (∀ a : SlotAddr, t.slots[a] = none) ∧ (∀ q : Fin 6, t.bus.queues[q] = []) ∧
      t.bus.inFlight = none ∧ t.bus.number = 0) ∧
    t.charge = { pollPeriod := 2, topLevel := 90, rechargeLevel := 95, topPolls := 300 } ∧
    (t.devices = [] ∧ t.ops = [] ∧ (∀ k : RosterId, t.roster[k] = .free) ∧ ∀ g : GroupId, t.groups[g] =
      { state := .free, channel := none, outCount := 0, issueHandle := none, lastIssue := none }) ∧
    ∀ k : EventId, t.events[k] = { raw := false, enable := false, latest := none, repeats := 0 }

/-- SOFT_RESET_PERFORM after the OK reply has left: every block at its soft-reset values, with the SCANs of the kept windows
queued. The ready line is read as it stands. The commands still waiting outside the part stay (the queue is the model's own, assumption 5),
and the reset is a command of its own (assumption 18). -/
def Obligations.SoftResetValues : Prop :=
  ∀ s : State, s.link.resetPending = true → s.link.outbound = [] → ∃ t, exec .softResetPerform s = .next t ∧
    t.pending = s.pending ∧
    (t.air.running = false ∧ t.air.count = 0 ∧ t.air.stopPending = false ∧ t.air.ready = s.pins.readyLine ∧
      t.air.lastBuild = none ∧ t.air.lastStop = .softReset ∧ ∀ i : Fin 24, t.air.image[i] = .empty) ∧
    (t.pool.freeList.Perm (List.finRange 512) ∧ t.pool.lowWater = 512) ∧
    (∀ k : SourceId, let x := s.sources[k]
      t.sources[k] =
        { state := .off, locked := false, prefill := false, f := 0, acc := 0, r := 0, run := 0, age := 0, priorState := none,
          priorLocked := false, history := [], historyCounter := 0, lol := 0, blockArrived := false, lastSequence := none,
          block := .none, muted := x.muted, line := x.line, mode := x.mode, fFixed := x.fFixed, settings := x.settings,
          buffer := { chain := [], readOffset := 0, samples := [] } }) ∧
    (∀ c : ChannelId, t.channels[c] =
      { state := .closed, livePlan := none, stagedPlan := none, applyPending := false, activeSource := none, bridgeCount := 0,
        revertCandidate := none, revertCount := 0, boundGroups := s.channels[c].boundGroups, switchCount := 0 }) ∧
    t.sched = { records := [], urgent := [], routine := [], lateCounter := 0, lateFlag := false,
                lateLimit := s.sched.lateLimit, nextHandle := 1 } ∧
    (∀ r : RackId, t.racks[r] = (s.racks[r]).map (fun w =>
      { base := w.base, size := w.size, settle := w.settle, rackState := .online, scanMisses := 0, scanTimer := true,
        budget := w.budget, committed := 0, sessions := [], shedPart := [], micPart := [], receiverPart := [] })) ∧
    (∀ a : SlotAddr, t.slots[a] = (s.slots[a]).map (fun _ =>
      { occupancy := .empty, deviceId := none, level := 0, timeouts := 0, faultCause := none, released := false, phase := .none,
        reservation := none, topCounter := 0, pollTimer := none, setOwed := false })) ∧
    (t.bus.queues[(0 : Fin 6)] = ((List.finRange 8).filter (fun r => (s.racks[r]).isSome)).map Exchange.scan ∧
      (∀ q : Fin 6, q ≠ 0 → t.bus.queues[q] = []) ∧ t.bus.inFlight = none ∧ t.bus.number = s.bus.number) ∧
    t.charge = s.charge ∧
    t.devices = s.devices.map (fun d => { d with
      state := if d.state = .docked then .unseen else d.state, slot := none,
      clearState := if d.clearState = .queued then .owed else d.clearState }) ∧
    (∀ g : GroupId, t.groups[g] = { s.groups[g] with issueHandle := none, lastIssue := none }) ∧ t.ops = [] ∧
    (∀ k : RosterId, (∀ id, s.roster[k] = .bound id → t.roster[k] = .bound id) ∧
      ((∀ id, s.roster[k] ≠ .bound id) → t.roster[k] = .free)) ∧
    ∀ k : EventId, t.events[k] = { raw := false, enable := (s.events[k]).enable, latest := none, repeats := 0 }

/-! ## The air timer -/

/-- AIR_START is refused WRONG_STATE while the air runs or the front end is not ready. Otherwise the first superframe starts with
the next count and its image (beacon, SILENCE for the open channels, EMPTY for the rest), and every source that is OFF goes to
WAITING if it is a line source that is ON or an uplink source whose roster entry is BOUND. -/
def Obligations.AirStartFormsTheFirstSuperframe : Prop :=
  ∀ (tag : Byte) (s : State), ServesNow s → SourcesSound s →
    (s.air.running = true ∨ s.air.ready = false → exec (.airStart tag []) s = .next (replied 0x08 tag 0x07 [] s)) ∧
    (s.air.running = false → s.air.ready = true → ∃ t, exec (.airStart tag []) s = .next t ∧
      t = replied 0x08 tag 0x00 (le32 (s.air.count + 1).toNat)
        { s with air := t.air, sources := t.sources, pins := { s.pins with frameStrobe := true, dataOut := [] } } ∧
      t.air = { s.air with running := true, count := s.air.count + 1, image := t.air.image, due := 0, lineTaken0 := false,
                           lineTaken1 := false } ∧
      t.air.image[(0 : Fin 24)] = .beacon ((s.air.count + 1).truncate 16) ((List.finRange 16).map (beaconOf s)) ∧
      (∀ (c : ChannelId) (i : Fin 24), i.val = c.val + 1 →
        t.air.image[i] = if s.channels[c].state = .closed then .empty else .silence c) ∧
      (∀ i : Fin 24, 17 ≤ i.val → t.air.image[i] = .empty) ∧
      ∀ k : SourceId, t.sources[k] = if s.sources[k].state = .off ∧ CalledIn s k then s.sources[k].rested .waiting
        else s.sources[k])

/-- AIR_STOP is answered OK with stop_at: the current count while STOPPED or before the BUILD mark of the superframe in progress,
the next count after that mark, and the value already given while a stop is pending; it sets stop_pending while the air runs.
AIR_STATUS reports the air timer's fields and changes nothing. -/
def Obligations.AirStopNamesItsSuperframe : Prop :=
  ∀ (tag : Byte) (s : State), ServesNow s →
    (s.air.running = false → exec (.airStop tag []) s = .next (replied 0x09 tag 0x00 (le32 s.air.count.toNat) s)) ∧
    (s.air.running = true → s.air.stopPending = true →
      exec (.airStop tag []) s = .next (replied 0x09 tag 0x00 (le32 s.air.stopAt.toNat) s)) ∧
    (s.air.running = true → s.air.stopPending = false →
      let n := if s.air.due ≤ 38 then s.air.count else s.air.count + 1
      exec (.airStop tag []) s = .next (replied 0x09 tag 0x00 (le32 n.toNat)
        { s with air := { s.air with stopPending := true, stopAt := n } })) ∧
    exec (.airStatus tag []) s = .next (replied 0x0A tag 0x00
      (leFlag s.air.running ++ leFlag s.air.stopPending ++ leFlag s.air.ready ++ le32 s.air.count.toNat ++
        ([match s.air.lastStop with | .none => 0 | .request => 1 | .readyLost => 2 | .softReset => 3] : List Byte) ++
        (match s.air.lastBuild with
          | none => ([0, 0, 0, 0, 0, 0, 0] : List Byte)
          | some b => [1] ++ le32 b.count.toNat ++ le8 b.capacity ++ le8 b.placed)) s)

/-- A superframe starts, while the air runs and past the BUILD mark of the one before, with the count one higher modulo 2^32 and the
frame strobe driven. Each downlink slot, in its place, puts its image entry on the data-out line: header and content, or nothing
for an EMPTY entry. How long the strobe lasts is the model's choice: it is clear again at the first downlink slot (assumption 6); so is the
low-byte-first order of the entry's bytes on this port (assumption 26); and so is that, out of their places and while STOPPED, neither has
an effect (assumption 10). -/
def Obligations.SuperframesAndSlots : Prop :=
  ∀ s : State,
    (s.air.running = true → s.air.due = 39 → exec .superframeStart s =
      .next { s with air := { s.air with count := s.air.count + 1, due := 0, lineTaken0 := false, lineTaken1 := false },
                     pins := { s.pins with frameStrobe := true, dataOut := [] } }) ∧
    (s.air.running = false ∨ s.air.due ≠ 39 → exec .superframeStart s = .next s) ∧
    ∀ i : Fin 24,
      (s.air.running = true → s.air.due ≤ i.val → exec (.downlinkSlot i) s =
        .next { s with air := { s.air with due := i.val + 1 }, pins := { s.pins with frameStrobe := false, dataOut := match s.air.image[i] with
            | .empty => []
            | .beacon low lines => le8 i.val ++ [0, 255, 1] ++ le16 low.toNat ++ lines.flatMap (fun l =>
                leFlag l.isOpen ++ [l.language.first, l.language.second, l.language.third])
            | .voice c xs => le8 i.val ++ [1] ++ le8 c.val ++ [5] ++ xs.flatMap (fun x => le16 x.toNat)
            | .silence c => le8 i.val ++ [2] ++ le8 c.val ++ [1] ++ List.replicate 64 0
            | .notice n => le8 i.val ++ [3, 255, 1] ++ le16 n.handle ++
                [match n.kind with | .text => 0 | .call => 1 | .retune => 2,
                 match n.targetType with | .all => 0 | .channel => 1 | .group => 2 | .device => 3] ++
                le32 n.targetValue.toNat ++ le8 ((n.retuneChannel.map Fin.val).getD 0) ++ le8 n.cellIndex ++ le8 n.cellTotal ++
                le8 n.payloadLength ++ le8 n.transmission ++ n.content } }) ∧
      (s.air.running = false ∨ i.val < s.air.due → exec (.downlinkSlot i) s = .next s)

/-- The BUILD mark with no stop pending: slot 0 carries the beacon of the next count; each voice slot the block of its channel's
active source, silence, or for a CLOSED channel a notice cell or nothing; the placed notice cells, never more than 7 plus the
number of CLOSED channels, stand in order in slots 17 to 23 and then in the voice slots of the CLOSED channels; the rest is EMPTY.
last_build records it. The notices' records, the cells, NOTICE_EXPIRED and the EVENT notices are those of the placement (NoticesAtABuild).
Anywhere but after the REVIEW mark the command has no effect (assumption 10). -/
def Obligations.BuildFillsTheImage : Prop :=
  ∀ (order : List ChannelId) (s : State),
    (s.air.running = false ∨ s.air.due ≠ 38 → exec (.buildMark order) s = .next s) ∧
    (s.air.running = true → s.air.due = 38 → s.air.stopPending = false →
      let m := s.air.count + 1
      let lent := (List.finRange 16).filter (fun c => decide (s.channels[c].state = .closed))
      let cells := (placeNotices m (7 + lent.length) s).2
      let places := [17, 18, 19, 20, 21, 22, 23] ++ lent.map (fun c => c.val + 1)
      ∃ t, exec (.buildMark order) s = .next t ∧
        t = { s with air := t.air, sched := t.sched, pool := t.pool, events := t.events, link := t.link } ∧
        t.air = { s.air with image := t.air.image, due := 39,
                             lastBuild := some { count := m, capacity := 7 + lent.length, placed := cells.length } } ∧
        t.sched = (placeNotices m (7 + lent.length) s).1.sched ∧ t.pool = (placeNotices m (7 + lent.length) s).1.pool ∧
        t.events = (placeNotices m (7 + lent.length) s).1.events ∧ t.link = (placeNotices m (7 + lent.length) s).1.link ∧
        NoticesAdded s t ∧
        cells.length ≤ 7 + lent.length ∧ (∀ k : EventId, k ≠ 15 → t.events[k] = s.events[k]) ∧
        t.air.image[(0 : Fin 24)] = .beacon (m.truncate 16) ((List.finRange 16).map (beaconOf s)) ∧
        (∀ (c : ChannelId) (i : Fin 24), i.val = c.val + 1 → s.channels[c].state ≠ .closed →
          (∀ (k : SourceId) (xs : List Sample) (p : Nat), s.channels[c].state ≠ .silent → s.channels[c].activeSource = some k →
            s.sources[k].block = .samples xs p → t.air.image[i] = .voice c xs) ∧
          (s.channels[c].state = .silent ∨ s.channels[c].activeSource = none ∨
            (∃ k, s.channels[c].activeSource = some k ∧ (s.sources[k].block = .none ∨ s.sources[k].block = .silence)) →
            t.air.image[i] = .silence c)) ∧
        ∀ (n : Nat) (i : Fin 24), places[n]? = some i.val →
          t.air.image[i] = match cells[n]? with | some x => .notice x | none => .empty)

/-- A stop of the air, for AIR_STOP at the BUILD mark that finds it pending and for the ready line's fall at once: STOPPED with the
count kept and the image empty; every source OFF, its buffer flushed; every LIVE or BRIDGING channel SILENT, after every pending
apply has been performed; RADIO_DOWN only for the ready line. The link gains only EVENT notices, and the buffers' cells are free. A fall
while STOPPED and a rise are only recorded. The place within the superframe after a stop is the model's own (assumption 10). -/
def Obligations.StopOfTheAir : Prop :=
  ∀ (order : List ChannelId) (s : State),
    (∀ (c : Instr) (why : StopReason), s.air.running = true →
      (c = .buildMark order ∧ why = .request ∧ s.air.due = 38 ∧ s.air.stopPending = true) ∨
        (c = .readyLineFall order ∧ why = .readyLost) →
      ∃ t, exec c s = .next t ∧
        t = { s with air := t.air, pins := t.pins, sources := t.sources, pool := t.pool, channels := t.channels,
                     events := t.events, link := t.link } ∧
        t.air = { s.air with running := false, stopPending := false, lastStop := why, image := t.air.image,
                             ready := if why = .readyLost then false else s.air.ready, due := 0, lineTaken0 := false,
                             lineTaken1 := false } ∧
        NoticesAdded s t ∧ CellsReturned s t ∧
        (∀ i : Fin 24, t.air.image[i] = .empty) ∧ t.pins = { s.pins with frameStrobe := false, dataOut := [], readyLine := if why = .readyLost then false else s.pins.readyLine } ∧
        (∀ k : SourceId, t.sources[k] = if s.sources[k].state = .off then s.sources[k] else s.sources[k].rested .off) ∧
        (∀ j : ChannelId, let ch := s.channels[j]
          let quiet := { ch with state := .silent, activeSource := none, bridgeCount := 0, revertCandidate := none, revertCount := 0 }
          (ch.applyPending = false → ch.state = .closed ∨ ch.state = .silent → t.channels[j] = ch) ∧
          (ch.applyPending = false → ch.state = .live ∨ ch.state = .bridging → t.channels[j] = quiet) ∧
          (∀ p, ch.applyPending = true → ch.stagedPlan = some p → ch.state = .closed ∨ ch.state = .silent → t.channels[j] =
            { ch with state := .silent, livePlan := some p, stagedPlan := none, applyPending := false, bridgeCount := 0,
                      revertCandidate := none, revertCount := 0 }) ∧
          (∀ p, ch.applyPending = true → ch.stagedPlan = some p → ch.state = .live ∨ ch.state = .bridging → t.channels[j] =
            { quiet with livePlan := some p, stagedPlan := none, applyPending := false })) ∧
        (∀ k : EventId, k ≠ 1 → k ≠ 14 → t.events[k] = s.events[k]) ∧
        ((∃ j : ChannelId, s.channels[j].applyPending = true ∧ s.channels[j].stagedPlan ≠ none) →
          (t.events[(14 : EventId)]).raw = true ∧ (t.events[(14 : EventId)]).latest.map LatestRecord.detail = some 3) ∧
        (why = .request → t.events[(1 : EventId)] = s.events[(1 : EventId)]) ∧
        (why = .readyLost → (t.events[(1 : EventId)]).raw = true ∧ (t.events[(1 : EventId)]).latest =
          some { object := 0, detail := 0, count := s.air.count, byRequest := false })) ∧
    (s.air.running = false → exec (.readyLineFall order) s =
      .next { s with air := { s.air with ready := false }, pins := { s.pins with readyLine := false } }) ∧
    exec .readyLineRise s = .next { s with air := { s.air with ready := true }, pins := { s.pins with readyLine := true } }

/-! ## Arrivals -/

/-- An uplink block is judged in the order of R31: a bad check, a bad layout or a sample count outside 152 to 168 leaves all as it
was; an entry that is not BOUND to the block's device raises UPLINK_FOREIGN; the sequence accepted last is a duplicate. Past its
slot or while the air is STOPPED nothing happens; nor for a line input that is OFF, or after its superframe's block. At a source in
OFF nothing is taken (assumption 8). The block's device_id is read low byte first (the model's choice, assumption 26), and the places are
the model's choice (assumption 10). -/
def Obligations.BlocksAreJudged : Prop :=
  ∀ s : State,
    (∀ (k : RosterId) (bytes : List Byte) (good : Bool),
      let s1 := { s with air := { s.air with due := 25 + k.val } }
      let n := field8 bytes 5
      let id : DeviceId := BitVec.ofNat 32 (field32 bytes 0)
      let x := s.sources[uplinkSource k]
      (s.air.running = false ∨ 24 + k.val < s.air.due → exec (.uplinkBlockDelivery k bytes good) s = .next s) ∧
      (s.air.running = true → s.air.due ≤ 24 + k.val →
        (good = false ∨ bytes.length ≠ 6 + 2 * n ∨ n < 152 ∨ 168 < n →
          exec (.uplinkBlockDelivery k bytes good) s = .next s1) ∧
        (good = true → bytes.length = 6 + 2 * n → 152 ≤ n → n ≤ 168 →
          (s.roster[k] ≠ .bound id → exec (.uplinkBlockDelivery k bytes good) s = .next (reported 9 k.val id s1)) ∧
          (s.roster[k] = .bound id → x.lastSequence = some (bytes.getD 4 0) ∨ x.state = .off →
            exec (.uplinkBlockDelivery k bytes good) s = .next s1)))) ∧
    ∀ (l : Fin 2) (v : Vector Sample 160),
      let x := s.sources[lineSource l]
      (s.air.running = false ∨ 36 < s.air.due ∨ lineCame l s = true ∨ x.line = false →
        exec (.lineBlockDelivery l v) s = .next s) ∧
      (s.air.running = true → s.air.due ≤ 36 → lineCame l s = false → x.line = true → x.state = .off →
        exec (.lineBlockDelivery l v) s = .next { s with air := { s.air with
          lineTaken0 := s.air.lineTaken0 || decide (l = 0), lineTaken1 := s.air.lineTaken1 || decide (l = 1) } })

/-- An arrival appends its samples: the oldest that would pass 1024 are discarded first (ELASTIC_OVERRUN), then as many are written
as the tail cell and the free cells hold, the newest being discarded when no cell is left (POOL_EXHAUSTED). The chain, the sources
besides and the cells lent agree with it; low_water follows free down; a lending that brings free below 64 raises POOL_LOW. Of the air
timer only the place moves (the model's own, assumption 10), and the link gains only EVENT notices. The samples are read low byte first
(the model's choice, assumption 26; see Arrives). -/
def Obligations.ArrivalAppendsItsSamples : Prop :=
  ∀ (c : Instr) (k : SourceId) (sequence : Option Byte) (xs : List Sample) (s : State), SourcesSound s →
    Arrives c k sequence xs s → ∃ t, exec c s = .next t ∧
      let x := s.sources[k]
      let excess := x.buffer.samples.length + xs.length - 1024
      let kept := x.buffer.without excess
      let free := s.pool.freeList.length + (x.buffer.chain.length - kept.chain.length)
      let written := min xs.length (32 * kept.chain.length - (kept.readOffset + kept.samples.length) + 32 * free)
      let b := t.sources[k].buffer
      t = { s with air := t.air, sources := t.sources, pool := t.pool, events := t.events, link := t.link } ∧
      PlaceMoved c s t ∧ NoticesAdded s t ∧ (∀ j : SourceId, j ≠ k → t.sources[j] = s.sources[j]) ∧
      b.samples = kept.samples ++ xs.take written ∧ b.samples.length ≤ 1024 ∧ b.readOffset = kept.readOffset ∧
      b.chain.length = (b.readOffset + b.samples.length + 31) / 32 ∧
      t.pool.freeList.length + b.chain.length = s.pool.freeList.length + x.buffer.chain.length ∧
      (if 0 < excess then Raised 7 k.val (BitVec.ofNat 32 excess) s t
        else t.events[(7 : EventId)] = s.events[(7 : EventId)]) ∧
      (if written < xs.length then Raised 10 k.val (BitVec.ofNat 32 (xs.length - written)) s t
        else t.events[(10 : EventId)] = s.events[(10 : EventId)]) ∧
      t.pool.lowWater =
        (if kept.chain.length < b.chain.length then min s.pool.lowWater t.pool.freeList.length else s.pool.lowWater) ∧
      (if 64 ≤ free ∧ t.pool.freeList.length < 64 then Raised 11 0 63 s t
        else t.events[(11 : EventId)] = s.events[(11 : EventId)]) ∧
      ∀ e : EventId, e ∉ ([2, 3, 4, 7, 10, 11] : List EventId) → t.events[e] = s.events[e]

/-- An arrival's work on the source's record, on the fill its append left: first arrival, prefill test, filter, lock detection, the
end of HOLDOVER, or FIXED's age; with block_arrived and last_sequence set. A loss of lock, in TRACK or of a lock kept through HOLDOVER, is
counted in lol and raises SOURCE_LOCK_LOST, and SOURCE_LOL_LIMIT when lol rises above its threshold; a lock raises SOURCE_LOCKED. Of the air
timer only the place moves (assumption 10), and the link gains only EVENT notices. The block is read low byte first (the model's choice, assumption 26; see Arrives). -/
def Obligations.ArrivalTracksTheSource : Prop :=
  ∀ (c : Instr) (k : SourceId) (sequence : Option Byte) (xs : List Sample) (s : State),
    Arrives c k sequence xs s → (s.sources[k].prefill = true → s.sources[k].state = .acquire ∨ s.sources[k].state = .fixed) →
    ∃ t, exec c s = .next t ∧
      let x := { s.sources[k] with
        buffer := t.sources[k].buffer, blockArrived := true, lastSequence := sequence.orElse (fun _ => s.sources[k].lastSequence) }
      PlaceMoved c s t ∧ NoticesAdded s t ∧ t.sources[k] = arrived x ∧
      (arrived x).lol = (if LosesLock x then min 15 (x.lol + 1) else x.lol) ∧
      (if GainsLock x then Raised 2 k.val (BitVec.ofInt 32 (arrived x).f) s t
        else t.events[(2 : EventId)] = s.events[(2 : EventId)]) ∧
      (if LosesLock x then Raised 3 k.val (BitVec.ofNat 32 (arrived x).lol) s t
        else t.events[(3 : EventId)] = s.events[(3 : EventId)]) ∧
      (if LosesLock x ∧ x.lol ≤ x.settings.lolThreshold ∧ x.settings.lolThreshold < (arrived x).lol then
        Raised 4 k.val (BitVec.ofNat 32 (arrived x).lol) s t else t.events[(4 : EventId)] = s.events[(4 : EventId)])

/-! ## The OUTPUT mark -/

/-- A source that produces at an OUTPUT mark, ACQUIRE or TRACK with an arrival or FIXED within its lost limit, prefill clear: the
slip, the samples taken, the block, and in locked TRACK the history; an underrun raises ELASTIC_UNDERRUN with the source and the samples it
lacks, k - F, and nothing else raises it. Whatever the sources do, the cells they give up are free, low_water stays, and the link gains only
EVENT notices. After its place, or while the air is STOPPED, the mark has no effect (assumption 10). -/
def Obligations.OutputFormsTheBlock : Prop :=
  ∀ (order : List SourceId) (s : State),
    (s.air.running = false ∨ 36 < s.air.due → exec (.outputMark order) s = .next s) ∧
    (s.air.running = true → s.air.due ≤ 36 → ∃ t, exec (.outputMark order) s = .next t ∧
      t = { s with air := { s.air with due := 37 }, sources := t.sources, pool := t.pool, events := t.events, link := t.link } ∧
      NoticesAdded s t ∧ CellsReturned s t ∧
      ReportedBy 8 (fun k => 0 < shortfall s.sources[k]) (fun k => BitVec.ofNat 32 (shortfall s.sources[k])) s t ∧
      (∀ e : EventId, e ≠ 5 → e ≠ 6 → e ≠ 8 → t.events[e] = s.events[e]) ∧
      ∀ k : SourceId, let x := s.sources[k]
        (x.prefill = false → x.blockArrived = true → x.state = .acquire ∨ x.state = .track →
          t.sources[k] = { produced x with
            historyCounter := if x.state = .track ∧ x.locked = true then
              (if 99 ≤ x.historyCounter then 0 else x.historyCounter + 1) else x.historyCounter,
            history := if x.state = .track ∧ x.locked = true ∧ 99 ≤ x.historyCounter then
              (if x.history.length < 8 then x.history else x.history.drop 1) ++ [x.f] else x.history } ∧
          (x.buffer.samples.length < demand x → (t.events[(8 : EventId)]).raw = true)) ∧
        (x.prefill = false → x.state = .fixed → x.blockArrived = true ∨ x.age + 1 < x.settings.lostLimit →
          let y := { x with r := x.fFixed, age := if x.blockArrived then x.age else x.age + 1 }
          t.sources[k] = produced y ∧ (x.buffer.samples.length < demand y → (t.events[(8 : EventId)]).raw = true)))

/-- Holdover: a source in ACQUIRE or TRACK that finds no arrival enters HOLDOVER on f_hold and produces, with SOURCE_HOLDOVER
raised; in HOLDOVER age rises, and below the lost limit the source produces, at it the source goes to WAITING with SOURCE_LOST. Of the
sources that raise SOURCE_HOLDOVER one gives its object and its detail, f_hold; of those that raise SOURCE_LOST, its object and its
detail, which is 2 for a source lost here. -/
def Obligations.HoldoverAtTheMark : Prop :=
  ∀ (order : List SourceId) (s : State), s.air.running = true → s.air.due ≤ 36 → ∃ t, exec (.outputMark order) s = .next t ∧
    ReportedBy 5 (fun k => EntersHoldover s.sources[k]) (fun k => BitVec.ofInt 32 (meanOfHistory s.sources[k])) s t ∧
    ReportedBy 6 (fun k => lossCause s.sources[k] ≠ 0) (fun k => BitVec.ofNat 32 (lossCause s.sources[k])) s t ∧
    ∀ k : SourceId, let x := s.sources[k]
      x.prefill = false → x.blockArrived = false →
      (x.state = .acquire ∨ x.state = .track → t.sources[k] = produced (held x) ∧ (t.events[(5 : EventId)]).raw = true) ∧
      (x.state = .holdover → x.age + 1 < x.settings.lostLimit → t.sources[k] = produced { x with age := x.age + 1 }) ∧
      (x.state = .holdover → x.settings.lostLimit ≤ x.age + 1 →
        t.sources[k] = x.rested .waiting ∧ (t.events[(6 : EventId)]).raw = true)

/-- A source in OFF or WAITING does nothing at an OUTPUT mark. In prefill it forms silence and counts a missing arrival, and at the
lost limit it goes to WAITING with SOURCE_LOST; so does a source in FIXED whose blocks stay away. WAITING is the state of R49, with
lol, muted, line, mode, f_fixed and settings kept. Of the sources lost at the mark one gives SOURCE_LOST its object and its detail: 1 in
prefill, 2 in HOLDOVER, 3 in FIXED. -/
def Obligations.PrefillAndLossAtTheMark : Prop :=
  ∀ (order : List SourceId) (s : State), s.air.running = true → s.air.due ≤ 36 → ∃ t, exec (.outputMark order) s = .next t ∧
    ReportedBy 6 (fun k => lossCause s.sources[k] ≠ 0) (fun k => BitVec.ofNat 32 (lossCause s.sources[k])) s t ∧
    ∀ k : SourceId, let x := s.sources[k]
      let age := if x.blockArrived then x.age else x.age + 1
      let lost : Source :=
        { state := .waiting, locked := false, prefill := false, f := 0, acc := 0, r := 0, run := 0, age := 0, priorState := none,
          priorLocked := false, history := [], historyCounter := 0, lol := x.lol, blockArrived := false, lastSequence := none,
          block := .none, muted := x.muted, line := x.line, mode := x.mode, fFixed := x.fFixed, settings := x.settings,
          buffer := { chain := [], readOffset := 0, samples := [] } }
      (x.state = .off ∨ x.state = .waiting → t.sources[k] = { x with blockArrived := false }) ∧
      (x.prefill = true → x.state = .acquire ∨ x.state = .fixed → age < x.settings.lostLimit →
        t.sources[k] = { x with age := age, block := .silence, blockArrived := false }) ∧
      (x.prefill = true → x.state = .acquire ∨ x.state = .fixed → x.settings.lostLimit ≤ age →
        t.sources[k] = lost ∧ (t.events[(6 : EventId)]).raw = true) ∧
      (x.prefill = false → x.state = .fixed → x.blockArrived = false → x.settings.lostLimit ≤ age →
        t.sources[k] = lost ∧ (t.events[(6 : EventId)]).raw = true)

/-! ## The REVIEW mark -/

/-- A review of a channel with no apply pending, by its state and the class of its active source: SILENT takes the first USABLE
source; LIVE bridges, reselects, or clears its candidate when revert is off; BRIDGING returns, reselects, or counts and switches
past its delay. A CLOSED channel is not visited. The link gains only EVENT notices. Out of its place the mark has no effect (assumption 10). -/
def Obligations.ReviewByClass : Prop :=
  ∀ (order : List ChannelId) (s : State),
    (s.air.running = false ∨ s.air.due ≠ 37 → exec (.reviewMark order) s = .next s) ∧
    (s.air.running = true → s.air.due = 37 → ∃ t, exec (.reviewMark order) s = .next t ∧
      t = { s with air := { s.air with due := 38 }, channels := t.channels, events := t.events, link := t.link } ∧ NoticesAdded s t ∧
      (∀ j : EventId, j ≠ 12 → j ≠ 13 → j ≠ 14 → t.events[j] = s.events[j]) ∧
      ∀ c : ChannelId, let ch := s.channels[c]
        let best := bestUsable ch.liveSources s
        ch.applyPending = false →
        (ch.state = .closed → t.channels[c] = ch) ∧
        (ch.state = .silent → t.channels[c] = match best with | some j => ch.taking j | none => ch) ∧
        ∀ p, ch.livePlan = some p → ∀ k, ch.activeSource = some k → k ∈ p.sources →
          (ch.state = .live ∨ ch.state = .bridging → ¬ Usable s.sources[k] → ¬ Producing s.sources[k] →
            t.channels[c] = ch.reselected best) ∧
          (ch.state = .live → Producing s.sources[k] → t.channels[c] =
            { ch with state := .bridging, bridgeCount := 0, revertCandidate := none, revertCount := 0 }) ∧
          (ch.state = .live → Usable s.sources[k] → p.revert = false → t.channels[c] =
            { ch with revertCandidate := none, revertCount := 0 }) ∧
          (ch.state = .bridging → Usable s.sources[k] → t.channels[c] = { ch with state := .live, bridgeCount := 0 }) ∧
          (ch.state = .bridging → Producing s.sources[k] →
            let n := min 65535 (ch.bridgeCount + 1)
            t.channels[c] = match best with
              | some j => if p.switchDelay < n then ch.taking j else { ch with bridgeCount := n }
              | none => { ch with bridgeCount := n }))

/-- The revert step, a pending apply, and the reports. In LIVE on a USABLE source with revert on, the best USABLE source ranked above
it must stand for revert_wait reviews in a row. An apply comes first, and the review goes on with the new plan, an active source
outside it being judged ABSENT. The raises of the only channel that is reviewed carry their details (R77, R79, R83). -/
def Obligations.RevertApplyAndReports : Prop :=
  ∀ (order : List ChannelId) (s : State), s.air.running = true → s.air.due = 37 → ∃ t, exec (.reviewMark order) s = .next t ∧
    ∀ c : ChannelId, let ch := s.channels[c]
      (ch.applyPending = false → ch.state = .live → ∀ p, ch.livePlan = some p → ∀ k, ch.activeSource = some k →
        k ∈ p.sources → Usable s.sources[k] → p.revert = true →
        t.channels[c] = match bestUsable (p.sources.takeWhile (fun j => j ≠ k)) s with
          | none => { ch with revertCandidate := none, revertCount := 0 }
          | some j =>
            let n := if ch.revertCandidate = some j then ch.revertCount + 1 else 1
            if p.revertWait ≤ n then ch.taking j else { ch with revertCandidate := some j, revertCount := n }) ∧
      (ch.applyPending = true → ∀ p, ch.stagedPlan = some p →
        let new := { ch with state := if ch.state = .closed then .silent else ch.state, livePlan := some p, stagedPlan := none,
                             applyPending := false, bridgeCount := 0, revertCandidate := none, revertCount := 0 }
        (∃ u, exec (.reviewMark order) (s.setChannel c new) = .next u ∧ t.channels[c] = u.channels[c]) ∧
        (∀ k, ch.activeSource = some k → ch.state = .live ∨ ch.state = .bridging → k ∉ p.sources →
          t.channels[c] = new.reselected (bestUsable p.sources s)) ∧
        (t.events[(14 : EventId)]).raw = true) ∧
      (ChannelSound ch → (∀ j : ChannelId, j ≠ c → s.channels[j].state = .closed ∧ s.channels[j].applyPending = false) →
        (ch.applyPending = true → Raised 14 c.val 1 s t) ∧
        (ch.applyPending = false → ∀ k, t.channels[c].switchCount ≠ ch.switchCount → t.channels[c].activeSource = some k →
          let cause : Nat := match ch.activeSource with
            | none => 1
            | some j => if Producing s.sources[j] then 3 else if Usable s.sources[j] then 4 else 2
          Raised 12 c.val (BitVec.ofNat 32 (cause * 65536 + (ch.activeSource.map Fin.val).getD 255 * 256 + k.val)) s t) ∧
        (∀ k, ch.activeSource = some k → t.channels[c].state = .silent → Raised 13 c.val (BitVec.ofNat 32 k.val) s t))

/-! ## The cell store and the sources: requests -/

/-- POOL_STATUS reports the counts of the cell store and of every source; with restart 1 low_water then takes free; a restart above
1 is answered BAD_VALUE. -/
def Obligations.PoolStatusReports : Prop :=
  ∀ (tag : Byte) (s : State), ServesNow s →
    let fields := le16 s.pool.freeList.length ++ le16 (∑ k : SourceId, s.sources[k].buffer.chain.length) ++
      le8 (s.sched.records.map (fun n => n.cells.length)).sum ++ [64] ++ le16 s.pool.lowWater ++
      (List.finRange 14).flatMap (fun k => le8 s.sources[k].buffer.chain.length)
    exec (.poolStatus tag []) s = .next (replied 0x25 tag 0x00 fields s) ∧
    exec (.poolStatus tag [0]) s = .next (replied 0x25 tag 0x00 fields s) ∧
    exec (.poolStatus tag [1]) s =
      .next (replied 0x25 tag 0x00 fields { s with pool := { s.pool with lowWater := s.pool.freeList.length } }) ∧
    ∀ b : Byte, 1 < b.toNat → exec (.poolStatus tag [b]) s = .next (replied 0x25 tag 0x05 [] s)

/-- SOURCE_CONFIG clamps every setting to its range, rounds an odd lock timer down and raises a lost limit to the reacquire limit plus
1, stores them and answers them as stored; a threshold lowered past the source's lol raises SOURCE_LOL_LIMIT behind the reply. -/
def Obligations.SourceConfigClampsAndStores : Prop :=
  ∀ (tag : Byte) (s : State), ServesNow s →
    (∀ (k : SourceId) (target slope timer lost : BitVec 16) (bi1 bi2 bp1 bp2 lt depth re lol : Byte),
      let x := s.sources[k]
      let shift := fun b : Byte => max 4 (min 20 b.toNat)
      let r := max 1 (min 255 re.toNat)
      let c : SourceSettings :=
        { targetFill := max 160 (min 800 target.toNat), biAcq := shift bi1, biTrk := shift bi2, bpAcq := shift bp1,
          bpTrk := shift bp2, slopeLimit := max 1 (min 4096 slope.toNat), lockThreshold := max 1 (min 64 lt.toNat),
          lockTimer := 2 * (max 2 (min 2000 timer.toNat) / 2), historyDepth := min 8 depth.toNat, reacquireLimit := r,
          lostLimit := max (r + 1) (max 10 (min 3000 lost.toNat)), lolThreshold := min 15 lol.toNat }
      let t := replied 0x10 tag 0x00
        (le8 k.val ++ le16 c.targetFill ++ le8 c.biAcq ++ le8 c.biTrk ++ le8 c.bpAcq ++ le8 c.bpTrk ++ le16 c.slopeLimit ++
          le8 c.lockThreshold ++ le16 c.lockTimer ++ le8 c.historyDepth ++ le8 c.reacquireLimit ++ le16 c.lostLimit ++
          le8 c.lolThreshold) { s with sources := s.sources.set k { x with settings := c } }
      exec (.sourceConfig tag (le8 k.val ++ le16 target.toNat ++ [bi1, bi2, bp1, bp2] ++ le16 slope.toNat ++ [lt] ++
          le16 timer.toNat ++ [depth, re] ++ le16 lost.toNat ++ [lol])) s =
        .next (if x.lol ≤ x.settings.lolThreshold ∧ c.lolThreshold < x.lol then reported 4 k.val (BitVec.ofNat 32 x.lol) t else t)) ∧
    ∀ body : List Byte, body.length = 17 → 13 < (body.getD 0 0).toNat →
      exec (.sourceConfig tag body) s = .next (replied 0x10 tag 0x06 [] s)

/-- SOURCE_MODE stores mode and the clamped fixed rate and changes a running source by R69; for a line source it sets the line input,
ON taking a source in OFF to WAITING while the air runs and OFF taking it to OFF from any state. A mode or line above 1, and AUTO
for a line source, are answered BAD_VALUE. A source above 13 is answered NO_OBJECT whatever the other fields (the object is judged first:
deduced, assumption 13); the order in which returned cells join the free list is the model's choice (assumption 3). -/
def Obligations.SourceModeChangesTheRate : Prop :=
  ∀ (tag : Byte) (s : State), ServesNow s → SourcesSound s →
    (∀ (k : SourceId) (mode line : Byte) (rate : BitVec 16),
      let body := le8 k.val ++ [mode] ++ le16 rate.toNat ++ [line]
      let x := s.sources[k]
      let y := rated x (if mode = 0 then .auto else .fixed) (band 8192 rate.toInt)
      (1 < mode.toNat ∨ 1 < line.toNat ∨ (12 ≤ k.val ∧ mode = 0) →
        exec (.sourceMode tag body) s = .next (replied 0x11 tag 0x05 [] s)) ∧
      (mode.toNat ≤ 1 → line.toNat ≤ 1 → (k.val < 12 ∨ mode = 1) →
        let z : Source := if k.val < 12 then y
          else if line = 1 then
            (if x.state = .off ∧ s.air.running = true then { y.rested .waiting with line := true } else { y with line := true })
          else (if x.state = .off then { y with line := false } else { y.rested .off with line := false })
        ∃ t, exec (.sourceMode tag body) s = .next t ∧
          t = replied 0x11 tag 0x00 (le8 k.val ++ [mode] ++ leInt16 (band 8192 rate.toInt) ++ leFlag z.line ++
            le8 (match z.state with | .off => 0 | .waiting => 1 | .acquire => 2 | .track => 3 | .holdover => 4 | .fixed => 5))
            { s with sources := s.sources.set k z, pool := t.pool } ∧
          t.pool.lowWater = s.pool.lowWater ∧
          t.pool.freeList = s.pool.freeList ++ (if z.state = .off then x.buffer.chain else []))) ∧
    ∀ body : List Byte, body.length = 5 → 13 < (body.getD 0 0).toNat →
      exec (.sourceMode tag body) s = .next (replied 0x11 tag 0x06 [] s)

/-- SOURCE_MUTE stores the muted flag and touches nothing else of the source; a mute above 1 is answered BAD_VALUE. SOURCE_STATUS
reports the source's record and changes nothing. A source above 13 is answered NO_OBJECT whatever the mute (the object is judged first:
deduced, assumption 13). -/
def Obligations.SourceMuteAndStatus : Prop :=
  ∀ (tag : Byte) (s : State), ServesNow s →
    (∀ (k : SourceId) (m : Byte),
      (m.toNat ≤ 1 → exec (.sourceMute tag (le8 k.val ++ [m])) s = .next (replied 0x12 tag 0x00 (le8 k.val ++ [m])
        { s with sources := s.sources.set k { s.sources[k] with muted := decide (m = 1) } })) ∧
      (1 < m.toNat → exec (.sourceMute tag (le8 k.val ++ [m])) s = .next (replied 0x12 tag 0x05 [] s))) ∧
    (∀ k : SourceId, let x := s.sources[k]
      exec (.sourceStatus tag (le8 k.val)) s = .next (replied 0x13 tag 0x00
        (le8 k.val ++ le8 (match x.state with | .off => 0 | .waiting => 1 | .acquire => 2 | .track => 3 | .holdover => 4 | .fixed => 5) ++
          le8 (match x.mode with | .auto => 0 | .fixed => 1) ++ leFlag x.line ++ leFlag x.muted ++ leFlag x.locked ++
          leFlag x.prefill ++ leFlag x.blockArrived ++ leInt16 x.f ++ leInt32 x.acc ++ leInt32 x.r ++ le16 x.run ++ le16 x.age ++
          le8 (match x.priorState with | none => 0 | some .acquire => 2 | some .track => 3) ++ leFlag x.priorLocked ++ le8 x.lol ++
          le8 x.history.length ++ le8 x.historyCounter ++ le16 x.buffer.samples.length ++ le8 x.buffer.chain.length ++
          leFlag x.lastSequence.isSome ++ [x.lastSequence.getD 0] ++
          (match x.block with | .none => [0, 0] | .silence => [1, 0] | .samples _ p => [2] ++ le8 p)) s)) ∧
    (∀ b m : Byte, 13 < b.toNat → exec (.sourceMute tag [b, m]) s = .next (replied 0x12 tag 0x06 [] s)) ∧
    ∀ b : Byte, 13 < b.toNat → exec (.sourceStatus tag [b]) s = .next (replied 0x13 tag 0x06 [] s)

/-- SOURCE_LOL_SET writes the value, clamped to 15, to the source's lol and answers it; brought above the source's threshold from
not above it, SOURCE_LOL_LIMIT is raised behind the reply. Nothing else of the source is touched. -/
def Obligations.SourceLolSetWritesTheCounter : Prop :=
  ∀ (tag : Byte) (s : State), ServesNow s →
    (∀ (k : SourceId) (v : Byte), let x := s.sources[k]
      let n := min 15 v.toNat
      let t := replied 0x14 tag 0x00 (le8 k.val ++ le8 n) { s with sources := s.sources.set k { x with lol := n } }
      exec (.sourceLolSet tag (le8 k.val ++ [v])) s =
        .next (if x.lol ≤ x.settings.lolThreshold ∧ x.settings.lolThreshold < n then reported 4 k.val (BitVec.ofNat 32 n) t else t)) ∧
    ∀ b v : Byte, 13 < b.toNat → exec (.sourceLolSet tag [b, v]) s = .next (replied 0x14 tag 0x06 [] s)

/-! ## Channels: requests -/

/-- CHANNEL_STAGE writes a whole plan into the staged plan, in the full or the short form, after its checks in order; CHANNEL_APPLY
waits for the review while the air runs and applies at once while it is stopped; CHANNEL_CLOSE is refused while groups are bound,
and otherwise closes the channel with switch_count kept. -/
def Obligations.ChannelStageApplyClose : Prop :=
  ∀ (tag : Byte) (s : State), ServesNow s →
    (∀ (c : ChannelId) (a b d : Byte) (listed : List Byte) (n rv dl : Byte) (wait : BitVec 16) (full : Bool), listed.length = 4 →
      let ch := s.channels[c]
      let body := le8 c.val ++ [a, b, d, n] ++ listed ++ (if full then [rv, dl] ++ le16 wait.toNat else [])
      let letter := fun x : Byte => 0x41 ≤ x.toNat ∧ x.toNat ≤ 0x5A
      let used := listed.take n.toNat
      let good := letter a ∧ letter b ∧ letter d ∧ 1 ≤ n.toNat ∧ n.toNat ≤ 4 ∧ (∀ x ∈ used, x.toNat ≤ 13) ∧ used.Nodup ∧
        (full = true → rv.toNat ≤ 1)
      (ch.applyPending = true → exec (.channelStage tag body) s = .next (replied 0x18 tag 0x08 [] s)) ∧
      (ch.applyPending = false → ¬ good → exec (.channelStage tag body) s = .next (replied 0x18 tag 0x05 [] s)) ∧
      (ch.applyPending = false → good →
        let p : Plan :=
          { language := { first := a, second := b, third := d },
            sources := used.filterMap (fun x => (List.finRange 14).find? (fun k => k.val = x.toNat)), revert := full && decide (rv = 1),
            switchDelay := if full then dl.toNat else 20, revertWait := if full then max 1 (min 1000 wait.toNat) else 100 }
        exec (.channelStage tag body) s = .next (replied 0x18 tag 0x00
          (le8 c.val ++ [a, b, d, n] ++ used ++ List.replicate (4 - n.toNat) 255 ++ leFlag p.revert ++ le8 p.switchDelay ++
            le16 p.revertWait) { s with channels := s.channels.set c { ch with stagedPlan := some p } }))) ∧
    (∀ body : List Byte, body.length = 13 ∨ body.length = 9 → 15 < (body.getD 0 0).toNat →
      exec (.channelStage tag body) s = .next (replied 0x18 tag 0x06 [] s)) ∧
    (∀ c : ChannelId, let ch := s.channels[c]
      let applied := fun p : Plan => { ch with state := if ch.state = .closed then .silent else ch.state, livePlan := some p,
                                               stagedPlan := none, bridgeCount := 0, revertCandidate := none, revertCount := 0 }
      let closed : Channel :=
        { state := .closed, livePlan := none, stagedPlan := none, applyPending := false, activeSource := none, bridgeCount := 0,
          revertCandidate := none, revertCount := 0, boundGroups := 0, switchCount := ch.switchCount }
      (ch.applyPending = true → exec (.channelApply tag (le8 c.val)) s = .next (replied 0x19 tag 0x08 [] s)) ∧
      (ch.applyPending = false → ch.stagedPlan = none →
        exec (.channelApply tag (le8 c.val)) s = .next (replied 0x19 tag 0x07 [] s)) ∧
      (ch.applyPending = false → ch.stagedPlan ≠ none → s.air.running = true → exec (.channelApply tag (le8 c.val)) s =
        .next (replied 0x19 tag 0x01 [] { s with channels := s.channels.set c { ch with applyPending := true } })) ∧
      (∀ p, ch.applyPending = false → ch.stagedPlan = some p → s.air.running = false → exec (.channelApply tag (le8 c.val)) s =
        .next (reported 14 c.val 2 (replied 0x19 tag 0x00 [] { s with channels := s.channels.set c (applied p) }))) ∧
      (0 < ch.boundGroups → exec (.channelClose tag (le8 c.val)) s = .next (replied 0x1A tag 0x0A [] s)) ∧
      (ch.boundGroups = 0 → exec (.channelClose tag (le8 c.val)) s =
        .next (replied 0x1A tag 0x00 [] { s with channels := s.channels.set c closed }))) ∧
    ∀ b : Byte, 15 < b.toNat → exec (.channelApply tag [b]) s = .next (replied 0x19 tag 0x06 [] s) ∧
      exec (.channelClose tag [b]) s = .next (replied 0x1A tag 0x06 [] s)

/-- CHANNEL_STATUS reports the channel's record, with the class of the active source as it stands at the request and both plans,
all zero when absent. It changes nothing. -/
def Obligations.ChannelStatusReports : Prop :=
  ∀ (tag : Byte) (s : State), ServesNow s →
    (∀ c : ChannelId, let ch := s.channels[c]
      let plan : Option Plan → List Byte := fun o => match o with
        | none => List.replicate 13 0
        | some p => [1, p.language.first, p.language.second, p.language.third] ++ le8 p.sources.length ++
            ((p.sources.map (fun k : SourceId => BitVec.ofNat 8 k.val) ++ List.replicate 4 (255 : Byte)).take 4) ++ leFlag p.revert ++
            le8 p.switchDelay ++ le16 p.revertWait
      let cls : Byte := match ch.activeSource with
        | none => 255
        | some k => if Usable s.sources[k] then 0 else if Producing s.sources[k] then 1 else 2
      exec (.channelStatus tag (le8 c.val)) s = .next (replied 0x1B tag 0x00
        (le8 c.val ++ le8 (match ch.state with | .closed => 0 | .silent => 1 | .live => 2 | .bridging => 3) ++
          leFlag ch.applyPending ++ le8 ((ch.activeSource.map Fin.val).getD 255) ++ [cls] ++ le16 ch.bridgeCount ++
          le8 ((ch.revertCandidate.map Fin.val).getD 255) ++ le16 ch.revertCount ++ le8 ch.boundGroups ++ le16 ch.switchCount ++
          plan ch.livePlan ++ plan ch.stagedPlan) s)) ∧
    ∀ b : Byte, 15 < b.toNat → exec (.channelStatus tag [b]) s = .next (replied 0x1B tag 0x06 [] s)

/-! ## Notices -/

/-- NOTICE_POST: the checks of R95 and R96 in their order refuse it and change nothing. Otherwise a record is created with the first
free handle from next_handle on, the clamped fields and the cells its payload needs, at the tail of its class's queue, and a RETUNE
moves its group with its OUT devices and the bound counts, or its OUT device. Which of the free cells are lent, the first of the free list,
is the model's choice (assumption 3). -/
def Obligations.NoticePostCreatesARecord : Prop :=
  ∀ (tag cls kind target channel reps gap : Byte) (value : BitVec 32) (life : BitVec 16) (payload : List Byte) (s : State),
    ServesNow s → NoticesSound s.sched → payload.length < 256 →
    let body := [cls, kind, target] ++ le32 value.toNat ++ [channel, reps, gap] ++ le16 life.toNat ++ le8 payload.length ++ payload
    let refusal := postRefusal cls.toNat kind.toNat target.toNat value.toNat channel.toNat payload.length s
    let retuned := fun (d : Device) (c : ChannelId) => { d with assignment := d.assignment.map (fun a => { a with channel := c }) }
    (∀ why, refusal = some why → exec (.noticePost tag body) s = .next (replied 0x20 tag why [] s)) ∧
    (∀ j : Fin 65, refusal = none → HandleFree (nextNumber^[j.val] s.sched.nextHandle) s →
      (∀ i : Fin 65, i < j → ¬ HandleFree (nextNumber^[i.val] s.sched.nextHandle) s) →
      let m := payloadCells payload.length
      let lifetime := min 60000 life.toNat
      let n : NoticeRecord :=
          { handle := nextNumber^[j.val] s.sched.nextHandle, cls := if cls = 0 then .urgent else .routine,
            kind := if kind = 0 then .text else if kind = 1 then .call else .retune,
            targetType := if target = 0 then .all else if target = 1 then .channel else if target = 2 then .group else .device,
            targetValue := if target = 0 then 0 else value,
            retuneChannel := if kind = 2 then (List.finRange 16).find? (fun c => c.val = channel.toNat) else none,
            repeatsRemaining := max 1 (min 15 reps.toNat), interval := max 1 gap.toNat, notBefore := s.air.count + 1,
            expiry := if lifetime = 0 then none else some (s.air.count + BitVec.ofNat 32 lifetime), payload := payload,
            cells := s.pool.freeList.take m, transmissions := 0 }
      ∃ t, exec (.noticePost tag body) s = .next t ∧
      t = replied 0x20 tag 0x00 (le16 n.handle ++ le32 n.notBefore.toNat ++ leFlag n.expiry.isSome ++
          le32 (n.expiry.getD 0).toNat ++ le8 m ++ le8 n.repeatsRemaining)
        { s with
          sched := { s.sched with records := s.sched.records ++ [n], nextHandle := nextNumber n.handle,
                                  urgent := if cls = 0 then s.sched.urgent ++ [n.handle] else s.sched.urgent,
                                  routine := if cls = 0 then s.sched.routine else s.sched.routine ++ [n.handle] },
          pool := { freeList := s.pool.freeList.drop m, lowWater := min s.pool.lowWater (s.pool.freeList.length - m) },
          groups := t.groups, devices := t.devices, channels := t.channels } ∧
      (kind ≠ 2 → t.groups = s.groups ∧ t.devices = s.devices ∧ t.channels = s.channels) ∧
      (kind = 2 → target = 3 → t.groups = s.groups ∧ t.channels = s.channels ∧ t.devices = s.devices.map (fun d =>
        if d.id = value ∧ d.state = .out then retuned d (n.retuneChannel.getD 0) else d)) ∧
      (∀ (g : GroupId) (c : ChannelId), kind = 2 → target = 2 → g.val = value.toNat → c.val = channel.toNat →
        t.groups = s.groups.set g { s.groups[g] with channel := some c } ∧
        t.devices = s.devices.map (fun d =>
          if d.state = .out ∧ d.assignment.map Assignment.group = some g then retuned d c else d) ∧
        ∀ (old x : ChannelId), s.groups[g].channel = some old →
          let b := s.channels[x].boundGroups
          let moved := if old = c then b else if x = old then b - 1 else if x = c then b + 1 else b
          t.channels[x] = { s.channels[x] with boundGroups := moved }))

/-- NOTICE_CANCEL removes the record, returns its cells and reports its counts; NOTICE_STATUS reports the summary for handle 0, or a
record with its place in its queue; SCHED_CONFIG writes late_limit, 0 stored as 1, or only reports. A handle that no record holds
is answered NO_OBJECT. The order in which returned cells join the free list is the model's choice (assumption 3). -/
def Obligations.NoticeCancelStatusConfig : Prop :=
  ∀ (tag : Byte) (s : State), ServesNow s → NoticesSound s.sched →
    (∀ n ∈ s.sched.records,
      exec (.noticeCancel tag (le16 n.handle)) s =
        .next (replied 0x21 tag 0x00 (le16 n.handle ++ le8 n.transmissions ++ le8 n.repeatsRemaining)
          { s with
            sched := { s.sched with records := s.sched.records.filter (fun m => m.handle ≠ n.handle),
                                    urgent := s.sched.urgent.filter (fun h => h ≠ n.handle),
                                    routine := s.sched.routine.filter (fun h => h ≠ n.handle) },
            pool := { s.pool with freeList := s.pool.freeList ++ n.cells } }) ∧
      exec (.noticeStatus tag (le16 n.handle)) s = .next (replied 0x22 tag 0x00
        (le16 n.handle ++ le8 (match n.cls with | .urgent => 0 | .routine => 1) ++
          le8 (match n.kind with | .text => 0 | .call => 1 | .retune => 2) ++
          le8 (match n.targetType with | .all => 0 | .channel => 1 | .group => 2 | .device => 3) ++ le32 n.targetValue.toNat ++
          le8 ((n.retuneChannel.map Fin.val).getD 255) ++ le8 n.repeatsRemaining ++ le8 n.transmissions ++ le8 n.interval ++
          le32 n.notBefore.toNat ++ leFlag n.expiry.isSome ++ le32 (n.expiry.getD 0).toNat ++ le8 n.payload.length ++
          le8 n.cells.length ++
          le8 ((match n.cls with | .urgent => s.sched.urgent | .routine => s.sched.routine).idxOf n.handle)) s)) ∧
    (∀ h : Nat, h < 65536 → HandleFree h s →
      exec (.noticeCancel tag (le16 h)) s = .next (replied 0x21 tag 0x06 [] s) ∧
      (h ≠ 0 → exec (.noticeStatus tag (le16 h)) s = .next (replied 0x22 tag 0x06 [] s))) ∧
    exec (.noticeStatus tag [0, 0]) s = .next (replied 0x22 tag 0x00
      (le8 s.sched.records.length ++ le8 s.sched.urgent.length ++ le8 s.sched.routine.length ++
        le8 (s.sched.records.map (fun n => n.cells.length)).sum ++ le8 s.sched.lateCounter ++ leFlag s.sched.lateFlag ++
        le8 s.sched.lateLimit ++ le16 s.sched.nextHandle) s) ∧
    exec (.schedConfig tag []) s =
      .next (replied 0x23 tag 0x00 (le8 s.sched.lateLimit ++ le8 s.sched.lateCounter ++ leFlag s.sched.lateFlag) s) ∧
    ∀ b : Byte, let limit := max 1 b.toNat
      exec (.schedConfig tag [b]) s = .next (replied 0x23 tag 0x00 (le8 limit ++ le8 s.sched.lateCounter ++ leFlag s.sched.lateFlag)
        { s with sched := { s.sched with lateLimit := limit } })

/-- What a build does with the notices, for the superframe m and the capacity: the expired records are removed, the last of them in the
order of the queues giving NOTICE_EXPIRED its object and detail. ROUTINE is scanned first when late_flag is set, else URGENT, each queue
from head to tail with the room left, placing every eligible record that fits. A placed record has its cells, in payload order, together in
the list handed to the image, each with its 64 bytes of the payload, H'00 after its end, its number from 1, and the transmissions count
after this placement; after its last repeat it is removed, otherwise it goes to its queue's tail, its next placement an interval on.
The late counter rises when ROUTINE had an eligible record and none was placed, and otherwise becomes 0; at its limit it sets the late flag.
That of two counts exactly 2^31 apart neither is at or after the other is the model's choice (assumption 28). -/
def Obligations.NoticesAtABuild : Prop :=
  ∀ (m : Count) (capacity : Nat) (s : State), NoticesSound s.sched → 7 ≤ capacity →
    let t := (placeNotices m capacity s).1
    let cells := (placeNotices m capacity s).2
    let urgent := liveRecords m s.sched.urgent s
    let routine := liveRecords m s.sched.routine s
    let first := scanned m capacity (if s.sched.lateFlag then routine else urgent)
    let second := scanned m (capacity - cellSum first) (if s.sched.lateFlag then urgent else routine)
    let placedUrgent := if s.sched.lateFlag then second else first
    let placedRoutine := if s.sched.lateFlag then first else second
    let gone := s.sched.records.filter (fun n => expiredIn m n || decide (n ∈ first ++ second ∧ n.repeatsRemaining = 1))
    let moved := fun n : NoticeRecord =>
      { n with transmissions := n.transmissions + 1, repeatsRemaining := n.repeatsRemaining - 1,
               notBefore := m + BitVec.ofNat 32 n.interval }
    let late := if routine.any (eligibleIn m) = true ∧ placedRoutine = [] then s.sched.lateCounter + 1 else 0
    let cellOf := fun (n : NoticeRecord) (i : Nat) =>
      ({ handle := n.handle, kind := n.kind, targetType := n.targetType, targetValue := n.targetValue, retuneChannel := n.retuneChannel,
         cellIndex := i + 1, cellTotal := n.cells.length, payloadLength := n.payload.length, transmission := n.transmissions + 1,
         content := (List.range 64).map (fun j => n.payload.getD (64 * i + j) 0) } : NoticeCell)
    t = { s with sched := t.sched, pool := t.pool, events := t.events, link := t.link } ∧ NoticesAdded s t ∧
    cells = (first ++ second).flatMap (fun n => (List.range n.cells.length).map (cellOf n)) ∧ cells.length ≤ capacity ∧
    ((∃ n ∈ s.sched.records, expiredIn m n = false ∧ eligibleIn m n = true) → cells ≠ []) ∧
    t.sched =
      { records := (s.sched.records.filter (fun n => n ∉ gone)).map (fun n => if n ∈ first ++ second then moved n else n),
        urgent := queueAfter placedUrgent urgent, routine := queueAfter placedRoutine routine,
        lateCounter := if s.sched.lateLimit ≤ late then 0 else late, lateFlag := decide (s.sched.lateLimit ≤ late),
        lateLimit := s.sched.lateLimit, nextHandle := s.sched.nextHandle } ∧
    t.pool.lowWater = s.pool.lowWater ∧ t.pool.freeList.Perm (s.pool.freeList ++ gone.flatMap NoticeRecord.cells) ∧
    (∀ e : EventId, e ≠ 15 → t.events[e] = s.events[e]) ∧
    let expired := (recordsOf (s.sched.urgent ++ s.sched.routine) s).filter (expiredIn m)
    (∀ n, expired.getLast? = some n → Raised 15 n.handle (BitVec.ofNat 32 n.transmissions) s t) ∧
    (expired = [] → t.events[(15 : EventId)] = s.events[(15 : EventId)])

/-! ## Racks and the dock link -/

/-- The rack windows stay legal, apart from one another and matched by the slot records, and the class queues in their bounds; the
device table and the issue operations stay as R145 and R152 bound them. What holds between them is DockLawsKept's. -/
def Obligations.RackAndFleetRecordsKept : Prop :=
  ∀ s t : State, WindowsSound s → DevicesSound s → IssuesSound s → step s = .next t → WindowsSound t ∧ DevicesSound t ∧ IssuesSound t

/-- RACK_DEFINE, after its checks in their order, defines the window ONLINE with its account opened, creates its slot records EMPTY
and requests a SCAN of it. RACK_REMOVE is refused while a slot is reserved; otherwise the window, its slot records and its queued
exchanges are gone, an exchange in flight with it is marked, its DOCKED devices are UNSEEN and its OUT devices in no slot. -/
def Obligations.RackDefineAndRemove : Prop :=
  ∀ (tag : Byte) (s : State), ServesNow s → WindowsSound s → DevicesSound s →
    (∀ (rack base size settle : Byte) (long : Bool) (budget : BitVec 16),
      let body := [rack, base, size, settle] ++ (if long then le16 budget.toNat else [])
      let money := if long then min 10000 budget.toNat else 2000
      let inside := fun a : SlotAddr => base.toNat ≤ a.val ∧ a.val < base.toNat + size.toNat
      let bad := size.toNat ∉ [4, 8, 16, 32] ∨ base.toNat % size.toNat ≠ 0 ∨ 15 < settle.toNat
      let clash := ∃ q : RackId, ∃ w ∈ s.racks[q], ∃ a : SlotAddr, inside a ∧ w.holds a = true
      (7 < rack.toNat → exec (.rackDefine tag body) s = .next (replied 0x30 tag 0x06 [] s)) ∧
      ∀ r : RackId, r.val = rack.toNat →
        (s.racks[r] ≠ none → exec (.rackDefine tag body) s = .next (replied 0x30 tag 0x07 [] s)) ∧
        (s.racks[r] = none → bad → exec (.rackDefine tag body) s = .next (replied 0x30 tag 0x05 [] s)) ∧
        (s.racks[r] = none → ¬ bad → clash → exec (.rackDefine tag body) s = .next (replied 0x30 tag 0x0A [] s)) ∧
        (s.racks[r] = none → ¬ bad → ¬ clash →
          let w : RackWindow :=
            { base := base.toNat, size := size.toNat, settle := settle.toNat, rackState := .online, scanMisses := 0,
              scanTimer := true, budget := money, committed := 0, sessions := [], shedPart := [], micPart := [], receiverPart := [] }
          let x : Slot :=
            { occupancy := .empty, deviceId := none, level := 0, timeouts := 0, faultCause := none, released := false,
              phase := .none, reservation := none, topCounter := 0, pollTimer := none, setOwed := false }
          let slots := Vector.ofFn (fun a : SlotAddr => if inside a then some x else s.slots[a])
          exec (.rackDefine tag body) s = .next (replied 0x30 tag 0x00 ([rack, base, size, settle] ++ le16 money)
            (asked 0 [.scan r] { s with racks := s.racks.set r (some w), slots := slots })))) ∧
    (∀ b : Byte, 7 < b.toNat → exec (.rackRemove tag [b]) s = .next (replied 0x31 tag 0x06 [] s)) ∧
    (∀ r : RackId, s.racks[r] = none → exec (.rackRemove tag (le8 r.val)) s = .next (replied 0x31 tag 0x07 [] s)) ∧
    ∀ (r : RackId) (w : RackWindow), s.racks[r] = some w →
      let reserved := ∃ a : SlotAddr, w.holds a = true ∧ ∃ x ∈ s.slots[a], x.reservation ≠ none
      let named := fun d : Device =>
        ∃ a : SlotAddr, w.holds a = true ∧ ∃ x ∈ s.slots[a], x.occupancy ≠ .empty ∧ x.deviceId = some d.id
      (reserved → exec (.rackRemove tag (le8 r.val)) s = .next (replied 0x31 tag 0x02 [] s)) ∧
      (¬ reserved → (∀ o ∈ s.ops, ∀ c, o.candidate = some c → w.holds c.slot = false) →
        ∃ t, exec (.rackRemove tag (le8 r.val)) s = .next t ∧
          t = replied 0x31 tag 0x00 []
            { s with racks := s.racks.set r none, slots := t.slots, bus := { t.bus with number := s.bus.number }, devices := t.devices } ∧
          (∀ a : SlotAddr, t.slots[a] = if w.holds a then none else s.slots[a]) ∧
          (∀ q : Fin 6, t.bus.queues[q] = (s.bus.queues[q]).filter (fun e =>
            match e.slot? with
            | some a => !(w.holds a)
            | none => decide (e ≠ .scan r))) ∧
          t.bus.inFlight = s.bus.inFlight.map (fun x => if x.rack = r then { x with doomed := true } else x) ∧
          t.devices.map Device.id = s.devices.map Device.id ∧
          (∀ d ∈ s.devices, (¬ named d → ∃ e ∈ t.devices, { e with clearState := d.clearState } = d) ∧
            (named d → d.state = .docked → ∃ e ∈ t.devices, { e with clearState := d.clearState } = { d with state := .unseen, slot := none }) ∧
            (named d → d.state = .out → ∃ e ∈ t.devices, { e with clearState := d.clearState } = { d with slot := none })))

/-- A scan timer's expiry requests a SCAN of its rack, and a fall of the attention line one SCAN of every window in increasing
index. With the bus free, the head of the lowest-numbered class queue that is not empty starts: it leaves its queue with the next
exchange number, and its request frame is sent. The first good answer to the exchange in flight is recorded; any other is ignored. That an
exchange starts at a command of its own is the model's choice (assumption 17), and so is that of two exchanges of different classes which
one step requests on a free bus the lower class starts first, where R117 lets either (assumption 27), and that a scan timer's expiry while
the timer does not run, and a start with nothing to start, change nothing (assumption 12). -/
def Obligations.BusStartsAndTakesAnswers : Prop :=
  ∀ s : State, WindowsSound s →
    (∀ r : RackId, ((s.racks[r]).map RackWindow.scanTimer = some true → exec (.scanTimerExpiry r) s = .next (asked 0 [.scan r] s)) ∧
      ((s.racks[r]).map RackWindow.scanTimer ≠ some true → exec (.scanTimerExpiry r) s = .next s)) ∧
    exec .attentionFall s = .next (asked 0 (((List.finRange 8).filter (fun r => (s.racks[r]).isSome)).map Exchange.scan) s) ∧
    (s.bus.inFlight ≠ none ∨ (∀ q : Fin 6, s.bus.queues[q] = []) → exec .exchangeStart s = .next s) ∧
    (∀ (q : Fin 6) (e : Exchange) (rest : List Exchange) (r : RackId) (w : RackWindow), s.bus.inFlight = none →
      s.bus.queues[q] = e :: rest → (∀ p : Fin 6, p < q → s.bus.queues[p] = []) → GoesTo e r w s →
      let number := s.bus.number + 1
      let position := ((e.slot?).map (fun a : SlotAddr => BitVec.ofNat 8 (a.val - w.base))).getD 255
      let x : InFlight :=
        { exchange := e, rack := r, position := position, number := number, settle := w.settle, answer := none, doomed := false }
      classOf e = q.val + 1 ∧ exec .exchangeStart s = .next { s with
        bus := { queues := s.bus.queues.set q rest, inFlight := some x, number := number },
        pins := { s.pins with rackBus := busFrame 0x5A x (requestParams e) } }) ∧
    (∀ (x : InFlight) (bytes : List Byte), s.bus.inFlight = some x →
      (∀ params : List Byte, x.answer = none → params.length = answerSize x.exchange → bytes = busFrame 0x5B x params →
        exec (.exchangeAnswer bytes) s = .next { s with bus := { s.bus with inFlight := some { x with answer := some params } } }) ∧
      (x.answer ≠ none ∨ (∀ params : List Byte, params.length = answerSize x.exchange → bytes ≠ busFrame 0x5B x params) →
        exec (.exchangeAnswer bytes) s = .next s)) ∧
    (s.bus.inFlight = none → ∀ bytes, exec (.exchangeAnswer bytes) s = .next s)

/-- EXCHANGE_COMPLETE: nothing without a good answer. A SCAN's answer makes its rack ONLINE and compares each position with its slot:
a new device's slot becomes PROBING and is probed, a slot found empty is emptied, with an unissued device UNSEEN; an owed CLEAR is
requested. SET_CHARGE stores the level; CLEAR ends the device's clear_state; a removed rack's answer is not acted on. That the command
without a good answer changes nothing is the model's choice (assumption 12). -/
def Obligations.ExchangeCompletes : Prop :=
  ∀ s : State, WindowsSound s → DevicesSound s →
    ((∀ x, s.bus.inFlight = some x → x.answer = none) → exec .exchangeComplete s = .next s) ∧
    (∀ (x : InFlight) (params : List Byte), s.bus.inFlight = some x → x.answer = some params → x.doomed = true →
      (∀ o ∈ s.ops, ∀ c, o.candidate = some c → x.exchange.slot? ≠ some c.slot) →
      exec .exchangeComplete s = .next { s with
        bus := { s.bus with inFlight := none },
        devices := s.devices.map (fun d =>
          if ∃ a, x.exchange = .clear a d.id then { d with clearState := .owed } else d) }) ∧
    (∀ (a : SlotAddr) (x : Slot) (m : ChargeMode) (level : Byte), Answered (.setCharge a m) [level] s → s.slots[a] = some x →
      exec .exchangeComplete s = .next (heard a x level s)) ∧
    (∀ (a : SlotAddr) (x : Slot) (id : DeviceId), Answered (.clear a id) [] s → s.slots[a] = some x →
      exec .exchangeComplete s = .next { s with
        bus := { s.bus with inFlight := none }, slots := s.slots.set a (some { x with timeouts := 0 }),
        devices := s.devices.map (fun d => if d.id = id then { d with clearState := .none } else d) }) ∧
    ∀ (r : RackId) (w : RackWindow) (flags : BitVec 32), Answered (.scan r) (le32 flags.toNat) s → s.racks[r] = some w →
      let there := fun a : SlotAddr => flags.getLsbD (a.val - w.base)
      let occupancy := fun a : SlotAddr => (s.slots[a]).map Slot.occupancy
      let nothingGone := ∀ a : SlotAddr, w.holds a = true → occupancy a ≠ some .empty → there a = true
      let owes := fun (a : SlotAddr) (d : Device) => w.holds a = true ∧ d.state = .docked ∧ d.clearState = .owed ∧
        ∃ x ∈ s.slots[a], x.occupancy = .occupied ∧ x.deviceId = some d.id ∧ x.reservation = none
      ∃ t, exec .exchangeComplete s = .next t ∧ t.bus.inFlight = none ∧
        (∃ v, t.racks[r] = some v ∧ v.rackState = .online ∧ v.scanMisses = 0) ∧
        (∀ a : SlotAddr, w.holds a = true →
          (t.slots[a]).map Slot.occupancy =
            if there a then (if occupancy a = some .empty then some .probing else occupancy a) else some .empty) ∧
        (∀ a : SlotAddr, w.holds a = true → there a = false → ∀ x, s.slots[a] = some x → x.occupancy ≠ .empty →
          ∀ d ∈ s.devices, x.deviceId = some d.id →
          (d.state = .docked → (t.events[(20 : EventId)]).raw = true ∧ (t.device? d.id).map Device.state = some .unseen) ∧
          (d.state = .out → (t.device? d.id).map Device.state = some .out) ∧
          (d.state ≠ .unseen → (t.device? d.id).bind Device.slot = none)) ∧
        (nothingGone →
          (∀ d ∈ s.devices, ∀ a : SlotAddr, owes a d → (∀ b : SlotAddr, b ≠ a → (s.slots[b]).bind Slot.deviceId ≠ some d.id) →
            (s.bus.queues[(4 : Fin 6)]).length + w.size ≤ 64 →
            .clear a d.id ∈ t.bus.queues[(4 : Fin 6)] ∧ (t.device? d.id).map Device.clearState = some .queued) ∧
          ((∀ d ∈ s.devices, ∀ a : SlotAddr, ¬ owes a d) →
            let asks := (List.finRange 256).filter (fun a => w.holds a && there a && (decide (occupancy a = some .empty) ||
              (decide (occupancy a = some .probing) && decide (Exchange.probe a ∉ s.bus.queues[(2 : Fin 6)]))))
            let probing := fun x : Slot => if x.occupancy = .empty then { x with occupancy := .probing } else x
            let slots := Vector.ofFn (fun a : SlotAddr => if w.holds a && there a then (s.slots[a]).map probing else s.slots[a])
            t = asked 2 (asks.map Exchange.probe) { s with
              bus := { s.bus with inFlight := none },
              racks := s.racks.set r (some { w with rackState := .online, scanMisses := 0 }), slots := slots }))

/-- A completed PROBE is judged: a fault flag, an id 0 or an unknown kind faults the slot; another slot that names the device is
emptied; a new id takes a record, or faults the slot when the table is full; a known id in no other slot is DOCKED here; an OUT
device returns: its group's count falls, its roster entry is freed, DEVICE_RETURNED is raised, a CLOSING group it leaves empty
becomes FREE, and a CLEAR is requested. The slot then enters charging. That the emptying of another slot leads on to OCCUPIED here is said
where the id has its record, as NamesSound has it for a named id, or the table has room. The order in which returned cells join the free list is the model's
choice (assumption 3), and so is a new record's place in the device table, at its end (assumption 22). -/
def Obligations.ProbeIsJudged : Prop :=
  ∀ (a : SlotAddr) (x : Slot) (id : DeviceId) (kind level fault : Byte) (s : State), WindowsSound s → DevicesSound s →
    Answered (.probe a) (le32 id.toNat ++ [kind, level, fault]) s → s.slots[a] = some x → x.occupancy = .probing → x.phase = .none →
    (∀ (q : Fin 6) (e : Exchange), e ∈ s.bus.queues[q] → e.slot? = some a → e = .probe a) →
    let free : State := { s with bus := { s.bus with inFlight := none } }
    let gone : State := { s with bus := { s.bus with
      inFlight := none, queues := s.bus.queues.set 2 ((s.bus.queues[(2 : Fin 6)]).filter (fun e => e ≠ .probe a)) } }
    let faulted := fun c : FaultCause => { x with occupancy := .fault, faultCause := some c, deviceId := none, timeouts := 0 }
    let k : DeviceKind := if kind = 0 then .receiver else .mic
    let n := min 100 level.toNat
    let here := s.slots.set a (some { x with occupancy := .occupied, deviceId := some id, level := n, timeouts := 0 })
    (fault = 1 ∨ id = 0 ∨ 1 < kind.toNat → exec .exchangeComplete s =
      .next (reported 17 a.val 2 { gone with slots := s.slots.set a (some (faulted .device)) })) ∧
    (fault = 0 → id ≠ 0 → kind.toNat ≤ 1 →
      (∀ b : SlotAddr, b ≠ a → ∀ y, s.slots[b] = some y → y.deviceId = some id → y.occupancy ≠ .empty →
        (∀ c : SlotAddr, c ≠ a → c ≠ b → (s.slots[c]).bind Slot.deviceId ≠ some id) → (s.device? id ≠ none ∨ s.devices.length < 384) →
        ∃ t, exec .exchangeComplete s = .next t ∧ (t.slots[b]).map Slot.occupancy = some .empty ∧ (t.slots[b]).bind Slot.deviceId = none ∧
          (t.slots[a]).map Slot.occupancy = some .occupied ∧ namedAt t a = some id ∧
          ∀ d, s.device? id = some d → (t.device? id).map Device.state = some .docked ∧ (t.device? id).bind Device.slot = some a) ∧
      ((∀ b : SlotAddr, b ≠ a → (s.slots[b]).bind Slot.deviceId ≠ some id) →
        (s.device? id = none → s.devices.length < 384 →
          let d : Device := { id := id, kind := k, state := .docked, slot := some a, level := n, assignment := none, clearState := .none }
          exec .exchangeComplete s = .next (enterCharging a { free with slots := here, devices := s.devices ++ [d] })) ∧
        (s.device? id = none → 384 ≤ s.devices.length → exec .exchangeComplete s =
          .next (reported 24 a.val id { gone with slots := s.slots.set a (some (faulted .fleetFull)) })) ∧
        (∀ d, s.device? id = some d → d.state ≠ .out →
          let docked := { d with kind := k, state := .docked, slot := some a, level := n }
          exec .exchangeComplete s =
            .next (enterCharging a { free with slots := here, devices := s.devices.map (fun e => if e.id = id then docked else e) })) ∧
        (∀ d, s.device? id = some d → d.state = .out → ∀ asg, d.assignment = some asg →
          let g := s.groups[asg.group]
          let closes : Prop := g.state = .closing ∧ g.outCount ≤ 1
          let fits : Prop := (s.bus.queues[(4 : Fin 6)]).length < 64
          let docked := { d with kind := k, state := .docked, slot := some a, level := n, assignment := none,
                                 clearState := if fits then .queued else .owed }
          let tied := fun j : SourceId => decide (asg.roster.map Fin.val = some j.val ∧ s.sources[j].state ≠ .off)
          let cells := (List.finRange 14).flatMap (fun j => if tied j then s.sources[j].buffer.chain else [])
          let sources := Vector.ofFn (fun j : SourceId => if tied j then s.sources[j].rested .off else s.sources[j])
          let roster := Vector.ofFn (fun i : RosterId => if asg.roster = some i then .free else s.roster[i])
          let left := if closes then { g with state := .free, channel := none, outCount := 0 } else { g with outCount := g.outCount - 1 }
          let fewer := fun ch : Channel => { ch with boundGroups := ch.boundGroups - 1 }
          let channels := Vector.ofFn (fun c : ChannelId =>
            if closes ∧ g.channel = some c then fewer s.channels[c] else s.channels[c])
          let back := asked 4 [.clear a id] (reported 21 a.val id { free with
            slots := here, devices := s.devices.map (fun e => if e.id = id then docked else e),
            groups := s.groups.set asg.group left, channels := channels, roster := roster, sources := sources,
            pool := { s.pool with freeList := s.pool.freeList ++ cells } })
          exec .exchangeComplete s = .next (enterCharging a (if closes then
            reported 23 asg.group.val (BitVec.ofNat 32 ((g.channel.map Fin.val).getD 0)) back else back)))))

/-- EXCHANGE_TIMEOUT: a SCAN's first miss is counted, its second makes the rack UNREACHABLE and empties its slots; a slot exchange's
first timeout raises DOCK_TIMEOUT, a PROBE being asked again, a SET_CHARGE and a CLEAR owed, and its second puts the slot in FAULT.
An exchange with its answer, or of a removed rack, counts no timeout. That the command changes nothing with no exchange in flight or with
its answer there is the model's choice (assumption 12). -/
def Obligations.ExchangeTimesOut : Prop :=
  ∀ s : State, WindowsSound s → DevicesSound s →
    ((∀ x, s.bus.inFlight = some x → x.answer ≠ none) → exec .exchangeTimeout s = .next s) ∧
    (∀ (x : InFlight), s.bus.inFlight = some x → x.answer = none → x.doomed = true →
      (∀ o ∈ s.ops, ∀ c, o.candidate = some c → x.exchange.slot? ≠ some c.slot) →
      exec .exchangeTimeout s = .next { s with
        bus := { s.bus with inFlight := none },
        devices := s.devices.map (fun d =>
          if ∃ a, x.exchange = .clear a d.id then { d with clearState := .owed } else d) }) ∧
    (∀ (r : RackId) (w : RackWindow), Unanswered (.scan r) s → s.racks[r] = some w →
      let free : State := { s with bus := { s.bus with inFlight := none } }
      (w.rackState = .unreachable → exec .exchangeTimeout s = .next free) ∧
      (w.rackState = .online → w.scanMisses = 0 →
        exec .exchangeTimeout s = .next { free with racks := s.racks.set r (some { w with scanMisses := 1 }) }) ∧
      (w.rackState = .online → w.scanMisses ≠ 0 → ∃ t v, exec .exchangeTimeout s = .next t ∧ t.racks[r] = some v ∧
        v.rackState = .unreachable ∧ v.scanMisses = 2 ∧ v.budget = w.budget ∧ v.scanTimer = w.scanTimer ∧ Raised 18 r.val 0 s t ∧
        ∀ a : SlotAddr, w.holds a = true → (t.slots[a]).map Slot.occupancy = some .empty)) ∧
    ∀ (e : Exchange) (a : SlotAddr) (x : Slot), Unanswered e s → e.slot? = some a → s.slots[a] = some x →
      let free : State := { s with bus := { s.bus with inFlight := none } }
      let missed := reported 16 a.val (BitVec.ofNat 32 (kindCode e)) { free with slots := s.slots.set a (some { x with timeouts := 1 }) }
      (x.timeouts = 0 → e = .probe a → x.occupancy = .probing → exec .exchangeTimeout s = .next (asked 2 [.probe a] missed)) ∧
      (x.timeouts = 0 → e = .poll a → exec .exchangeTimeout s = .next missed) ∧
      (∀ m, x.timeouts = 0 → e = .setCharge a m → exec .exchangeTimeout s = .next (missed.setSlot a
        (some { x with timeouts := 1, setOwed := x.setOwed || decide (x.occupancy = .occupied ∧ x.phase ≠ .none) }))) ∧
      (∀ id, x.timeouts = 0 → e = .clear a id → exec .exchangeTimeout s =
        .next { missed with devices := s.devices.map (fun d => if d.id = id then { d with clearState := .owed } else d) }) ∧
      (x.timeouts ≠ 0 → ∃ t y, exec .exchangeTimeout s = .next t ∧ t.slots[a] = some y ∧ y.occupancy = .fault ∧
        y.faultCause = some .timeout ∧ y.timeouts = 2 ∧ y.deviceId = x.deviceId ∧ y.level = x.level ∧ Raised 17 a.val 1 s t ∧
        t.bus.inFlight = none ∧ ∀ q : Fin 6, ∀ f ∈ t.bus.queues[q], f.slot? ≠ some a)

/-- SLOT_STATUS reports the slot's record, its rack's state, its queued exchanges and the one in flight, and changes nothing.
SLOT_CLEAR_FAULT takes a FAULT slot to PROBING, its DOCKED device to UNSEEN, and requests a PROBE; any other slot is WRONG_STATE. That the
count of queued exchanges is reported as 255 at most is deduced (assumption 20). -/
def Obligations.SlotRequests : Prop :=
  ∀ (tag : Byte) (s : State) (a : SlotAddr), ServesNow s → WindowsSound s → DevicesSound s →
    (s.slots[a] = none → exec (.slotStatus tag (le8 a.val)) s = .next (replied 0x34 tag 0x06 [] s) ∧
      exec (.slotClearFault tag (le8 a.val)) s = .next (replied 0x35 tag 0x06 [] s)) ∧
    ∀ (x : Slot), s.slots[a] = some x →
      (∀ (r : RackId) (w : RackWindow), s.racks[r] = some w → w.holds a = true →
        let queued := (∑ q : Fin 6, ((s.bus.queues[q]).filter (fun e => e.slot? = some a)).length)
        let busy : List Byte := match s.bus.inFlight with
          | some y => if y.exchange.slot? = some a ∧ y.doomed = false then le8 (kindCode y.exchange) else [0]
          | none => [0]
        exec (.slotStatus tag (le8 a.val)) s = .next (replied 0x34 tag 0x00
          (le8 a.val ++ le8 r.val ++ le8 (match w.rackState with | .online => 0 | .unreachable => 1) ++ le8 w.scanMisses ++
            le8 (match x.occupancy with | .empty => 0 | .probing => 1 | .occupied => 2 | .fault => 3) ++ leFlag x.deviceId.isSome ++
            le32 (x.deviceId.getD 0).toNat ++ le8 x.level ++ le8 x.timeouts ++
            le8 (match x.faultCause with | none => 0 | some .timeout => 1 | some .device => 2 | some .fleetFull => 3) ++
            leFlag x.released ++
            le8 (match x.phase with | .none => 0 | .waiting => 1 | .bulk => 2 | .top => 3 | .full => 4) ++
            le8 (x.reservation.getD 0) ++ le8 (min 255 queued) ++ busy) s)) ∧
      (x.occupancy ≠ .fault → exec (.slotClearFault tag (le8 a.val)) s = .next (replied 0x35 tag 0x07 [] s)) ∧
      (x.occupancy = .fault → exec (.slotClearFault tag (le8 a.val)) s = .next (replied 0x35 tag 0x00 [] (asked 2 [.probe a]
        { s with
          slots := s.slots.set a
            (some { x with occupancy := .probing, deviceId := none, faultCause := none, level := 0, timeouts := 0 }),
          devices := s.devices.map (fun d =>
            if x.deviceId = some d.id ∧ d.state = .docked then { d with state := .unseen, slot := none } else d) })))

/-! ## Charging -/

/-- An attempt at admission admits heads of the queue, shed slots before microphones before receivers, as long as each fits the budget; a slot enters charging by its level; an answered
POLL is judged by the phase its slot holds; and a running poll timer's expiry restarts it, requests one POLL, and a SET_CHARGE owed. That
the expiry of a timer that does not run changes nothing is the model's choice (assumption 12). -/
def Obligations.AdmissionAndPolls : Prop :=
  ∀ (r : RackId) (w : RackWindow) (a : SlotAddr) (x : Slot) (s : State), WindowsSound s → s.racks[r] = some w → w.holds a = true →
    s.slots[a] = some x →
    let unqueued := { w with shedPart := w.shedPart.erase a, micPart := w.micPart.erase a, receiverPart := w.receiverPart.erase a }
    (admissionOrder w = [] → attempt r s = s) ∧
    (∀ rest, admissionOrder w = a :: rest →
      let bulk := decide (x.level < s.charge.topLevel)
      let draw := if bulk then 450 else 120
      let v := { unqueued with sessions := w.sessions ++ [a], committed := w.committed + draw }
      let y := { x with phase := if bulk then .bulk else .top, topCounter := if bulk then 0 else s.charge.topPolls }
      (w.budget < w.committed + draw → attempt r s = s) ∧
      (w.committed + draw ≤ w.budget → x.occupancy = .occupied →
        attempt r s = attempt r (told a (if bulk then .bulk else .top) ((s.setRack r (some v)).setSlot a (some y))))) ∧
    (
      let z := { x with phase := if x.level < 100 then .waiting else .full, topCounter := 0, setOwed := false,
                        pollTimer := some s.charge.pollPeriod }
      let mic := decide (((x.deviceId.bind s.device?).map Device.kind) = some .mic)
      let v := if mic then { w with micPart := w.micPart ++ [a] } else { w with receiverPart := w.receiverPart ++ [a] }
      enterCharging a s = if x.level < 100 then attempt r ((s.setRack r (some v)).setSlot a (some z)) else s.setSlot a (some z)) ∧
    (∀ level : Byte, Answered (.poll a) [level, 0] s → x.occupancy = .occupied →
      let n := min 100 level.toNat
      let t := heard a x level s
      let y := { x with timeouts := 0, level := n }
      let attempted := fun u : State => if (admissionOrder w).head? = some a then attempt r u else u
      (x.phase = .none → exec .exchangeComplete s = .next t) ∧
      (x.phase = .waiting → exec .exchangeComplete s = .next (attempted (if n = 100 then
        (t.setRack r (some unqueued)).setSlot a (some { y with phase := .full }) else t))) ∧
      (x.phase = .bulk → exec .exchangeComplete s = .next (if s.charge.topLevel ≤ n then
        attempt r (told a .top ((t.setRack r (some { w with committed := w.committed - 330 })).setSlot a
          (some { y with phase := .top, topCounter := s.charge.topPolls }))) else t)) ∧
      (x.phase = .top → exec .exchangeComplete s = .next (if n = 100 ∨ x.topCounter ≤ 1 then
        attempt r (told a .off ((t.setRack r (some { w with sessions := w.sessions.erase a, committed := w.committed - 120 })).setSlot a
          (some { y with phase := .full, topCounter := 0 }))) else t.setSlot a (some { y with topCounter := x.topCounter - 1 }))) ∧
      (x.phase = .full → s.charge.rechargeLevel ≤ n → exec .exchangeComplete s = .next t) ∧
      (x.phase = .full → n < s.charge.rechargeLevel →
        let mic := decide (((x.deviceId.bind s.device?).map Device.kind) = some .mic)
        let v := if mic then { w with micPart := w.micPart ++ [a] } else { w with receiverPart := w.receiverPart ++ [a] }
        exec .exchangeComplete s = .next (attempt r ((t.setRack r (some v)).setSlot a (some { y with phase := .waiting }))))) ∧
    (∀ level : Byte, Answered (.poll a) [level, 1] s → ∃ t y, exec .exchangeComplete s = .next t ∧ t.slots[a] = some y ∧
      y.occupancy = .fault ∧ y.faultCause = some .device ∧ y.deviceId = x.deviceId ∧ y.level = min 100 level.toNat ∧
      Raised 17 a.val 2 s t) ∧
    (x.pollTimer = none → exec (.pollTimerExpiry a) s = .next s) ∧
    (x.pollTimer ≠ none → x.occupancy = .occupied →
      let asks := if .poll a ∈ s.bus.queues[(5 : Fin 6)] then [] else [Exchange.poll a]
      let t := asked 5 asks (s.setSlot a (some { x with pollTimer := some s.charge.pollPeriod, setOwed := false }))
      let mode : ChargeMode := match x.phase with
        | .bulk => .bulk
        | .top => .top
        | _ => .off
      exec (.pollTimerExpiry a) s = .next (if x.setOwed then told a mode t else t))

/-- RACK_BUDGET reads the account, or writes a budget: raised, an attempt follows; lowered below the committed draw, sessions are shed,
BULK from the newest, then TOP, until it fits, put back at the queue's head in the order of their admission, and BUDGET_SHED is
raised. CHARGE_CONFIG reads the settings, or clamps and stores them and attempts an admission for every rack. That a read of the settings
brings no attempt is the model's choice (assumption 29). -/
def Obligations.ChargeRequests : Prop :=
  ∀ (tag : Byte) (s : State), ServesNow s → WindowsSound s →
    (∀ body : List Byte, body.length = 1 ∨ body.length = 3 → 7 < (body.getD 0 0).toNat →
      exec (.rackBudget tag body) s = .next (replied 0x32 tag 0x06 [] s)) ∧
    (∀ r : RackId, s.racks[r] = none → exec (.rackBudget tag (le8 r.val)) s = .next (replied 0x32 tag 0x07 [] s)) ∧
    (∀ (r : RackId) (w : RackWindow) (money : BitVec 16), s.racks[r] = some w →
      let budget := min 10000 money.toNat
      let written := { w with budget := budget }
      let raised := attempt r (s.setRack r (some written))
      exec (.rackBudget tag (le8 r.val)) s = .next (replied 0x32 tag 0x00 (accountFields r w 0 s) s) ∧
      (w.committed ≤ budget → budget ≤ w.budget → exec (.rackBudget tag (le8 r.val ++ le16 money.toNat)) s =
        .next (replied 0x32 tag 0x00 (accountFields r written 0 s) (s.setRack r (some written)))) ∧
      (w.committed ≤ budget → w.budget < budget → ∃ v, raised.racks[r] = some v ∧
        exec (.rackBudget tag (le8 r.val ++ le16 money.toNat)) s = .next (replied 0x32 tag 0x00 (accountFields r v 0 raised) raised)) ∧
      (budget < w.committed → w.sessions.Nodup → (∀ a ∈ w.sessions, (s.slots[a]).map Slot.occupancy = some .occupied ∧ drawOf s a ≠ 0) →
        w.committed = (w.sessions.map (drawOf s)).sum →
        let n := shedCount budget w s
        let gone := (sheddingOrder w s).take n
        let left := { written with sessions := w.sessions.filter (fun a => a ∉ gone),
                                   committed := w.committed - (gone.map (drawOf s)).sum,
                                   shedPart := w.sessions.filter (fun a => a ∈ gone) ++ w.shedPart }
        let off := fun x : Slot => { x with phase := .waiting, topCounter := 0 }
        let slots := Vector.ofFn (fun a : SlotAddr => if a ∈ gone then (s.slots[a]).map off else s.slots[a])
        let cut := gone.foldl (fun u a => told a .off u) { s.setRack r (some left) with slots := slots }
        ∃ (t : State) (v : RackWindow), exec (.rackBudget tag (le8 r.val ++ le16 money.toNat)) s = .next t ∧ t.racks[r] = some v ∧
          v.budget = budget ∧ v.committed ≤ budget ∧
          t = attempt r (reported 19 r.val (BitVec.ofNat 32 n) (replied 0x32 tag 0x00 (accountFields r v n t) cut)))) ∧
    (
      let fields := fun c : ChargeSettings => le8 c.pollPeriod ++ le8 c.topLevel ++ le8 c.rechargeLevel ++ le16 c.topPolls
      exec (.chargeConfig tag []) s = .next (replied 0x33 tag 0x00 (fields s.charge) s) ∧
      ∀ (period top recharge : Byte) (polls : BitVec 16),
        let c : ChargeSettings :=
          { pollPeriod := max 1 (min 60 period.toNat), topLevel := max 50 (min 100 top.toNat),
            rechargeLevel := max 50 (min 100 recharge.toNat), topPolls := max 1 (min 3000 polls.toNat) }
        exec (.chargeConfig tag ([period, top, recharge] ++ le16 polls.toNat)) s = .next (replied 0x33 tag 0x00 (fields c)
          (((List.finRange 8).filter (fun r => (s.racks[r]).isSome)).foldl (fun u r => attempt r u) { s with charge := c })))

/-- No rack's committed draw exceeds its budget: every step keeps this, where the accounts are sound (AccountsSound, an invariant by
DockLawsKept), and, whatever the accounts, every step but a RACK_BUDGET. -/
def Obligations.BudgetsRespectedKept : Prop :=
  ∀ s t : State, BudgetsRespected s → step s = .next t → (AccountsSound s → BudgetsRespected t) ∧
    ((∀ tag body, s.pending.head? ≠ some (.rackBudget tag body)) →
      (s.pending.head? = some .requestService → ∀ f, s.link.requests.head? = some f → f.kind ≠ 0x32) → BudgetsRespected t)

/-! ## Fleet, groups and issue -/

/-- DEVICE_READ reports the record with an id, or the record at a place in increasing order of id; DEVICE_FORGET removes an UNSEEN
record. GROUP_OPEN, GROUP_CLOSE and GROUP_STATUS open a group on a channel that is not CLOSED, close one (CLOSING while devices are
out) and report one. -/
def Obligations.FleetRequests : Prop :=
  ∀ (tag : Byte) (s : State), ServesNow s → DevicesSound s →
    (∀ d ∈ s.devices,
      let roster := d.assignment.bind Assignment.roster
      let or255 := fun o : Option Nat => le8 (o.getD 255)
      let fields := le16 s.devices.length ++ le32 d.id.toNat ++ le8 (match d.kind with | .receiver => 0 | .mic => 1) ++
        le8 (match d.state with | .docked => 0 | .out => 1 | .unseen => 2) ++ or255 (d.slot.map Fin.val) ++ leFlag d.slot.isSome ++
        le8 d.level ++ leFlag d.assignment.isSome ++ or255 (d.assignment.map (fun x => x.group.val)) ++
        or255 (d.assignment.map (fun x => x.channel.val)) ++ or255 (roster.map Fin.val) ++
        le8 (match d.clearState with | .none => 0 | .owed => 1 | .queued => 2)
      let others := s.devices.filter (fun e => e.id ≠ d.id)
      exec (.deviceRead tag (le32 d.id.toNat)) s = .next (replied 0x38 tag 0x00 fields s) ∧
      exec (.deviceRead tag (le16 (s.devices.filter (fun e => e.id.toNat < d.id.toNat)).length)) s =
        .next (replied 0x38 tag 0x00 fields s) ∧
      exec (.deviceForget tag (le32 d.id.toNat)) s = .next (if d.state = .unseen then
        replied 0x39 tag 0x00 (le16 others.length) { s with devices := others } else replied 0x39 tag 0x07 [] s)) ∧
    (∀ id : DeviceId, (∀ d ∈ s.devices, d.id ≠ id) →
      exec (.deviceRead tag (le32 id.toNat)) s = .next (replied 0x38 tag 0x06 [] s) ∧
      exec (.deviceForget tag (le32 id.toNat)) s = .next (replied 0x39 tag 0x06 [] s)) ∧
    (∀ n : BitVec 16, s.devices.length ≤ n.toNat → exec (.deviceRead tag (le16 n.toNat)) s = .next (replied 0x38 tag 0x06 [] s)) ∧
    (∀ b c : Byte, 23 < b.toNat ∨ 15 < c.toNat → exec (.groupOpen tag [b, c]) s = .next (replied 0x3C tag 0x06 [] s)) ∧
    (∀ b : Byte, 23 < b.toNat → exec (.groupClose tag [b]) s = .next (replied 0x3D tag 0x06 [] s) ∧
      exec (.groupStatus tag [b]) s = .next (replied 0x3E tag 0x06 [] s)) ∧
    ∀ g : GroupId, let x := s.groups[g]
      (∀ c : ChannelId,
        (x.state ≠ .free ∨ s.channels[c].state = .closed →
          exec (.groupOpen tag (le8 g.val ++ le8 c.val)) s = .next (replied 0x3C tag 0x07 [] s)) ∧
        (x.state = .free → s.channels[c].state ≠ .closed →
          let y : Group := { state := .opened, channel := some c, outCount := 0, issueHandle := none, lastIssue := none }
          let ch := { s.channels[c] with boundGroups := s.channels[c].boundGroups + 1 }
          exec (.groupOpen tag (le8 g.val ++ le8 c.val)) s = .next (replied 0x3C tag 0x00 (le8 g.val ++ le8 c.val)
            { s with groups := s.groups.set g y, channels := s.channels.set c ch }))) ∧
      (x.state = .free → exec (.groupClose tag (le8 g.val)) s = .next (replied 0x3D tag 0x07 [] s)) ∧
      (x.state ≠ .free → x.issueHandle ≠ none → exec (.groupClose tag (le8 g.val)) s = .next (replied 0x3D tag 0x02 [] s)) ∧
      (∀ c : ChannelId, x.state = .opened → x.issueHandle = none → x.outCount = 0 → x.channel = some c →
        let ch := { s.channels[c] with boundGroups := s.channels[c].boundGroups - 1 }
        exec (.groupClose tag (le8 g.val)) s = .next (replied 0x3D tag 0x00 [0]
          { s with groups := s.groups.set g { x with state := .free, channel := none }, channels := s.channels.set c ch })) ∧
      (x.state = .closing ∨ (x.state = .opened ∧ x.outCount ≠ 0) → x.issueHandle = none → exec (.groupClose tag (le8 g.val)) s =
        .next (replied 0x3D tag 0x00 [2] { s with groups := s.groups.set g { x with state := .closing } })) ∧
      exec (.groupStatus tag (le8 g.val)) s = .next (replied 0x3E tag 0x00
        (le8 g.val ++ le8 (match x.state with | .free => 0 | .opened => 1 | .closing => 2) ++ le8 ((x.channel.map Fin.val).getD 255) ++
          le16 x.outCount ++ le8 (x.issueHandle.getD 0) ++ leFlag x.lastIssue.isSome ++
          (match x.lastIssue with
            | none => [0, 0, 0, 0]
            | some l => le8 l.issued ++ le8 l.count ++ leFlag l.retuned ++ leFlag l.cancelled)) s)

/-- ISSUE, after its checks in their order, starts an operation, holds a MIC's roster entry, and goes on to its first candidate behind
the reply ACCEPTED; ISSUE_CANCEL sets the operation's cancel flag; ISSUE_STATUS reports the operation. -/
def Obligations.IssueRequests : Prop :=
  ∀ (tag : Byte) (s : State), ServesNow s → IssuesSound s →
    (∀ (group kind count entry : Byte) (long : Bool) (least : Byte),
      let body := [group, kind, count, entry] ++ (if long then [least] else [])
      let mic := decide (kind = 1)
      let bad := 1 < kind.toNat ∨ count = 0 ∨ 64 < count.toNat ∨ (kind = 1 ∧ (count ≠ 1 ∨ 11 < entry.toNat))
      (23 < group.toNat → exec (.issue tag body) s = .next (replied 0x40 tag 0x06 [] s)) ∧
      ∀ g : GroupId, g.val = group.toNat →
        (bad → exec (.issue tag body) s = .next (replied 0x40 tag 0x05 [] s)) ∧
        (¬ bad → s.groups[g].state ≠ .opened → exec (.issue tag body) s = .next (replied 0x40 tag 0x07 [] s)) ∧
        (¬ bad → s.groups[g].state = .opened → s.groups[g].issueHandle ≠ none →
          exec (.issue tag body) s = .next (replied 0x40 tag 0x02 [] s)) ∧
        (¬ bad → s.groups[g].state = .opened → s.groups[g].issueHandle = none → s.ops.length = 4 →
          exec (.issue tag body) s = .next (replied 0x40 tag 0x09 [] s)) ∧
        (¬ bad → s.groups[g].state = .opened → s.groups[g].issueHandle = none → s.ops.length < 4 →
          let taken := ∃ k : RosterId, mic = true ∧ k.val = entry.toNat ∧ s.roster[k] ≠ .free
          (taken → exec (.issue tag body) s = .next (replied 0x40 tag 0x0A [] s)) ∧
          (¬ taken →
            let o : IssueOperation :=
              { group := g, kind := if mic then .mic else .receiver, count := count.toNat,
                minLevel := if long then min 100 least.toNat else 80,
                roster := if mic then (List.finRange 12).find? (fun k => k.val = entry.toNat) else none, issued := 0,
                cancel := false, retuned := false, candidate := none, tried := [] }
            let held := Vector.ofFn (fun k : RosterId => if o.roster = some k then .held (g.val + 1) else s.roster[k])
            exec (.issue tag body) s = .next (nextOrComplete g (replied 0x40 tag 0x01 (le8 (g.val + 1)) { s with
              groups := s.groups.set g { s.groups[g] with issueHandle := some (g.val + 1), lastIssue := none },
              roster := held, ops := s.ops ++ [o] }))))) ∧
    (∀ b : Byte, 23 < b.toNat → exec (.issueCancel tag [b]) s = .next (replied 0x41 tag 0x06 [] s) ∧
      exec (.issueStatus tag [b]) s = .next (replied 0x42 tag 0x06 [] s)) ∧
    (∀ g : GroupId, (∀ o ∈ s.ops, o.group ≠ g) → exec (.issueCancel tag (le8 g.val)) s = .next (replied 0x41 tag 0x07 [] s) ∧
      exec (.issueStatus tag (le8 g.val)) s = .next (replied 0x42 tag 0x07 [] s)) ∧
    (∀ o ∈ s.ops,
      exec (.issueCancel tag (le8 o.group.val)) s = .next (replied 0x41 tag 0x00 (le8 o.issued ++ le8 o.count)
        { s with ops := s.ops.map (fun p => if p.group = o.group then { p with cancel := true } else p) }) ∧
      ∀ c, o.candidate = some c → exec (.issueStatus tag (le8 o.group.val)) s = .next (replied 0x42 tag 0x00
        (le8 (o.group.val + 1) ++ le8 (match o.kind with | .receiver => 0 | .mic => 1) ++ le8 o.count ++ le8 o.minLevel ++
          le8 ((o.roster.map Fin.val).getD 255) ++ le8 o.issued ++ leFlag o.cancel ++ leFlag o.retuned ++ le8 c.slot.val ++
          le8 (match c.stage with | .tune => 1 | .release => 2) ++ le8 c.tunedChannel.val ++ le16 o.tried.length) s))

/-- An operation goes on after a candidate's outcome: cancelled, or with no slot to choose, it completes; otherwise the best slot is
reserved, its charging ends and its TUNE is requested. A TUNE's answer brings the RELEASE, the RELEASE's answer hands the device out,
and a timeout of either fails the candidate, whose slot joins the tried list and goes back to charging, with nothing owed even when the
SET_CHARGE OFF is DROPPED (deduced, assumption 21). A candidate fails too by the DISCARDED of its queued TUNE or RELEASE, when a POLL's answer
faults the slot; by a second timeout, which faults the slot; and when its slot is emptied: the slot then does not go back to charging. -/
def Obligations.CandidatesAndOutcomes : Prop :=
  ∀ (o : IssueOperation) (s : State), WindowsSound s → DevicesSound s → IssuesSound s → o ∈ s.ops →
    let g := o.group
    let others := fun p : IssueOperation => s.ops.map (fun q => if q.group = g then p else q)
    (o.cancel = true → nextOrComplete g s = completed o s) ∧
    (o.cancel = false → (∀ a, ¬ Choosable o s a) → nextOrComplete g s = completed o s) ∧
    (∀ (a : SlotAddr) (x : Slot) (r : RackId) (w : RackWindow) (c : ChannelId), o.cancel = false → Chosen o s a →
      s.slots[a] = some x → s.racks[r] = some w → w.holds a = true → s.groups[g].channel = some c →
      let y := { x with reservation := some (g.val + 1), phase := .none, topCounter := 0, pollTimer := none, setOwed := false }
      let v := match x.phase with
        | .waiting => { w with shedPart := w.shedPart.erase a, micPart := w.micPart.erase a, receiverPart := w.receiverPart.erase a }
        | .bulk => { w with sessions := w.sessions.erase a, committed := w.committed - 450 }
        | .top => { w with sessions := w.sessions.erase a, committed := w.committed - 120 }
        | _ => w
      let keep := fun e : Exchange => decide (e.slot? ≠ some a)
      let queues := (s.bus.queues.set 3 ((s.bus.queues[(3 : Fin 6)]).filter keep)).set 5 ((s.bus.queues[(5 : Fin 6)]).filter keep)
      let k : Candidate := { slot := a, stage := .tune, tunedChannel := c }
      let u : State := { s with slots := s.slots.set a (some y), racks := s.racks.set r (some v),
                                bus := { s.bus with queues := queues }, ops := others { o with candidate := some k } }
      nextOrComplete g s = asked 1 [.tune a c g o.roster] (attempt r u)) ∧
    ∀ (c : Candidate) (x : Slot) (id : DeviceId), o.candidate = some c → s.slots[c.slot] = some x → x.occupancy = .occupied →
      x.deviceId = some id → (∀ p ∈ s.ops, p.group ≠ g → p.candidate.map Candidate.slot ≠ some c.slot) →
      let a := c.slot
      (∀ (e : Exchange) (level : Byte), Answered e [level] s → c.stage = .tune → (∃ h k, e = .tune a c.tunedChannel h k) →
        let t := heard a x level s
        exec .exchangeComplete s = .next (asked 1 [.release a] { t with
          ops := others { o with candidate := some { c with stage := .release } },
          devices := t.devices.map (fun d =>
            if d.id = id then { d with clearState := if d.clearState = .owed then .none else d.clearState } else d) })) ∧
      (∀ (level : Byte) (h : ChannelId), Answered (.release a) [level] s → c.stage = .release → s.groups[g].channel = some h →
        let t := heard a x level s
        let p := { o with issued := o.issued + 1, candidate := none, retuned := o.retuned || decide (h ≠ c.tunedChannel) }
        let out := fun d : Device => { d with state := .out, assignment := some { group := g, channel := h, roster := o.roster } }
        let y := { x with timeouts := 0, level := min 100 level.toNat, reservation := none, released := true }
        let called := fun j : SourceId => decide (o.kind = .mic ∧ o.roster.map Fin.val = some j.val ∧ s.air.running = true ∧
          s.sources[j].state = .off)
        let sources := Vector.ofFn (fun j : SourceId => if called j then s.sources[j].rested .waiting else s.sources[j])
        let roster := Vector.ofFn (fun i : RosterId => if o.kind = .mic ∧ o.roster = some i then .bound id else s.roster[i])
        let u : State := { t with
          slots := s.slots.set a (some y), ops := others p, sources := sources, roster := roster,
          groups := s.groups.set g { s.groups[g] with outCount := s.groups[g].outCount + 1 },
          devices := t.devices.map (fun d => if d.id = id then out d else d) }
        (∀ j : SourceId, called j = true → s.sources[j].buffer.chain = []) →
        exec .exchangeComplete s = .next (if o.count ≤ o.issued + 1 then completed p u else nextOrComplete g u)) ∧
      (∀ e : Exchange, Unanswered e s → x.timeouts = 0 → (∃ d h k, c.stage = .tune ∧ e = .tune a d h k) ∨ (c.stage = .release ∧ e = .release a) →
        let missed := reported 16 a.val (BitVec.ofNat 32 (kindCode e)) { s with
          bus := { s.bus with inFlight := none }, slots := s.slots.set a (some { x with timeouts := 1, reservation := none }),
          ops := others { o with candidate := none, tried := if a ∈ o.tried then o.tried else o.tried ++ [a] } }
        exec .exchangeTimeout s = .next (nextOrComplete g (enterCharging a (told a .off missed)))) ∧
      let failed := others { o with candidate := none, tried := if a ∈ o.tried then o.tried else o.tried ++ [a] }
      let unasked : Prop := ∀ (q : Fin 6) (e : Exchange), q ≠ 1 → e ∈ s.bus.queues[q] → e.slot? ≠ some a
      let waits := fun e : Exchange => (∃ d h k, c.stage = .tune ∧ e = .tune a d h k) ∨ (c.stage = .release ∧ e = .release a)
      let ofSlot := fun e : Exchange => decide (e.slot? = some a)
      let bus := { s.bus with inFlight := none, queues := s.bus.queues.set 1 ((s.bus.queues[(1 : Fin 6)]).filter (fun e => !(ofSlot e))) }
      (∀ (e : Exchange) (level : Byte), waits e → (s.bus.queues[(1 : Fin 6)]).filter ofSlot = [e] → unasked → AccountsSound s →
        x.phase = .none → Answered (.poll a) [level, 1] s →
        let y := { x with occupancy := .fault, faultCause := some .device, timeouts := 0, level := min 100 level.toNat,
                          reservation := none }
        exec .exchangeComplete s = .next (nextOrComplete g (reported 17 a.val 2
          { heard a x level s with bus := bus, slots := s.slots.set a (some y), ops := failed }))) ∧
      (∀ e : Exchange, waits e → (s.bus.queues[(1 : Fin 6)]).filter ofSlot = [] → unasked → x.phase = .none → x.timeouts ≠ 0 →
        Unanswered e s →
        let y := { x with occupancy := .fault, faultCause := some .timeout, timeouts := 2, reservation := none }
        exec .exchangeTimeout s = .next (nextOrComplete g (reported 17 a.val 1
          { s with bus := bus, slots := s.slots.set a (some y), ops := failed }))) ∧
      ∀ (e : Exchange) (r : RackId) (w : RackWindow) (flags : BitVec 32), waits e → (s.bus.queues[(1 : Fin 6)]).filter ofSlot = [e] →
        unasked → AccountsSound s → x.phase = .none → Answered (.scan r) (le32 flags.toNat) s → s.racks[r] = some w → w.holds a = true →
        (∀ b : SlotAddr, w.holds b = true → (s.slots[b]).map Slot.occupancy ≠ some .probing ∧
          flags.getLsbD (b.val - w.base) = decide (b ≠ a ∧ (s.slots[b]).map Slot.occupancy ≠ some .empty)) →
        (∀ d ∈ s.devices, d.clearState ≠ .owed ∧ (d.id = id → d.state = .docked)) → (∃ d ∈ s.devices, d.id = id) →
        let v := nextOrComplete g { s with
          bus := bus, racks := s.racks.set r (some { w with rackState := .online, scanMisses := 0 }),
          slots := s.slots.set a (some { x with reservation := none }), ops := failed }
        let empty : Slot :=
          { occupancy := .empty, deviceId := none, level := 0, timeouts := 0, faultCause := none, released := false, phase := .none,
            reservation := none, topCounter := 0, pollTimer := none, setOwed := false }
        exec .exchangeComplete s = .next (reported 20 a.val id { v with
          slots := v.slots.set a (some empty),
          devices := v.devices.map (fun d => if d.id = id then { d with state := .unseen, slot := none } else d) })
end

