-- ==== Sys2Proof/Laws/Dock.lean ====
section
/-! SUPPORT. What the laws of the racks and the fleet say together: exactly one slot for a DOCKED device, exactly one operation for a
reserved slot, the premises of shedding; and what a scan of a notice queue places. -/

namespace Sys2Proof.Machine

/-! ## The parts of DockSound -/

theorem DockSound.windows {s : State} (h : DockSound s) : WindowsSound s := h.1.1
theorem DockSound.deviceTable {s : State} (h : DockSound s) : DevicesSound s := h.1.2.1
theorem DockSound.issues {s : State} (h : DockSound s) : IssuesSound s := h.1.2.2
theorem DockSound.accounts {s : State} (h : DockSound s) : AccountsSound s := h.2.1
theorem DockSound.slots {s : State} (h : DockSound s) : SlotsSound s := h.2.2.1
theorem DockSound.names {s : State} (h : DockSound s) : NamesSound s := h.2.2.2.1
theorem DockSound.outCounts {s : State} (h : DockSound s) : OutCountsSound s := h.2.2.2.2.1
theorem DockSound.roster {s : State} (h : DockSound s) : RosterSound s := h.2.2.2.2.2.1
theorem DockSound.candidates {s : State} (h : DockSound s) : CandidatesSound s := h.2.2.2.2.2.2.1
theorem DockSound.exchanges {s : State} (h : DockSound s) : ExchangesSound s := h.2.2.2.2.2.2.2

/-! ## What they say -/

/-- Two records of the table with one id are one record. -/
theorem eq_of_id_eq {s : State} (hd : DevicesSound s) {d e : Device} (h1 : d ∈ s.devices) (h2 : e ∈ s.devices) (h : d.id = e.id) :
    d = e := List.inj_on_of_nodup_map hd.2.1 h1 h2 h

/-- No two slots name one device (R124). -/
theorem namedAt_inj {s : State} (hd : DevicesSound s) (hn : NamesSound s) {a b : SlotAddr} {id : DeviceId}
    (ha : namedAt s a = some id) (hb : namedAt s b = some id) : a = b := by
  obtain ⟨d, hd1, hid, -, hs⟩ := hn.2 a id ha
  obtain ⟨e, he1, hie, -, ht⟩ := hn.2 b id hb
  obtain rfl := eq_of_id_eq hd hd1 he1 (hid.trans hie.symm)
  exact Option.some.inj (hs.symm.trans ht)

/-- Exactly one slot names a DOCKED device (R124). -/
theorem docked_named_once {s : State} (hd : DevicesSound s) (hn : NamesSound s) {d : Device} (h : d ∈ s.devices)
    (hk : d.state = .docked) : ∃! a : SlotAddr, namedAt s a = some d.id := by
  obtain ⟨a, -, ha⟩ := (hn.1 d h).1 hk
  exact ⟨a, ha, fun b hb => namedAt_inj hd hn hb ha⟩

/-- A reserved slot is held by exactly one operation, is OCCUPIED and has no charge phase (R153). -/
theorem reserved_held_once {s : State} (hi : IssuesSound s) (hs : SlotsSound s) (hc : CandidatesSound s) {a : SlotAddr} {x : Slot}
    {h : Nat} (hx : s.slots[a] = some x) (hr : x.reservation = some h) :
    (∃! o : IssueOperation, o ∈ s.ops ∧ o.candidate.map Candidate.slot = some a) ∧ x.occupancy = .occupied ∧ x.phase = .none := by
  have at_a : (s.slots[a]).bind Slot.reservation = some h := by rw [hx]; exact hr
  obtain ⟨o, ho, hh, hcand⟩ := hc.2 a h at_a
  refine ⟨⟨o, ⟨ho, hcand⟩, fun p hp => ?_⟩, (hs a x hx).2.1 (by rw [hr]; simp), ?_⟩
  · obtain ⟨c, hc1, hres, -⟩ := hc.1 p hp.1
    have hslot : c.slot = a := by
      have := hp.2
      rw [show p.candidate = some c from hc1] at this
      exact Option.some.inj this
    subst hslot
    rw [at_a] at hres
    have hg : p.group = o.group := Fin.ext (by have := Option.some.inj hres; omega)
    exact List.inj_on_of_nodup_map hi.2.1 hp.1 ho hg
  · by_contra hp
    have := ((hs a x hx).1 hp).2
    rw [hr] at this
    cases this

/-- What shedding asks of an account (R142) holds wherever the laws do. -/
theorem sessions_ready_to_shed {s : State} (ha : AccountsSound s) (hs : SlotsSound s) {r : RackId} {w : RackWindow}
    (hw : s.racks[r] = some w) : w.sessions.Nodup ∧ w.committed = (w.sessions.map (drawOf s)).sum ∧
      ∀ a ∈ w.sessions, (s.slots[a]).map Slot.occupancy = some .occupied ∧ drawOf s a ≠ 0 := by
  obtain ⟨h1, -, h3, h4⟩ := ha r w hw
  refine ⟨h1, h3, fun a h => ?_⟩
  have hd := ((h4 a).1.mp h).2
  refine ⟨?_, hd⟩
  cases hx : s.slots[a] with
  | none => simp [drawOf, hx] at hd
  | some x =>
    have hp : x.phase ≠ .none := fun hp => by simp [drawOf, hx, hp] at hd
    simp [((hs a x hx).1 hp).1]

/-! ## The scan of a notice queue -/

/-- A scan places no more cells than it has room for (R105). -/
theorem cellSum_scanned_le (m : Count) (l : List NoticeRecord) (room : Nat) : cellSum (scanned m room l) ≤ room := by
  induction l generalizing room with
  | nil => simp [scanned, cellSum]
  | cons n l ih =>
    rw [scanned]
    split
    · next h => have := ih (room - n.cells.length); simp only [cellSum, List.map_cons, List.sum_cons] at this ⊢; omega
    · exact ih room

/-- A scan keeps the order of its queue (R105). -/
theorem scanned_sublist (m : Count) (l : List NoticeRecord) (room : Nat) : (scanned m room l).Sublist l := by
  induction l generalizing room with
  | nil => exact List.Sublist.refl _
  | cons n l ih =>
    rw [scanned]
    split
    · exact (ih _).cons_cons n
    · exact (ih _).cons n

end Sys2Proof.Machine
end

