-- ==== Sys2Proof/Laws/State.lean ====
section
/-! SUPPORT. Reading one field of the state after one of its updates: one lemma per field and update, each true by rfl; and
reading one object of a vector after another has been written. -/

namespace Sys2Proof.Machine

variable (s : State)

/-! setSource writes the field sources alone. -/
@[simp] theorem State.setSource_link (k : SourceId) (x : Source) : (s.setSource k x).link = s.link := rfl
@[simp] theorem State.setSource_air (k : SourceId) (x : Source) : (s.setSource k x).air = s.air := rfl
@[simp] theorem State.setSource_pool (k : SourceId) (x : Source) : (s.setSource k x).pool = s.pool := rfl
@[simp] theorem State.setSource_sources (k : SourceId) (x : Source) : (s.setSource k x).sources = s.sources.set k x := rfl
@[simp] theorem State.setSource_channels (k : SourceId) (x : Source) : (s.setSource k x).channels = s.channels := rfl
@[simp] theorem State.setSource_sched (k : SourceId) (x : Source) : (s.setSource k x).sched = s.sched := rfl
@[simp] theorem State.setSource_racks (k : SourceId) (x : Source) : (s.setSource k x).racks = s.racks := rfl
@[simp] theorem State.setSource_slots (k : SourceId) (x : Source) : (s.setSource k x).slots = s.slots := rfl
@[simp] theorem State.setSource_bus (k : SourceId) (x : Source) : (s.setSource k x).bus = s.bus := rfl
@[simp] theorem State.setSource_charge (k : SourceId) (x : Source) : (s.setSource k x).charge = s.charge := rfl
@[simp] theorem State.setSource_devices (k : SourceId) (x : Source) : (s.setSource k x).devices = s.devices := rfl
@[simp] theorem State.setSource_groups (k : SourceId) (x : Source) : (s.setSource k x).groups = s.groups := rfl
@[simp] theorem State.setSource_ops (k : SourceId) (x : Source) : (s.setSource k x).ops = s.ops := rfl
@[simp] theorem State.setSource_roster (k : SourceId) (x : Source) : (s.setSource k x).roster = s.roster := rfl
@[simp] theorem State.setSource_events (k : SourceId) (x : Source) : (s.setSource k x).events = s.events := rfl
@[simp] theorem State.setSource_pins (k : SourceId) (x : Source) : (s.setSource k x).pins = s.pins := rfl
@[simp] theorem State.setSource_pending (k : SourceId) (x : Source) : (s.setSource k x).pending = s.pending := rfl

/-! setChannel writes the field channels alone. -/
@[simp] theorem State.setChannel_link (k : ChannelId) (x : Channel) : (s.setChannel k x).link = s.link := rfl
@[simp] theorem State.setChannel_air (k : ChannelId) (x : Channel) : (s.setChannel k x).air = s.air := rfl
@[simp] theorem State.setChannel_pool (k : ChannelId) (x : Channel) : (s.setChannel k x).pool = s.pool := rfl
@[simp] theorem State.setChannel_sources (k : ChannelId) (x : Channel) : (s.setChannel k x).sources = s.sources := rfl
@[simp] theorem State.setChannel_channels (k : ChannelId) (x : Channel) : (s.setChannel k x).channels = s.channels.set k x := rfl
@[simp] theorem State.setChannel_sched (k : ChannelId) (x : Channel) : (s.setChannel k x).sched = s.sched := rfl
@[simp] theorem State.setChannel_racks (k : ChannelId) (x : Channel) : (s.setChannel k x).racks = s.racks := rfl
@[simp] theorem State.setChannel_slots (k : ChannelId) (x : Channel) : (s.setChannel k x).slots = s.slots := rfl
@[simp] theorem State.setChannel_bus (k : ChannelId) (x : Channel) : (s.setChannel k x).bus = s.bus := rfl
@[simp] theorem State.setChannel_charge (k : ChannelId) (x : Channel) : (s.setChannel k x).charge = s.charge := rfl
@[simp] theorem State.setChannel_devices (k : ChannelId) (x : Channel) : (s.setChannel k x).devices = s.devices := rfl
@[simp] theorem State.setChannel_groups (k : ChannelId) (x : Channel) : (s.setChannel k x).groups = s.groups := rfl
@[simp] theorem State.setChannel_ops (k : ChannelId) (x : Channel) : (s.setChannel k x).ops = s.ops := rfl
@[simp] theorem State.setChannel_roster (k : ChannelId) (x : Channel) : (s.setChannel k x).roster = s.roster := rfl
@[simp] theorem State.setChannel_events (k : ChannelId) (x : Channel) : (s.setChannel k x).events = s.events := rfl
@[simp] theorem State.setChannel_pins (k : ChannelId) (x : Channel) : (s.setChannel k x).pins = s.pins := rfl
@[simp] theorem State.setChannel_pending (k : ChannelId) (x : Channel) : (s.setChannel k x).pending = s.pending := rfl

/-! setRack writes the field racks alone. -/
@[simp] theorem State.setRack_link (k : RackId) (x : Option RackWindow) : (s.setRack k x).link = s.link := rfl
@[simp] theorem State.setRack_air (k : RackId) (x : Option RackWindow) : (s.setRack k x).air = s.air := rfl
@[simp] theorem State.setRack_pool (k : RackId) (x : Option RackWindow) : (s.setRack k x).pool = s.pool := rfl
@[simp] theorem State.setRack_sources (k : RackId) (x : Option RackWindow) : (s.setRack k x).sources = s.sources := rfl
@[simp] theorem State.setRack_channels (k : RackId) (x : Option RackWindow) : (s.setRack k x).channels = s.channels := rfl
@[simp] theorem State.setRack_sched (k : RackId) (x : Option RackWindow) : (s.setRack k x).sched = s.sched := rfl
@[simp] theorem State.setRack_racks (k : RackId) (x : Option RackWindow) : (s.setRack k x).racks = s.racks.set k x := rfl
@[simp] theorem State.setRack_slots (k : RackId) (x : Option RackWindow) : (s.setRack k x).slots = s.slots := rfl
@[simp] theorem State.setRack_bus (k : RackId) (x : Option RackWindow) : (s.setRack k x).bus = s.bus := rfl
@[simp] theorem State.setRack_charge (k : RackId) (x : Option RackWindow) : (s.setRack k x).charge = s.charge := rfl
@[simp] theorem State.setRack_devices (k : RackId) (x : Option RackWindow) : (s.setRack k x).devices = s.devices := rfl
@[simp] theorem State.setRack_groups (k : RackId) (x : Option RackWindow) : (s.setRack k x).groups = s.groups := rfl
@[simp] theorem State.setRack_ops (k : RackId) (x : Option RackWindow) : (s.setRack k x).ops = s.ops := rfl
@[simp] theorem State.setRack_roster (k : RackId) (x : Option RackWindow) : (s.setRack k x).roster = s.roster := rfl
@[simp] theorem State.setRack_events (k : RackId) (x : Option RackWindow) : (s.setRack k x).events = s.events := rfl
@[simp] theorem State.setRack_pins (k : RackId) (x : Option RackWindow) : (s.setRack k x).pins = s.pins := rfl
@[simp] theorem State.setRack_pending (k : RackId) (x : Option RackWindow) : (s.setRack k x).pending = s.pending := rfl

/-! modRack writes the field racks alone. -/
@[simp] theorem State.modRack_link (k : RackId) (f : RackWindow → RackWindow) : (s.modRack k f).link = s.link := rfl
@[simp] theorem State.modRack_air (k : RackId) (f : RackWindow → RackWindow) : (s.modRack k f).air = s.air := rfl
@[simp] theorem State.modRack_pool (k : RackId) (f : RackWindow → RackWindow) : (s.modRack k f).pool = s.pool := rfl
@[simp] theorem State.modRack_sources (k : RackId) (f : RackWindow → RackWindow) : (s.modRack k f).sources = s.sources := rfl
@[simp] theorem State.modRack_channels (k : RackId) (f : RackWindow → RackWindow) : (s.modRack k f).channels = s.channels := rfl
@[simp] theorem State.modRack_sched (k : RackId) (f : RackWindow → RackWindow) : (s.modRack k f).sched = s.sched := rfl
@[simp] theorem State.modRack_racks (k : RackId) (f : RackWindow → RackWindow) : (s.modRack k f).racks = s.racks.set k (s.racks[k].map f) := rfl
@[simp] theorem State.modRack_slots (k : RackId) (f : RackWindow → RackWindow) : (s.modRack k f).slots = s.slots := rfl
@[simp] theorem State.modRack_bus (k : RackId) (f : RackWindow → RackWindow) : (s.modRack k f).bus = s.bus := rfl
@[simp] theorem State.modRack_charge (k : RackId) (f : RackWindow → RackWindow) : (s.modRack k f).charge = s.charge := rfl
@[simp] theorem State.modRack_devices (k : RackId) (f : RackWindow → RackWindow) : (s.modRack k f).devices = s.devices := rfl
@[simp] theorem State.modRack_groups (k : RackId) (f : RackWindow → RackWindow) : (s.modRack k f).groups = s.groups := rfl
@[simp] theorem State.modRack_ops (k : RackId) (f : RackWindow → RackWindow) : (s.modRack k f).ops = s.ops := rfl
@[simp] theorem State.modRack_roster (k : RackId) (f : RackWindow → RackWindow) : (s.modRack k f).roster = s.roster := rfl
@[simp] theorem State.modRack_events (k : RackId) (f : RackWindow → RackWindow) : (s.modRack k f).events = s.events := rfl
@[simp] theorem State.modRack_pins (k : RackId) (f : RackWindow → RackWindow) : (s.modRack k f).pins = s.pins := rfl
@[simp] theorem State.modRack_pending (k : RackId) (f : RackWindow → RackWindow) : (s.modRack k f).pending = s.pending := rfl

/-! setSlot writes the field slots alone. -/
@[simp] theorem State.setSlot_link (k : SlotAddr) (x : Option Slot) : (s.setSlot k x).link = s.link := rfl
@[simp] theorem State.setSlot_air (k : SlotAddr) (x : Option Slot) : (s.setSlot k x).air = s.air := rfl
@[simp] theorem State.setSlot_pool (k : SlotAddr) (x : Option Slot) : (s.setSlot k x).pool = s.pool := rfl
@[simp] theorem State.setSlot_sources (k : SlotAddr) (x : Option Slot) : (s.setSlot k x).sources = s.sources := rfl
@[simp] theorem State.setSlot_channels (k : SlotAddr) (x : Option Slot) : (s.setSlot k x).channels = s.channels := rfl
@[simp] theorem State.setSlot_sched (k : SlotAddr) (x : Option Slot) : (s.setSlot k x).sched = s.sched := rfl
@[simp] theorem State.setSlot_racks (k : SlotAddr) (x : Option Slot) : (s.setSlot k x).racks = s.racks := rfl
@[simp] theorem State.setSlot_slots (k : SlotAddr) (x : Option Slot) : (s.setSlot k x).slots = s.slots.set k x := rfl
@[simp] theorem State.setSlot_bus (k : SlotAddr) (x : Option Slot) : (s.setSlot k x).bus = s.bus := rfl
@[simp] theorem State.setSlot_charge (k : SlotAddr) (x : Option Slot) : (s.setSlot k x).charge = s.charge := rfl
@[simp] theorem State.setSlot_devices (k : SlotAddr) (x : Option Slot) : (s.setSlot k x).devices = s.devices := rfl
@[simp] theorem State.setSlot_groups (k : SlotAddr) (x : Option Slot) : (s.setSlot k x).groups = s.groups := rfl
@[simp] theorem State.setSlot_ops (k : SlotAddr) (x : Option Slot) : (s.setSlot k x).ops = s.ops := rfl
@[simp] theorem State.setSlot_roster (k : SlotAddr) (x : Option Slot) : (s.setSlot k x).roster = s.roster := rfl
@[simp] theorem State.setSlot_events (k : SlotAddr) (x : Option Slot) : (s.setSlot k x).events = s.events := rfl
@[simp] theorem State.setSlot_pins (k : SlotAddr) (x : Option Slot) : (s.setSlot k x).pins = s.pins := rfl
@[simp] theorem State.setSlot_pending (k : SlotAddr) (x : Option Slot) : (s.setSlot k x).pending = s.pending := rfl

/-! modSlot writes the field slots alone. -/
@[simp] theorem State.modSlot_link (k : SlotAddr) (f : Slot → Slot) : (s.modSlot k f).link = s.link := rfl
@[simp] theorem State.modSlot_air (k : SlotAddr) (f : Slot → Slot) : (s.modSlot k f).air = s.air := rfl
@[simp] theorem State.modSlot_pool (k : SlotAddr) (f : Slot → Slot) : (s.modSlot k f).pool = s.pool := rfl
@[simp] theorem State.modSlot_sources (k : SlotAddr) (f : Slot → Slot) : (s.modSlot k f).sources = s.sources := rfl
@[simp] theorem State.modSlot_channels (k : SlotAddr) (f : Slot → Slot) : (s.modSlot k f).channels = s.channels := rfl
@[simp] theorem State.modSlot_sched (k : SlotAddr) (f : Slot → Slot) : (s.modSlot k f).sched = s.sched := rfl
@[simp] theorem State.modSlot_racks (k : SlotAddr) (f : Slot → Slot) : (s.modSlot k f).racks = s.racks := rfl
@[simp] theorem State.modSlot_slots (k : SlotAddr) (f : Slot → Slot) : (s.modSlot k f).slots = s.slots.set k (s.slots[k].map f) := rfl
@[simp] theorem State.modSlot_bus (k : SlotAddr) (f : Slot → Slot) : (s.modSlot k f).bus = s.bus := rfl
@[simp] theorem State.modSlot_charge (k : SlotAddr) (f : Slot → Slot) : (s.modSlot k f).charge = s.charge := rfl
@[simp] theorem State.modSlot_devices (k : SlotAddr) (f : Slot → Slot) : (s.modSlot k f).devices = s.devices := rfl
@[simp] theorem State.modSlot_groups (k : SlotAddr) (f : Slot → Slot) : (s.modSlot k f).groups = s.groups := rfl
@[simp] theorem State.modSlot_ops (k : SlotAddr) (f : Slot → Slot) : (s.modSlot k f).ops = s.ops := rfl
@[simp] theorem State.modSlot_roster (k : SlotAddr) (f : Slot → Slot) : (s.modSlot k f).roster = s.roster := rfl
@[simp] theorem State.modSlot_events (k : SlotAddr) (f : Slot → Slot) : (s.modSlot k f).events = s.events := rfl
@[simp] theorem State.modSlot_pins (k : SlotAddr) (f : Slot → Slot) : (s.modSlot k f).pins = s.pins := rfl
@[simp] theorem State.modSlot_pending (k : SlotAddr) (f : Slot → Slot) : (s.modSlot k f).pending = s.pending := rfl

/-! setGroup writes the field groups alone. -/
@[simp] theorem State.setGroup_link (k : GroupId) (x : Group) : (s.setGroup k x).link = s.link := rfl
@[simp] theorem State.setGroup_air (k : GroupId) (x : Group) : (s.setGroup k x).air = s.air := rfl
@[simp] theorem State.setGroup_pool (k : GroupId) (x : Group) : (s.setGroup k x).pool = s.pool := rfl
@[simp] theorem State.setGroup_sources (k : GroupId) (x : Group) : (s.setGroup k x).sources = s.sources := rfl
@[simp] theorem State.setGroup_channels (k : GroupId) (x : Group) : (s.setGroup k x).channels = s.channels := rfl
@[simp] theorem State.setGroup_sched (k : GroupId) (x : Group) : (s.setGroup k x).sched = s.sched := rfl
@[simp] theorem State.setGroup_racks (k : GroupId) (x : Group) : (s.setGroup k x).racks = s.racks := rfl
@[simp] theorem State.setGroup_slots (k : GroupId) (x : Group) : (s.setGroup k x).slots = s.slots := rfl
@[simp] theorem State.setGroup_bus (k : GroupId) (x : Group) : (s.setGroup k x).bus = s.bus := rfl
@[simp] theorem State.setGroup_charge (k : GroupId) (x : Group) : (s.setGroup k x).charge = s.charge := rfl
@[simp] theorem State.setGroup_devices (k : GroupId) (x : Group) : (s.setGroup k x).devices = s.devices := rfl
@[simp] theorem State.setGroup_groups (k : GroupId) (x : Group) : (s.setGroup k x).groups = s.groups.set k x := rfl
@[simp] theorem State.setGroup_ops (k : GroupId) (x : Group) : (s.setGroup k x).ops = s.ops := rfl
@[simp] theorem State.setGroup_roster (k : GroupId) (x : Group) : (s.setGroup k x).roster = s.roster := rfl
@[simp] theorem State.setGroup_events (k : GroupId) (x : Group) : (s.setGroup k x).events = s.events := rfl
@[simp] theorem State.setGroup_pins (k : GroupId) (x : Group) : (s.setGroup k x).pins = s.pins := rfl
@[simp] theorem State.setGroup_pending (k : GroupId) (x : Group) : (s.setGroup k x).pending = s.pending := rfl

/-! setRoster writes the field roster alone. -/
@[simp] theorem State.setRoster_link (k : RosterId) (x : RosterEntry) : (s.setRoster k x).link = s.link := rfl
@[simp] theorem State.setRoster_air (k : RosterId) (x : RosterEntry) : (s.setRoster k x).air = s.air := rfl
@[simp] theorem State.setRoster_pool (k : RosterId) (x : RosterEntry) : (s.setRoster k x).pool = s.pool := rfl
@[simp] theorem State.setRoster_sources (k : RosterId) (x : RosterEntry) : (s.setRoster k x).sources = s.sources := rfl
@[simp] theorem State.setRoster_channels (k : RosterId) (x : RosterEntry) : (s.setRoster k x).channels = s.channels := rfl
@[simp] theorem State.setRoster_sched (k : RosterId) (x : RosterEntry) : (s.setRoster k x).sched = s.sched := rfl
@[simp] theorem State.setRoster_racks (k : RosterId) (x : RosterEntry) : (s.setRoster k x).racks = s.racks := rfl
@[simp] theorem State.setRoster_slots (k : RosterId) (x : RosterEntry) : (s.setRoster k x).slots = s.slots := rfl
@[simp] theorem State.setRoster_bus (k : RosterId) (x : RosterEntry) : (s.setRoster k x).bus = s.bus := rfl
@[simp] theorem State.setRoster_charge (k : RosterId) (x : RosterEntry) : (s.setRoster k x).charge = s.charge := rfl
@[simp] theorem State.setRoster_devices (k : RosterId) (x : RosterEntry) : (s.setRoster k x).devices = s.devices := rfl
@[simp] theorem State.setRoster_groups (k : RosterId) (x : RosterEntry) : (s.setRoster k x).groups = s.groups := rfl
@[simp] theorem State.setRoster_ops (k : RosterId) (x : RosterEntry) : (s.setRoster k x).ops = s.ops := rfl
@[simp] theorem State.setRoster_roster (k : RosterId) (x : RosterEntry) : (s.setRoster k x).roster = s.roster.set k x := rfl
@[simp] theorem State.setRoster_events (k : RosterId) (x : RosterEntry) : (s.setRoster k x).events = s.events := rfl
@[simp] theorem State.setRoster_pins (k : RosterId) (x : RosterEntry) : (s.setRoster k x).pins = s.pins := rfl
@[simp] theorem State.setRoster_pending (k : RosterId) (x : RosterEntry) : (s.setRoster k x).pending = s.pending := rfl

/-! setEvent writes the field events alone. -/
@[simp] theorem State.setEvent_link (k : EventId) (x : EventKindState) : (s.setEvent k x).link = s.link := rfl
@[simp] theorem State.setEvent_air (k : EventId) (x : EventKindState) : (s.setEvent k x).air = s.air := rfl
@[simp] theorem State.setEvent_pool (k : EventId) (x : EventKindState) : (s.setEvent k x).pool = s.pool := rfl
@[simp] theorem State.setEvent_sources (k : EventId) (x : EventKindState) : (s.setEvent k x).sources = s.sources := rfl
@[simp] theorem State.setEvent_channels (k : EventId) (x : EventKindState) : (s.setEvent k x).channels = s.channels := rfl
@[simp] theorem State.setEvent_sched (k : EventId) (x : EventKindState) : (s.setEvent k x).sched = s.sched := rfl
@[simp] theorem State.setEvent_racks (k : EventId) (x : EventKindState) : (s.setEvent k x).racks = s.racks := rfl
@[simp] theorem State.setEvent_slots (k : EventId) (x : EventKindState) : (s.setEvent k x).slots = s.slots := rfl
@[simp] theorem State.setEvent_bus (k : EventId) (x : EventKindState) : (s.setEvent k x).bus = s.bus := rfl
@[simp] theorem State.setEvent_charge (k : EventId) (x : EventKindState) : (s.setEvent k x).charge = s.charge := rfl
@[simp] theorem State.setEvent_devices (k : EventId) (x : EventKindState) : (s.setEvent k x).devices = s.devices := rfl
@[simp] theorem State.setEvent_groups (k : EventId) (x : EventKindState) : (s.setEvent k x).groups = s.groups := rfl
@[simp] theorem State.setEvent_ops (k : EventId) (x : EventKindState) : (s.setEvent k x).ops = s.ops := rfl
@[simp] theorem State.setEvent_roster (k : EventId) (x : EventKindState) : (s.setEvent k x).roster = s.roster := rfl
@[simp] theorem State.setEvent_events (k : EventId) (x : EventKindState) : (s.setEvent k x).events = s.events.set k x := rfl
@[simp] theorem State.setEvent_pins (k : EventId) (x : EventKindState) : (s.setEvent k x).pins = s.pins := rfl
@[simp] theorem State.setEvent_pending (k : EventId) (x : EventKindState) : (s.setEvent k x).pending = s.pending := rfl

/-! setQueue writes the field bus alone. -/
@[simp] theorem State.setQueue_link (k : Fin 6) (x : List Exchange) : (s.setQueue k x).link = s.link := rfl
@[simp] theorem State.setQueue_air (k : Fin 6) (x : List Exchange) : (s.setQueue k x).air = s.air := rfl
@[simp] theorem State.setQueue_pool (k : Fin 6) (x : List Exchange) : (s.setQueue k x).pool = s.pool := rfl
@[simp] theorem State.setQueue_sources (k : Fin 6) (x : List Exchange) : (s.setQueue k x).sources = s.sources := rfl
@[simp] theorem State.setQueue_channels (k : Fin 6) (x : List Exchange) : (s.setQueue k x).channels = s.channels := rfl
@[simp] theorem State.setQueue_sched (k : Fin 6) (x : List Exchange) : (s.setQueue k x).sched = s.sched := rfl
@[simp] theorem State.setQueue_racks (k : Fin 6) (x : List Exchange) : (s.setQueue k x).racks = s.racks := rfl
@[simp] theorem State.setQueue_slots (k : Fin 6) (x : List Exchange) : (s.setQueue k x).slots = s.slots := rfl
@[simp] theorem State.setQueue_bus (k : Fin 6) (x : List Exchange) : (s.setQueue k x).bus = { s.bus with queues := s.bus.queues.set k x } := rfl
@[simp] theorem State.setQueue_charge (k : Fin 6) (x : List Exchange) : (s.setQueue k x).charge = s.charge := rfl
@[simp] theorem State.setQueue_devices (k : Fin 6) (x : List Exchange) : (s.setQueue k x).devices = s.devices := rfl
@[simp] theorem State.setQueue_groups (k : Fin 6) (x : List Exchange) : (s.setQueue k x).groups = s.groups := rfl
@[simp] theorem State.setQueue_ops (k : Fin 6) (x : List Exchange) : (s.setQueue k x).ops = s.ops := rfl
@[simp] theorem State.setQueue_roster (k : Fin 6) (x : List Exchange) : (s.setQueue k x).roster = s.roster := rfl
@[simp] theorem State.setQueue_events (k : Fin 6) (x : List Exchange) : (s.setQueue k x).events = s.events := rfl
@[simp] theorem State.setQueue_pins (k : Fin 6) (x : List Exchange) : (s.setQueue k x).pins = s.pins := rfl
@[simp] theorem State.setQueue_pending (k : Fin 6) (x : List Exchange) : (s.setQueue k x).pending = s.pending := rfl

/-! modDevice writes the field devices alone. -/
@[simp] theorem State.modDevice_link (k : DeviceId) (f : Device → Device) : (s.modDevice k f).link = s.link := rfl
@[simp] theorem State.modDevice_air (k : DeviceId) (f : Device → Device) : (s.modDevice k f).air = s.air := rfl
@[simp] theorem State.modDevice_pool (k : DeviceId) (f : Device → Device) : (s.modDevice k f).pool = s.pool := rfl
@[simp] theorem State.modDevice_sources (k : DeviceId) (f : Device → Device) : (s.modDevice k f).sources = s.sources := rfl
@[simp] theorem State.modDevice_channels (k : DeviceId) (f : Device → Device) : (s.modDevice k f).channels = s.channels := rfl
@[simp] theorem State.modDevice_sched (k : DeviceId) (f : Device → Device) : (s.modDevice k f).sched = s.sched := rfl
@[simp] theorem State.modDevice_racks (k : DeviceId) (f : Device → Device) : (s.modDevice k f).racks = s.racks := rfl
@[simp] theorem State.modDevice_slots (k : DeviceId) (f : Device → Device) : (s.modDevice k f).slots = s.slots := rfl
@[simp] theorem State.modDevice_bus (k : DeviceId) (f : Device → Device) : (s.modDevice k f).bus = s.bus := rfl
@[simp] theorem State.modDevice_charge (k : DeviceId) (f : Device → Device) : (s.modDevice k f).charge = s.charge := rfl
@[simp] theorem State.modDevice_devices (k : DeviceId) (f : Device → Device) : (s.modDevice k f).devices = s.devices.map (fun d => if d.id = k then f d else d) := rfl
@[simp] theorem State.modDevice_groups (k : DeviceId) (f : Device → Device) : (s.modDevice k f).groups = s.groups := rfl
@[simp] theorem State.modDevice_ops (k : DeviceId) (f : Device → Device) : (s.modDevice k f).ops = s.ops := rfl
@[simp] theorem State.modDevice_roster (k : DeviceId) (f : Device → Device) : (s.modDevice k f).roster = s.roster := rfl
@[simp] theorem State.modDevice_events (k : DeviceId) (f : Device → Device) : (s.modDevice k f).events = s.events := rfl
@[simp] theorem State.modDevice_pins (k : DeviceId) (f : Device → Device) : (s.modDevice k f).pins = s.pins := rfl
@[simp] theorem State.modDevice_pending (k : DeviceId) (f : Device → Device) : (s.modDevice k f).pending = s.pending := rfl

/-! modOp writes the field ops alone. -/
@[simp] theorem State.modOp_link (k : GroupId) (f : IssueOperation → IssueOperation) : (s.modOp k f).link = s.link := rfl
@[simp] theorem State.modOp_air (k : GroupId) (f : IssueOperation → IssueOperation) : (s.modOp k f).air = s.air := rfl
@[simp] theorem State.modOp_pool (k : GroupId) (f : IssueOperation → IssueOperation) : (s.modOp k f).pool = s.pool := rfl
@[simp] theorem State.modOp_sources (k : GroupId) (f : IssueOperation → IssueOperation) : (s.modOp k f).sources = s.sources := rfl
@[simp] theorem State.modOp_channels (k : GroupId) (f : IssueOperation → IssueOperation) : (s.modOp k f).channels = s.channels := rfl
@[simp] theorem State.modOp_sched (k : GroupId) (f : IssueOperation → IssueOperation) : (s.modOp k f).sched = s.sched := rfl
@[simp] theorem State.modOp_racks (k : GroupId) (f : IssueOperation → IssueOperation) : (s.modOp k f).racks = s.racks := rfl
@[simp] theorem State.modOp_slots (k : GroupId) (f : IssueOperation → IssueOperation) : (s.modOp k f).slots = s.slots := rfl
@[simp] theorem State.modOp_bus (k : GroupId) (f : IssueOperation → IssueOperation) : (s.modOp k f).bus = s.bus := rfl
@[simp] theorem State.modOp_charge (k : GroupId) (f : IssueOperation → IssueOperation) : (s.modOp k f).charge = s.charge := rfl
@[simp] theorem State.modOp_devices (k : GroupId) (f : IssueOperation → IssueOperation) : (s.modOp k f).devices = s.devices := rfl
@[simp] theorem State.modOp_groups (k : GroupId) (f : IssueOperation → IssueOperation) : (s.modOp k f).groups = s.groups := rfl
@[simp] theorem State.modOp_ops (k : GroupId) (f : IssueOperation → IssueOperation) : (s.modOp k f).ops = s.ops.map (fun o => if o.group = k then f o else o) := rfl
@[simp] theorem State.modOp_roster (k : GroupId) (f : IssueOperation → IssueOperation) : (s.modOp k f).roster = s.roster := rfl
@[simp] theorem State.modOp_events (k : GroupId) (f : IssueOperation → IssueOperation) : (s.modOp k f).events = s.events := rfl
@[simp] theorem State.modOp_pins (k : GroupId) (f : IssueOperation → IssueOperation) : (s.modOp k f).pins = s.pins := rfl
@[simp] theorem State.modOp_pending (k : GroupId) (f : IssueOperation → IssueOperation) : (s.modOp k f).pending = s.pending := rfl

/-! modBound writes the field channels alone. -/
@[simp] theorem State.modBound_link (k : ChannelId) (f : Nat → Nat) : (s.modBound k f).link = s.link := rfl
@[simp] theorem State.modBound_air (k : ChannelId) (f : Nat → Nat) : (s.modBound k f).air = s.air := rfl
@[simp] theorem State.modBound_pool (k : ChannelId) (f : Nat → Nat) : (s.modBound k f).pool = s.pool := rfl
@[simp] theorem State.modBound_sources (k : ChannelId) (f : Nat → Nat) : (s.modBound k f).sources = s.sources := rfl
@[simp] theorem State.modBound_channels (k : ChannelId) (f : Nat → Nat) : (s.modBound k f).channels = s.channels.set k { s.channels[k] with boundGroups := f s.channels[k].boundGroups } := rfl
@[simp] theorem State.modBound_sched (k : ChannelId) (f : Nat → Nat) : (s.modBound k f).sched = s.sched := rfl
@[simp] theorem State.modBound_racks (k : ChannelId) (f : Nat → Nat) : (s.modBound k f).racks = s.racks := rfl
@[simp] theorem State.modBound_slots (k : ChannelId) (f : Nat → Nat) : (s.modBound k f).slots = s.slots := rfl
@[simp] theorem State.modBound_bus (k : ChannelId) (f : Nat → Nat) : (s.modBound k f).bus = s.bus := rfl
@[simp] theorem State.modBound_charge (k : ChannelId) (f : Nat → Nat) : (s.modBound k f).charge = s.charge := rfl
@[simp] theorem State.modBound_devices (k : ChannelId) (f : Nat → Nat) : (s.modBound k f).devices = s.devices := rfl
@[simp] theorem State.modBound_groups (k : ChannelId) (f : Nat → Nat) : (s.modBound k f).groups = s.groups := rfl
@[simp] theorem State.modBound_ops (k : ChannelId) (f : Nat → Nat) : (s.modBound k f).ops = s.ops := rfl
@[simp] theorem State.modBound_roster (k : ChannelId) (f : Nat → Nat) : (s.modBound k f).roster = s.roster := rfl
@[simp] theorem State.modBound_events (k : ChannelId) (f : Nat → Nat) : (s.modBound k f).events = s.events := rfl
@[simp] theorem State.modBound_pins (k : ChannelId) (f : Nat → Nat) : (s.modBound k f).pins = s.pins := rfl
@[simp] theorem State.modBound_pending (k : ChannelId) (f : Nat → Nat) : (s.modBound k f).pending = s.pending := rfl

/-! addOutbound writes the field link alone. -/
@[simp] theorem State.addOutbound_link (e : OutEntry) : (s.addOutbound e).link = { s.link with outbound := s.link.outbound ++ [e] } := rfl
@[simp] theorem State.addOutbound_air (e : OutEntry) : (s.addOutbound e).air = s.air := rfl
@[simp] theorem State.addOutbound_pool (e : OutEntry) : (s.addOutbound e).pool = s.pool := rfl
@[simp] theorem State.addOutbound_sources (e : OutEntry) : (s.addOutbound e).sources = s.sources := rfl
@[simp] theorem State.addOutbound_channels (e : OutEntry) : (s.addOutbound e).channels = s.channels := rfl
@[simp] theorem State.addOutbound_sched (e : OutEntry) : (s.addOutbound e).sched = s.sched := rfl
@[simp] theorem State.addOutbound_racks (e : OutEntry) : (s.addOutbound e).racks = s.racks := rfl
@[simp] theorem State.addOutbound_slots (e : OutEntry) : (s.addOutbound e).slots = s.slots := rfl
@[simp] theorem State.addOutbound_bus (e : OutEntry) : (s.addOutbound e).bus = s.bus := rfl
@[simp] theorem State.addOutbound_charge (e : OutEntry) : (s.addOutbound e).charge = s.charge := rfl
@[simp] theorem State.addOutbound_devices (e : OutEntry) : (s.addOutbound e).devices = s.devices := rfl
@[simp] theorem State.addOutbound_groups (e : OutEntry) : (s.addOutbound e).groups = s.groups := rfl
@[simp] theorem State.addOutbound_ops (e : OutEntry) : (s.addOutbound e).ops = s.ops := rfl
@[simp] theorem State.addOutbound_roster (e : OutEntry) : (s.addOutbound e).roster = s.roster := rfl
@[simp] theorem State.addOutbound_events (e : OutEntry) : (s.addOutbound e).events = s.events := rfl
@[simp] theorem State.addOutbound_pins (e : OutEntry) : (s.addOutbound e).pins = s.pins := rfl
@[simp] theorem State.addOutbound_pending (e : OutEntry) : (s.addOutbound e).pending = s.pending := rfl

/-! Vectors read at a `Fin` index. -/

@[simp] theorem get_set_same {α : Type} {n : Nat} (v : Vector α n) (k : Fin n) (x : α) : (v.set k x)[k] = x := by simp

theorem get_set_other {α : Type} {n : Nat} (v : Vector α n) (k j : Fin n) (x : α) (h : j ≠ k) : (v.set k x)[j] = v[j] := by
  have : k.val ≠ j.val := fun e => h (Fin.ext e.symm)
  simp [this]

theorem get_set_cases {α : Type} {n : Nat} (v : Vector α n) (k j : Fin n) (x : α) :
    (v.set k x)[j] = if j = k then x else v[j] := by
  split
  · next h => subst h; simp
  · next h => exact get_set_other v k j x h

end Sys2Proof.Machine
end

