-- ==== Sys2Proof/Laws/Link.lean ====
section
/-! SUPPORT. Raising an event and answering a request, each said once: what they do to the event unit and to the outbound
queue, and that they touch nothing else. -/

namespace Sys2Proof.Machine

/-! ## Raising -/

/-- The notice a raise of kind k with this record adds, as a list of none or one (R11, R164). -/
def raiseNotice (k : EventId) (l : LatestRecord) (s : State) : List OutEntry :=
  if (s.events[k]).raw = false ∧ (s.events[k]).enable = true ∧ s.link.resetPending = false ∧ s.link.outbound.length < 24 then
    [.frame (eventNotice k l)] else []

/-- The record a raise leaves (R164). -/
def raiseRecord (object : Nat) (detail : BitVec 32) (byRequest : Bool) (s : State) : LatestRecord :=
  { object := object, detail := detail, count := s.air.count, byRequest := byRequest }

/-- A raise writes its kind's flags and record, may add one notice, and changes nothing else. -/
theorem raiseKind_eq (k : EventId) (o : Nat) (d : BitVec 32) (b : Bool) (s : State) :
    raiseKind k o d b s = { s with
      events := s.events.set k ((s.events[k]).raised (raiseRecord o d b s)),
      link := { s.link with outbound := s.link.outbound ++ raiseNotice k (raiseRecord o d b s) s } } := by
  unfold raiseKind raiseNotice
  simp only [raiseRecord]
  by_cases h1 : (s.events[k]).raw = false <;> by_cases h2 : (s.events[k]).enable = true
  · simp only [h1, h2, and_self, if_true, true_and]
    unfold offerNotice
    simp only [State.setEvent_events, get_set_same, EventKindState.raised]
    unfold addNotice
    simp only [State.setEvent_link, State.occupancy, eventThreshold]
    split <;> simp_all [State.addOutbound, State.setEvent]
  all_goals simp only [h1, h2, State.setEvent, if_false, false_and, and_false, List.append_nil, Bool.false_eq_true, Bool.true_eq_false]

@[simp] theorem raiseKind_events (k : EventId) (o : Nat) (d : BitVec 32) (b : Bool) (s : State) :
    (raiseKind k o d b s).events = s.events.set k ((s.events[k]).raised (raiseRecord o d b s)) := by rw [raiseKind_eq]
@[simp] theorem raiseKind_link (k : EventId) (o : Nat) (d : BitVec 32) (b : Bool) (s : State) :
    (raiseKind k o d b s).link =
      { s.link with outbound := s.link.outbound ++ raiseNotice k (raiseRecord o d b s) s } := by rw [raiseKind_eq]
@[simp] theorem raiseKind_air (k : EventId) (o : Nat) (d : BitVec 32) (b : Bool) (s : State) :
    (raiseKind k o d b s).air = s.air := by rw [raiseKind_eq]
@[simp] theorem raiseKind_pool (k : EventId) (o : Nat) (d : BitVec 32) (b : Bool) (s : State) :
    (raiseKind k o d b s).pool = s.pool := by rw [raiseKind_eq]
@[simp] theorem raiseKind_sources (k : EventId) (o : Nat) (d : BitVec 32) (b : Bool) (s : State) :
    (raiseKind k o d b s).sources = s.sources := by rw [raiseKind_eq]
@[simp] theorem raiseKind_channels (k : EventId) (o : Nat) (d : BitVec 32) (b : Bool) (s : State) :
    (raiseKind k o d b s).channels = s.channels := by rw [raiseKind_eq]
@[simp] theorem raiseKind_sched (k : EventId) (o : Nat) (d : BitVec 32) (b : Bool) (s : State) :
    (raiseKind k o d b s).sched = s.sched := by rw [raiseKind_eq]
@[simp] theorem raiseKind_racks (k : EventId) (o : Nat) (d : BitVec 32) (b : Bool) (s : State) :
    (raiseKind k o d b s).racks = s.racks := by rw [raiseKind_eq]
@[simp] theorem raiseKind_slots (k : EventId) (o : Nat) (d : BitVec 32) (b : Bool) (s : State) :
    (raiseKind k o d b s).slots = s.slots := by rw [raiseKind_eq]
@[simp] theorem raiseKind_bus (k : EventId) (o : Nat) (d : BitVec 32) (b : Bool) (s : State) :
    (raiseKind k o d b s).bus = s.bus := by rw [raiseKind_eq]
@[simp] theorem raiseKind_charge (k : EventId) (o : Nat) (d : BitVec 32) (b : Bool) (s : State) :
    (raiseKind k o d b s).charge = s.charge := by rw [raiseKind_eq]
@[simp] theorem raiseKind_devices (k : EventId) (o : Nat) (d : BitVec 32) (b : Bool) (s : State) :
    (raiseKind k o d b s).devices = s.devices := by rw [raiseKind_eq]
@[simp] theorem raiseKind_groups (k : EventId) (o : Nat) (d : BitVec 32) (b : Bool) (s : State) :
    (raiseKind k o d b s).groups = s.groups := by rw [raiseKind_eq]
@[simp] theorem raiseKind_ops (k : EventId) (o : Nat) (d : BitVec 32) (b : Bool) (s : State) :
    (raiseKind k o d b s).ops = s.ops := by rw [raiseKind_eq]
@[simp] theorem raiseKind_roster (k : EventId) (o : Nat) (d : BitVec 32) (b : Bool) (s : State) :
    (raiseKind k o d b s).roster = s.roster := by rw [raiseKind_eq]
@[simp] theorem raiseKind_pins (k : EventId) (o : Nat) (d : BitVec 32) (b : Bool) (s : State) :
    (raiseKind k o d b s).pins = s.pins := by rw [raiseKind_eq]
@[simp] theorem raiseKind_pending (k : EventId) (o : Nat) (d : BitVec 32) (b : Bool) (s : State) :
    (raiseKind k o d b s).pending = s.pending := by rw [raiseKind_eq]
@[simp] theorem raise_air (k : EventKind) (o d : Nat) (s : State) : (raise k o d s).air = s.air := by simp [raise]
@[simp] theorem raise_pool (k : EventKind) (o d : Nat) (s : State) : (raise k o d s).pool = s.pool := by simp [raise]
@[simp] theorem raise_sources (k : EventKind) (o d : Nat) (s : State) : (raise k o d s).sources = s.sources := by simp [raise]
@[simp] theorem raise_channels (k : EventKind) (o d : Nat) (s : State) : (raise k o d s).channels = s.channels := by simp [raise]
@[simp] theorem raise_sched (k : EventKind) (o d : Nat) (s : State) : (raise k o d s).sched = s.sched := by simp [raise]
@[simp] theorem raise_racks (k : EventKind) (o d : Nat) (s : State) : (raise k o d s).racks = s.racks := by simp [raise]
@[simp] theorem raise_slots (k : EventKind) (o d : Nat) (s : State) : (raise k o d s).slots = s.slots := by simp [raise]
@[simp] theorem raise_bus (k : EventKind) (o d : Nat) (s : State) : (raise k o d s).bus = s.bus := by simp [raise]
@[simp] theorem raise_charge (k : EventKind) (o d : Nat) (s : State) : (raise k o d s).charge = s.charge := by simp [raise]
@[simp] theorem raise_devices (k : EventKind) (o d : Nat) (s : State) : (raise k o d s).devices = s.devices := by simp [raise]
@[simp] theorem raise_groups (k : EventKind) (o d : Nat) (s : State) : (raise k o d s).groups = s.groups := by simp [raise]
@[simp] theorem raise_ops (k : EventKind) (o d : Nat) (s : State) : (raise k o d s).ops = s.ops := by simp [raise]
@[simp] theorem raise_roster (k : EventKind) (o d : Nat) (s : State) : (raise k o d s).roster = s.roster := by simp [raise]
@[simp] theorem raise_pins (k : EventKind) (o d : Nat) (s : State) : (raise k o d s).pins = s.pins := by simp [raise]
@[simp] theorem raise_pending (k : EventKind) (o d : Nat) (s : State) : (raise k o d s).pending = s.pending := by simp [raise]
@[simp] theorem raiseInt_air (k : EventKind) (o : Nat) (d : Int) (s : State) : (raiseInt k o d s).air = s.air := by simp [raiseInt]
@[simp] theorem raiseInt_pool (k : EventKind) (o : Nat) (d : Int) (s : State) : (raiseInt k o d s).pool = s.pool := by simp [raiseInt]
@[simp] theorem raiseInt_sources (k : EventKind) (o : Nat) (d : Int) (s : State) : (raiseInt k o d s).sources = s.sources := by simp [raiseInt]
@[simp] theorem raiseInt_channels (k : EventKind) (o : Nat) (d : Int) (s : State) : (raiseInt k o d s).channels = s.channels := by simp [raiseInt]
@[simp] theorem raiseInt_sched (k : EventKind) (o : Nat) (d : Int) (s : State) : (raiseInt k o d s).sched = s.sched := by simp [raiseInt]
@[simp] theorem raiseInt_racks (k : EventKind) (o : Nat) (d : Int) (s : State) : (raiseInt k o d s).racks = s.racks := by simp [raiseInt]
@[simp] theorem raiseInt_slots (k : EventKind) (o : Nat) (d : Int) (s : State) : (raiseInt k o d s).slots = s.slots := by simp [raiseInt]
@[simp] theorem raiseInt_bus (k : EventKind) (o : Nat) (d : Int) (s : State) : (raiseInt k o d s).bus = s.bus := by simp [raiseInt]
@[simp] theorem raiseInt_charge (k : EventKind) (o : Nat) (d : Int) (s : State) : (raiseInt k o d s).charge = s.charge := by simp [raiseInt]
@[simp] theorem raiseInt_devices (k : EventKind) (o : Nat) (d : Int) (s : State) : (raiseInt k o d s).devices = s.devices := by simp [raiseInt]
@[simp] theorem raiseInt_groups (k : EventKind) (o : Nat) (d : Int) (s : State) : (raiseInt k o d s).groups = s.groups := by simp [raiseInt]
@[simp] theorem raiseInt_ops (k : EventKind) (o : Nat) (d : Int) (s : State) : (raiseInt k o d s).ops = s.ops := by simp [raiseInt]
@[simp] theorem raiseInt_roster (k : EventKind) (o : Nat) (d : Int) (s : State) : (raiseInt k o d s).roster = s.roster := by simp [raiseInt]
@[simp] theorem raiseInt_pins (k : EventKind) (o : Nat) (d : Int) (s : State) : (raiseInt k o d s).pins = s.pins := by simp [raiseInt]
@[simp] theorem raiseInt_pending (k : EventKind) (o : Nat) (d : Int) (s : State) : (raiseInt k o d s).pending = s.pending := by simp [raiseInt]

/-! ## Replies -/

@[simp] theorem fillReserved_length (f : Frame) (l : List OutEntry) : (fillReserved f l).length = l.length := by
  induction l with
  | nil => rfl
  | cons e l ih => cases e <;> simp [fillReserved, ih]

/-- The reply takes the place reserved for it, whatever has been added behind it (R9, R166). -/
theorem fillReserved_append (f : Frame) (l t : List OutEntry) (h : OutEntry.reserved ∉ l) :
    fillReserved f (l ++ .reserved :: t) = l ++ .frame f :: t := by
  induction l with
  | nil => rfl
  | cons e l ih => cases e <;> simp_all [fillReserved]

/-- Filling the reserved entry and then adding a notice is adding the notice and then filling. -/
theorem fillReserved_frame (f g : Frame) (l : List OutEntry) :
    fillReserved f (l ++ [.frame g]) = fillReserved f l ++ [.frame g] := by
  induction l with
  | nil => rfl
  | cons e l ih => cases e <;> simp [fillReserved, ih]

/-- The state with the entry reserved for a reply filled. -/
def filled (f : Frame) (s : State) : State := { s with link := { s.link with outbound := fillReserved f s.link.outbound } }

theorem serveWith_eq (kind tag : Byte) (owner : State → Answer) (s : State) :
    serveWith kind tag owner s =
      filled (replyFrame kind tag (owner (s.addOutbound .reserved)).2) (owner (s.addOutbound .reserved)).1 := rfl

/-- Filling the entry just reserved gives the state with the reply added. -/
theorem filled_reserved (kind tag : Byte) (r : Reply) (s : State) (h : OutEntry.reserved ∉ s.link.outbound) :
    filled (replyFrame kind tag r) (s.addOutbound .reserved) = replied kind tag r.status.code r.fields s := by
  simp [filled, replied, replyFrame, State.addOutbound, fillReserved_append _ _ _ h]

/-- A raise behind a reserved entry is the same raise behind the reply. -/
theorem filled_raiseKind (f : Frame) (k : EventId) (o : Nat) (d : BitVec 32) (b : Bool) (s : State) :
    filled f (raiseKind k o d b s) = raiseKind k o d b (filled f s) := by
  simp only [raiseKind_eq, filled, raiseNotice, raiseRecord, fillReserved_length]
  by_cases h : (s.events[k]).raw = false ∧ (s.events[k]).enable = true ∧ s.link.resetPending = false ∧ s.link.outbound.length < 24
  · simp only [if_pos h, fillReserved_frame]
  · simp only [if_neg h, List.append_nil]

/-- A request that may be served at once is served at once. -/
theorem submit_now (kind : Byte) (lengthOk : List Byte → Bool) (take : List Byte → State → Answer) (tag : Byte)
    (body : List Byte) (s : State) (h : ServesNow s) :
    submit kind lengthOk take tag body s = serveWith kind tag (judged lengthOk take body) s := by
  obtain ⟨h1, h2, h3, -⟩ := h
  simp [submit, h1, canServe, State.occupancy, replyThreshold, h2, h3]

/-- A request refused, or one that only reads, leaves the reply alone behind it. -/
theorem submit_reads (kind : Byte) (lengthOk : List Byte → Bool) (take : List Byte → State → Answer) (tag : Byte)
    (body : List Byte) (s : State) (r : Reply) (h : ServesNow s)
    (hr : judged lengthOk take body (s.addOutbound .reserved) = (s.addOutbound .reserved, r)) :
    submit kind lengthOk take tag body s = replied kind tag r.status.code r.fields s := by
  rw [submit_now _ _ _ _ _ _ h, serveWith_eq, hr, filled_reserved _ _ _ _ h.2.2.2]

/-- A request whose owner's work commutes with the reply's being filled in: the work is done behind the reply. -/
theorem submit_works (kind : Byte) (lengthOk : List Byte → Bool) (take : List Byte → State → Answer) (tag : Byte)
    (body : List Byte) (s : State) (r : Reply) (work : State → State) (h : ServesNow s)
    (hr : judged lengthOk take body (s.addOutbound .reserved) = (work (s.addOutbound .reserved), r))
    (hw : ∀ f t, filled f (work t) = work (filled f t)) :
    submit kind lengthOk take tag body s = work (replied kind tag r.status.code r.fields s) := by
  rw [submit_now _ _ _ _ _ _ h, serveWith_eq, hr, hw, filled_reserved _ _ _ _ h.2.2.2]

end Sys2Proof.Machine
end

