-- ==== Sys2Proof/Laws/Order.lean ====
section
/-! SUPPORT. Doing the same work for every object: over a list, over a vector, and over an order of all objects. -/

namespace Sys2Proof.Machine

@[simp] theorem forEach_nil {α : Type} (f : α → State → State) (s : State) : forEach [] f s = s := rfl

@[simp] theorem forEach_cons {α : Type} (a : α) (l : List α) (f : α → State → State) (s : State) :
    forEach (a :: l) f s = forEach l f (f a s) := rfl

theorem forEach_append {α : Type} (l m : List α) (f : α → State → State) (s : State) :
    forEach (l ++ m) f s = forEach m f (forEach l f s) := by simp [forEach]

/-- What each piece of work keeps, the whole keeps. -/
theorem forEach_keeps {α : Type} (P : State → Prop) (f : α → State → State) (h : ∀ a s, P s → P (f a s)) (l : List α) (s : State)
    (hs : P s) : P (forEach l f s) := by
  induction l generalizing s with
  | nil => exact hs
  | cons a l ih => exact ih _ (h a s hs)

/-- What no piece of work changes, the whole leaves unchanged. -/
theorem forEach_same {α β : Type} (g : State → β) (f : α → State → State) (h : ∀ a s, g (f a s) = g s) (l : List α) (s : State) :
    g (forEach l f s) = g s :=
  forEach_keeps (fun t => g t = g s) f (fun a t ht => (h a t).trans ht) l s rfl

theorem fold_set_get {α : Type} {n : Nat} (f : α → α) (v : Vector α n) (l : List (Fin n)) (hl : l.Nodup) (w : Vector α n)
    (hw : ∀ i ∈ l, w[i] = v[i]) (j : Fin n) :
    (l.foldl (fun (w : Vector α n) (i : Fin n) => w.set i (f w[i])) w)[j] = if j ∈ l then f v[j] else w[j] := by
  induction l generalizing w with
  | nil => simp
  | cons i l ih =>
    have hi : i ∉ l := (List.nodup_cons.mp hl).1
    rw [List.foldl_cons, ih (List.nodup_cons.mp hl).2]
    · rw [get_set_cases]
      by_cases hj : j = i
      · subst hj
        rw [if_neg hi, if_pos rfl, if_pos (List.mem_cons_self ..), hw j (List.mem_cons_self ..)]
      · simp only [List.mem_cons, hj, false_or, if_false]
    · intro x hx
      rw [get_set_cases, if_neg (fun e : x = i => hi (e ▸ hx))]
      exact hw x (List.mem_cons_of_mem _ hx)

/-- The same change of every object, read at one of them. -/
theorem mapAll_get {α : Type} {n : Nat} (f : α → α) (v : Vector α n) (j : Fin n) : (mapAll f v)[j] = f v[j] := by
  unfold mapAll
  rw [fold_set_get f v _ (List.nodup_finRange n) v (fun _ _ => rfl), if_pos (List.mem_finRange j)]

theorem mem_distinct {α : Type} [DecidableEq α] (a : α) (l : List α) : a ∈ distinct l ↔ a ∈ l := by
  induction l with
  | nil => simp [distinct]
  | cons b l ih =>
    simp only [distinct, List.mem_cons, List.mem_filter, ih, decide_eq_true_eq]
    by_cases h : a = b <;> simp [h]

theorem distinct_nodup {α : Type} [DecidableEq α] (l : List α) : (distinct l).Nodup := by
  induction l with
  | nil => simp [distinct]
  | cons b l ih =>
    rw [distinct, List.nodup_cons]
    exact ⟨by simp, ih.filter _⟩

theorem distinct_of_nodup {α : Type} [DecidableEq α] (l : List α) (h : l.Nodup) : distinct l = l := by
  induction l with
  | nil => rfl
  | cons b l ih =>
    obtain ⟨h1, h2⟩ := List.nodup_cons.mp h
    rw [distinct, ih h2, List.filter_eq_self.mpr]
    intro a ha
    simpa using fun e : a = b => h1 (e ▸ ha)

/-- A full order names every object once. -/
theorem fullOrder_perm {n : Nat} (order : List (Fin n)) : (fullOrder order).Perm (List.finRange n) := by
  rw [List.perm_ext_iff_of_nodup _ (List.nodup_finRange n)]
  · intro a
    simp only [fullOrder, List.mem_append, mem_distinct, List.mem_filter, List.mem_finRange, true_and, decide_eq_true_eq, iff_true]
    exact Decidable.em _
  · refine List.nodup_append.mpr ⟨distinct_nodup _, (List.nodup_finRange n).filter _, ?_⟩
    rintro a ha b hb rfl
    simp only [List.mem_filter, decide_eq_true_eq] at hb
    exact hb.2 ((mem_distinct a order).mp ha)

/-- A well-formed order is taken as it is. -/
theorem fullOrder_of_full {n : Nat} (order : List (Fin n)) (h : orderFull order = true) : fullOrder order = order := by
  simp only [orderFull, Bool.and_eq_true, decide_eq_true_eq] at h
  have hsub : order.Perm (List.finRange n) :=
    (List.subperm_of_subset h.2 (fun a _ => List.mem_finRange a)).perm_of_length_le (by simp [h.1])
  have hnil : (List.finRange n).filter (fun a => decide (a ∉ order)) = [] := by
    rw [List.filter_eq_nil_iff]
    intro a ha
    simpa using hsub.mem_iff.mpr ha
  rw [fullOrder, distinct_of_nodup _ h.2, hnil, List.append_nil]

end Sys2Proof.Machine
end

