-- ==== Sys2Proof/Laws/Frame.lean ====
section
/-! SUPPORT. What the shared operations leave unchanged. Each bundle is the state with the fields a block's work may touch
blanked; an operation keeps the bundle, so it keeps every field that is not blanked: apply `congrArg` with the field. -/

namespace Sys2Proof.Machine

/-- The state but for the event flags and the outbound queue, which a raise may change. -/
def State.offEvents (s : State) : State :=
  { s with events := Vector.replicate 25 .initial, link := { s.link with outbound := [] } }

/-- The state but for the sources, the cell store and what a raise may change. -/
def State.offSources (s : State) : State :=
  { s.offEvents with sources := sourcesInitial, pool := .initial }

/-- The state but for the channels and what a raise may change. -/
def State.offChannels (s : State) : State := { s.offEvents with channels := Vector.replicate 16 .initial }

/-- The state but for the notice scheduler, the cell store and what a raise may change. -/
def State.offNotices (s : State) : State := { s.offEvents with sched := .initial, pool := .initial }

/-- The state but for the racks, their slots and the rack bus. -/
def State.offRacks (s : State) : State :=
  { s with racks := Vector.replicate 8 none, slots := Vector.replicate 256 none, bus := .idle 0 }

/-- The state but for the racks, the slots, the bus, the issue operations and what their ends may change. -/
def State.offIssue (s : State) : State :=
  { s.offRacks.offEvents with groups := Vector.replicate 24 .initial, ops := [], roster := Vector.replicate 12 .free }

/-- The state but for everything the rack bus and the fleet manager may change. -/
def State.offFleet (s : State) : State :=
  { s.offIssue with devices := [], sources := sourcesInitial, pool := .initial, channels := Vector.replicate 16 .initial }

/-! ## A raise keeps all but the event flags and the outbound queue -/

@[simp] theorem raiseKind_offEvents (k : EventId) (o : Nat) (d : BitVec 32) (b : Bool) (s : State) :
    (raiseKind k o d b s).offEvents = s.offEvents := by rw [raiseKind_eq]; rfl
@[simp] theorem raise_offEvents (k : EventKind) (o d : Nat) (s : State) : (raise k o d s).offEvents = s.offEvents := by simp [raise]
@[simp] theorem raiseInt_offEvents (k : EventKind) (o : Nat) (d : Int) (s : State) : (raiseInt k o d s).offEvents = s.offEvents := by
  simp [raiseInt]

theorem offSources_of (s t : State) (h : s.offEvents = t.offEvents) : s.offSources = t.offSources := by simp [State.offSources, h]
theorem offChannels_of (s t : State) (h : s.offEvents = t.offEvents) : s.offChannels = t.offChannels := by
  simp [State.offChannels, h]
theorem offNotices_of (s t : State) (h : s.offEvents = t.offEvents) : s.offNotices = t.offNotices := by simp [State.offNotices, h]

@[simp] theorem raise_offSources (k : EventKind) (o d : Nat) (s : State) : (raise k o d s).offSources = s.offSources :=
  offSources_of _ _ (by simp)
@[simp] theorem raiseInt_offSources (k : EventKind) (o : Nat) (d : Int) (s : State) : (raiseInt k o d s).offSources = s.offSources :=
  offSources_of _ _ (by simp)
@[simp] theorem raise_offChannels (k : EventKind) (o d : Nat) (s : State) : (raise k o d s).offChannels = s.offChannels :=
  offChannels_of _ _ (by simp)
@[simp] theorem raise_offNotices (k : EventKind) (o d : Nat) (s : State) : (raise k o d s).offNotices = s.offNotices :=
  offNotices_of _ _ (by simp)
@[simp] theorem raise_offIssue (k : EventKind) (o d : Nat) (s : State) : (raise k o d s).offIssue = s.offIssue := by
  simp only [raise, raiseKind_eq]; rfl
@[simp] theorem raise_offFleet (k : EventKind) (o d : Nat) (s : State) : (raise k o d s).offFleet = s.offFleet := by
  simp only [raise, raiseKind_eq]; rfl

/-! ## The work of a source -/

@[simp] theorem setSource_offSources (k : SourceId) (x : Source) (s : State) : (s.setSource k x).offSources = s.offSources := rfl
@[simp] theorem returnCells_offSources (c : List CellId) (s : State) : (returnCells c s).offSources = s.offSources := rfl
@[simp] theorem consume_offSources (k : SourceId) (m : Nat) (s : State) : (consume k m s).offSources = s.offSources := rfl
@[simp] theorem setBuffer_offSources (k : SourceId) (b : Buffer) (s : State) : (setBuffer k b s).offSources = s.offSources := rfl
@[simp] theorem enterRest_offSources (x : SourceState) (k : SourceId) (s : State) : (enterRest x k s).offSources = s.offSources := rfl
@[simp] theorem sourceOff_offSources (k : SourceId) (s : State) : (sourceOff k s).offSources = s.offSources := by
  unfold sourceOff; split <;> simp
@[simp] theorem sourceWaiting_offSources (k : SourceId) (s : State) : (sourceWaiting k s).offSources = s.offSources := by
  unfold sourceWaiting; split <;> simp

/-- A lending takes one cell from the head of the free list and touches only the cell store and, by POOL_LOW, the event flags. -/
theorem lendElastic_some (s t : State) (c : CellId) (h : lendElastic s = some (c, t)) :
    ∃ rest, s.pool.freeList = c :: rest ∧ t.pool = s.pool.lent rest ∧ t.sources = s.sources ∧ t.sched = s.sched ∧
      t.offSources = s.offSources := by
  unfold lendElastic at h
  split at h
  · cases h
  · next c' rest hf =>
    simp only [Option.some.injEq, Prod.mk.injEq] at h
    obtain ⟨rfl, rfl⟩ := h
    refine ⟨rest, hf, ?_⟩
    split <;> simp <;> rfl

@[simp] theorem growBuffer_offSources (n : Nat) (k : SourceId) (xs : List Sample) (s : State) :
    (growBuffer n k xs s).2.offSources = s.offSources := by
  induction n generalizing xs s with
  | zero => rfl
  | succ n ih =>
    cases xs with
    | nil => rfl
    | cons x xs =>
      unfold growBuffer
      split
      · rfl
      · next c s1 h =>
        obtain ⟨_, _, _, _, _, he⟩ := lendElastic_some _ _ _ h
        rw [ih]; simpa using he

@[simp] theorem overrun_offSources (k : SourceId) (n : Nat) (s : State) : (overrun k n s).offSources = s.offSources := by
  unfold overrun; extract_lets e; split <;> simp
@[simp] theorem writeSamples_offSources (k : SourceId) (xs : List Sample) (s : State) :
    (writeSamples k xs s).offSources = s.offSources := by
  unfold writeSamples; extract_lets b s1 w
  have h : w.2.offSources = s.offSources := (growBuffer_offSources _ _ _ _).trans (by simp [s1])
  split <;> simp only [raise_offSources, h]
@[simp] theorem append_offSources (k : SourceId) (xs : List Sample) (s : State) : (append k xs s).offSources = s.offSources := by
  simp [append]

@[simp] theorem setLol_offSources (k : SourceId) (n : Nat) (s : State) : (setLol k n s).offSources = s.offSources := by
  unfold setLol; dsimp only; split <;> simp
@[simp] theorem countLockLoss_offSources (k : SourceId) (s : State) : (countLockLoss k s).offSources = s.offSources := by
  simp [countLockLoss]
@[simp] theorem detectLock_offSources (k : SourceId) (e : Int) (s : State) : (detectLock k e s).offSources = s.offSources := by
  unfold detectLock; dsimp only; (repeat' split) <;> simp
@[simp] theorem filterAndDetect_offSources (k : SourceId) (s : State) : (filterAndDetect k s).offSources = s.offSources := by
  simp [filterAndDetect]
@[simp] theorem firstArrival_offSources (k : SourceId) (s : State) : (firstArrival k s).offSources = s.offSources := by
  unfold firstArrival; dsimp only; split <;> simp
@[simp] theorem prefillTest_offSources (k : SourceId) (s : State) : (prefillTest k s).offSources = s.offSources := by
  unfold prefillTest; dsimp only; (repeat' split) <;> simp
@[simp] theorem endHoldover_offSources (k : SourceId) (s : State) : (endHoldover k s).offSources = s.offSources := by
  unfold endHoldover; dsimp only; (repeat' split) <;> simp
@[simp] theorem arrivalProcessing_offSources (k : SourceId) (s : State) : (arrivalProcessing k s).offSources = s.offSources := by
  unfold arrivalProcessing; dsimp only; (repeat' split) <;> simp
@[simp] theorem markArrived_offSources (k : SourceId) (q : Option Byte) (s : State) : (markArrived k q s).offSources = s.offSources := by
  simp [markArrived]

/-- An arrival touches only the sources, the cell store and the event flags (R34). -/
@[simp] theorem arrival_offSources (k : SourceId) (q : Option Byte) (xs : List Sample) (s : State) :
    (arrival k q xs s).offSources = s.offSources := by
  unfold arrival; split <;> simp

@[simp] theorem output_offSources (k : SourceId) (s : State) : (output k s).offSources = s.offSources := by
  unfold output; dsimp only; split <;> simp
@[simp] theorem recordHistory_offSources (k : SourceId) (s : State) : (recordHistory k s).offSources = s.offSources := by
  unfold recordHistory; dsimp only; (repeat' split) <;> simp
@[simp] theorem enterHoldover_offSources (k : SourceId) (s : State) : (enterHoldover k s).offSources = s.offSources := by
  simp [enterHoldover]
@[simp] theorem loseSource_offSources (k : SourceId) (d : Nat) (s : State) : (loseSource k d s).offSources = s.offSources := by
  simp [loseSource]
@[simp] theorem prefillMark_offSources (k : SourceId) (s : State) : (prefillMark k s).offSources = s.offSources := by
  unfold prefillMark; extract_lets x age s1; split <;> simp [s1]
@[simp] theorem holdoverMark_offSources (k : SourceId) (s : State) : (holdoverMark k s).offSources = s.offSources := by
  unfold holdoverMark; extract_lets x s1; split <;> simp [s1]
@[simp] theorem fixedMark_offSources (k : SourceId) (s : State) : (fixedMark k s).offSources = s.offSources := by
  unfold fixedMark; extract_lets x age s1; split <;> simp [s1]
@[simp] theorem trackingMark_offSources (k : SourceId) (s : State) : (trackingMark k s).offSources = s.offSources := by
  unfold trackingMark; split <;> simp
@[simp] theorem markWork_offSources (k : SourceId) (s : State) : (markWork k s).offSources = s.offSources := by
  unfold markWork; dsimp only; (repeat' split) <;> simp

/-- A source's work at an OUTPUT mark touches only the sources, the cell store and the event flags (R58). -/
@[simp] theorem outputSource_offSources (k : SourceId) (s : State) : (outputSource k s).offSources = s.offSources := by
  simp [outputSource, clearArrived]

/-! ## The review of a channel -/

@[simp] theorem setChannel_offChannels (c : ChannelId) (x : Channel) (s : State) : (s.setChannel c x).offChannels = s.offChannels := rfl
@[simp] theorem switchTo_offChannels (c : ChannelId) (w : SwitchCause) (k : SourceId) (s : State) :
    (switchTo c w k s).offChannels = s.offChannels := by simp [switchTo]
@[simp] theorem applyPlan_offChannels (c : ChannelId) (d : Nat) (s : State) : (applyPlan c d s).offChannels = s.offChannels := by
  unfold applyPlan; dsimp only; split <;> simp
@[simp] theorem reselect_offChannels (c : ChannelId) (k : SourceId) (s : State) : (reselect c k s).offChannels = s.offChannels := by
  unfold reselect; dsimp only; split <;> simp
@[simp] theorem revertStep_offChannels (c : ChannelId) (p : Plan) (k : SourceId) (s : State) :
    (revertStep c p k s).offChannels = s.offChannels := by unfold revertStep; dsimp only; (repeat' split) <;> simp
@[simp] theorem reviewByState_offChannels (c : ChannelId) (s : State) : (reviewByState c s).offChannels = s.offChannels := by
  unfold reviewByState silentReview liveReview bridgingReview; dsimp only; (repeat' split) <;> simp

/-- A review writes only its own channel's record and the event flags (5.2). -/
@[simp] theorem reviewChannel_offChannels (c : ChannelId) (s : State) : (reviewChannel c s).offChannels = s.offChannels := by
  unfold reviewChannel; dsimp only; (repeat' split) <;> simp
@[simp] theorem stopChannel_offChannels (c : ChannelId) (s : State) : (stopChannel c s).offChannels = s.offChannels := by
  unfold stopChannel; dsimp only; (repeat' split) <;> simp

/-! ## The notices of a build -/

@[simp] theorem removeNotice_offNotices (n : NoticeRecord) (s : State) : (removeNotice n s).offNotices = s.offNotices := rfl
@[simp] theorem expireOne_offNotices (m : Count) (h : Nat) (s : State) : (expireOne m h s).offNotices = s.offNotices := by
  unfold expireOne; (repeat' split) <;> simp
@[simp] theorem expireNotices_offNotices (m : Count) (s : State) : (expireNotices m s).offNotices = s.offNotices :=
  forEach_same State.offNotices _ (fun _ _ => by simp) _ s
@[simp] theorem afterPlacement_offNotices (m : Count) (n : NoticeRecord) (s : State) :
    (afterPlacement m n s).offNotices = s.offNotices := by unfold afterPlacement; dsimp only; split <;> rfl
@[simp] theorem scanOne_offNotices (m : Count) (c : NoticeClass) (p : Placement) (h : Nat) :
    (scanOne m c p h).state.offNotices = p.state.offNotices := by unfold scanOne; dsimp only; (repeat' split) <;> simp
@[simp] theorem scanQueue_offNotices (m : Count) (c : NoticeClass) (p : Placement) :
    (scanQueue m c p).state.offNotices = p.state.offNotices := by
  unfold scanQueue
  generalize p.state.sched.queue c = l
  induction l generalizing p with
  | nil => rfl
  | cons a l ih => rw [List.foldl_cons, ih, scanOne_offNotices]
@[simp] theorem updateLate_offNotices (p : Placement) : (updateLate p).offNotices = p.state.offNotices := by
  unfold updateLate; dsimp only; split <;> rfl

/-- A placement touches only the notice scheduler, the cell store and the event flags (6.5). -/
@[simp] theorem placeNotices_offNotices (m : Count) (c : Nat) (s : State) : (placeNotices m c s).1.offNotices = s.offNotices := by
  have h : ∀ b : Bool, ({ expireNotices m s with sched := { (expireNotices m s).sched with lateFlag := b } } : State).offNotices
      = s.offNotices := fun b => (expireNotices_offNotices m s)
  unfold placeNotices
  dsimp only
  split <;> simp [h]

/-! ## The rack bus and the charge controller -/

@[simp] theorem setSlot_offRacks (a : SlotAddr) (x : Option Slot) (s : State) : (s.setSlot a x).offRacks = s.offRacks := rfl
@[simp] theorem modSlot_offRacks (a : SlotAddr) (f : Slot → Slot) (s : State) : (s.modSlot a f).offRacks = s.offRacks := rfl
@[simp] theorem setRack_offRacks (r : RackId) (x : Option RackWindow) (s : State) : (s.setRack r x).offRacks = s.offRacks := rfl
@[simp] theorem modRack_offRacks (r : RackId) (f : RackWindow → RackWindow) (s : State) : (s.modRack r f).offRacks = s.offRacks := rfl
@[simp] theorem setQueue_offRacks (q : Fin 6) (l : List Exchange) (s : State) : (s.setQueue q l).offRacks = s.offRacks := rfl

/-- A request for an exchange is discarded, merged, dropped, or added at the tail of its class queue (R116). -/
theorem request_cases (e : Exchange) (s : State) :
    (e.allowed s = false ∧ request e s = (.discarded, s)) ∨
      (e.allowed s = true ∧ e.merged s = true ∧ request e s = (.queued, s)) ∨
      (e.allowed s = true ∧ e.merged s = false ∧ 64 ≤ (s.bus.queues[e.queue]).length ∧ request e s = (.dropped, s)) ∨
      (e.allowed s = true ∧ e.merged s = false ∧ (s.bus.queues[e.queue]).length < 64 ∧
        request e s = (.queued, s.setQueue e.queue (s.bus.queues[e.queue] ++ [e]))) := by
  unfold request queueCapacity
  by_cases h1 : e.allowed s = false
  · exact .inl ⟨h1, by rw [if_pos h1]⟩
  · have h1' : e.allowed s = true := by simpa using h1
    by_cases h2 : e.merged s = true
    · exact .inr (.inl ⟨h1', h2, by rw [if_neg h1, if_pos h2]⟩)
    · have h2' : e.merged s = false := by simpa using h2
      by_cases h3 : 64 ≤ (s.bus.queues[e.queue]).length
      · exact .inr (.inr (.inl ⟨h1', h2', h3, by rw [if_neg h1, if_neg h2, if_pos h3]⟩))
      · exact .inr (.inr (.inr ⟨h1', h2', by omega, by rw [if_neg h1, if_neg h2, if_neg h3]⟩))

@[simp] theorem request_offRacks (e : Exchange) (s : State) : (request e s).2.offRacks = s.offRacks := by
  rcases request_cases e s with h | h | h | h <;> simp [h]
@[simp] theorem ask_offRacks (e : Exchange) (s : State) : (ask e s).offRacks = s.offRacks := by simp [ask]
@[simp] theorem scanAll_offRacks (s : State) : (scanAll s).offRacks = s.offRacks :=
  forEach_same State.offRacks _ (fun _ _ => by simp) _ s
@[simp] theorem unqueue_offRacks (e : Exchange) (s : State) : (unqueue e s).offRacks = s.offRacks := rfl
@[simp] theorem requestSetCharge_offRacks (a : SlotAddr) (m : ChargeMode) (s : State) :
    (requestSetCharge a m s).offRacks = s.offRacks := by
  have h := request_offRacks (.setCharge a m) s
  unfold requestSetCharge
  split <;> simp_all
@[simp] theorem admit_offRacks (r : RackId) (a : SlotAddr) (s : State) : (admitHead r a s).offRacks = s.offRacks := by simp [admitHead]
@[simp] theorem attemptLoop_offRacks (n : Nat) (r : RackId) (s : State) : (attemptLoop n r s).offRacks = s.offRacks := by
  induction n generalizing s with
  | zero => rfl
  | succ n ih => unfold attemptLoop; (repeat' split) <;> simp [ih]

/-- An attempt at admission touches only the racks, their slots and the bus (R134). -/
@[simp] theorem attempt_offRacks (r : RackId) (s : State) : (attempt r s).offRacks = s.offRacks := by simp [attempt]
@[simp] theorem attemptFor_offRacks (a : SlotAddr) (s : State) : (attemptFor a s).offRacks = s.offRacks := by
  unfold attemptFor; split <;> simp
@[simp] theorem modRackOf_offRacks (a : SlotAddr) (f : RackWindow → RackWindow) (s : State) :
    (modRackOf a f s).offRacks = s.offRacks := by unfold modRackOf; split <;> simp
@[simp] theorem startWaiting_offRacks (a : SlotAddr) (s : State) : (startWaiting a s).offRacks = s.offRacks := by
  simp [startWaiting, joinQueue]
@[simp] theorem enterCharging_offRacks (a : SlotAddr) (s : State) : (enterCharging a s).offRacks = s.offRacks := by
  unfold enterCharging; dsimp only; split <;> simp
@[simp] theorem leaveCharging_offRacks (a : SlotAddr) (s : State) : (leaveCharging a s).offRacks = s.offRacks := by
  unfold leaveCharging; dsimp only; split <;> simp
@[simp] theorem endCharging_offRacks (a : SlotAddr) (s : State) : (endCharging a s).offRacks = s.offRacks := by
  unfold endCharging; dsimp only; (repeat' split) <;> simp
@[simp] theorem endByReservation_offRacks (a : SlotAddr) (s : State) : (endByReservation a s).offRacks = s.offRacks := by
  simp [endByReservation, dropChargeExchanges]
@[simp] theorem handBack_offRacks (a : SlotAddr) (s : State) : (handBack a s).offRacks = s.offRacks := by simp [handBack]

/-- The judgement of an answered POLL touches only the racks, their slots and the bus (R136). -/
@[simp] theorem judgePoll_offRacks (a : SlotAddr) (s : State) : (judgePoll a s).offRacks = s.offRacks := by
  unfold judgePoll passToTop passToFull; dsimp only; (repeat' split) <;> simp

/-! ## Issue operations -/

theorem offIssue_of (s t : State) (h : s.offRacks = t.offRacks) : s.offIssue = t.offIssue := by
  unfold State.offIssue
  rw [h]
theorem offFleet_of (s t : State) (h : s.offIssue = t.offIssue) : s.offFleet = t.offFleet := by
  unfold State.offFleet
  rw [h]

@[simp] theorem completeOp_offIssue (g : GroupId) (s : State) : (completeOp g s).offIssue = s.offIssue := by
  unfold completeOp
  (repeat' split) <;> simp only [raise, raiseKind_eq] <;> rfl
@[simp] theorem reserveSlot_offIssue (g : GroupId) (o : IssueOperation) (a : SlotAddr) (s : State) :
    (reserveSlot g o a s).offIssue = s.offIssue := by
  unfold reserveSlot
  refine (offIssue_of _ _ (ask_offRacks _ _)).trans ?_
  change (endByReservation a _).offIssue = _
  exact offIssue_of _ _ (by simp)
@[simp] theorem chooseNext_offIssue (g : GroupId) (s : State) : (chooseNext g s).offIssue = s.offIssue := by
  unfold chooseNext; (repeat' split) <;> simp
@[simp] theorem nextOrComplete_offIssue (g : GroupId) (s : State) : (nextOrComplete g s).offIssue = s.offIssue := by
  unfold nextOrComplete; (repeat' split) <;> simp

/-- A failed candidate and what its operation does next touch only the racks, slots, bus, groups, operations, roster and the
event flags (R157). -/
@[simp] theorem failCandidate_offIssue (g : GroupId) (a : SlotAddr) (b : Bool) (s : State) :
    (failCandidate g a b s).offIssue = s.offIssue := by
  unfold failCandidate; extract_lets s1 occupied
  have h : s1.offIssue = s.offIssue := rfl
  rw [nextOrComplete_offIssue]
  split
  · exact (offIssue_of _ _ (by simp)).trans h
  · exact h
@[simp] theorem failAt_offIssue (a : SlotAddr) (l : List Stage) (b : Bool) (s : State) : (failAt a l b s).offIssue = s.offIssue := by
  unfold failAt; split <;> simp

/-! ## The rack bus and the fleet manager together -/

@[simp] theorem offFleet_ask (e : Exchange) (s : State) : (ask e s).offFleet = s.offFleet :=
  offFleet_of _ _ (offIssue_of _ _ (by simp))
@[simp] theorem modDevice_offFleet (d : DeviceId) (f : Device → Device) (s : State) : (s.modDevice d f).offFleet = s.offFleet := rfl
@[simp] theorem modSlot_offFleet (a : SlotAddr) (f : Slot → Slot) (s : State) : (s.modSlot a f).offFleet = s.offFleet := rfl
@[simp] theorem setSlot_offFleet (a : SlotAddr) (x : Option Slot) (s : State) : (s.setSlot a x).offFleet = s.offFleet := rfl
@[simp] theorem modRack_offFleet (r : RackId) (f : RackWindow → RackWindow) (s : State) : (s.modRack r f).offFleet = s.offFleet := rfl
@[simp] theorem setGroup_offFleet (g : GroupId) (x : Group) (s : State) : (s.setGroup g x).offFleet = s.offFleet := rfl
@[simp] theorem setRoster_offFleet (k : RosterId) (x : RosterEntry) (s : State) : (s.setRoster k x).offFleet = s.offFleet := rfl
@[simp] theorem modOp_offFleet (g : GroupId) (f : IssueOperation → IssueOperation) (s : State) :
    (s.modOp g f).offFleet = s.offFleet := rfl
@[simp] theorem enterRest_offFleet (x : SourceState) (k : SourceId) (s : State) : (enterRest x k s).offFleet = s.offFleet := rfl
@[simp] theorem unqueue_offFleet (e : Exchange) (s : State) : (unqueue e s).offFleet = s.offFleet := rfl
@[simp] theorem enterCharging_offFleet (a : SlotAddr) (s : State) : (enterCharging a s).offFleet = s.offFleet :=
  offFleet_of _ _ (offIssue_of _ _ (by simp))
@[simp] theorem endCharging_offFleet (a : SlotAddr) (s : State) : (endCharging a s).offFleet = s.offFleet :=
  offFleet_of _ _ (offIssue_of _ _ (by simp))
@[simp] theorem judgePoll_offFleet (a : SlotAddr) (s : State) : (judgePoll a s).offFleet = s.offFleet :=
  offFleet_of _ _ (offIssue_of _ _ (by simp))
@[simp] theorem request_offFleet (e : Exchange) (s : State) : (request e s).2.offFleet = s.offFleet :=
  offFleet_of _ _ (offIssue_of _ _ (by simp))
@[simp] theorem failAt_offFleet (a : SlotAddr) (l : List Stage) (b : Bool) (s : State) : (failAt a l b s).offFleet = s.offFleet :=
  offFleet_of _ _ (by simp)
@[simp] theorem completeOp_offFleet (g : GroupId) (s : State) : (completeOp g s).offFleet = s.offFleet :=
  offFleet_of _ _ (by simp)
@[simp] theorem nextOrComplete_offFleet (g : GroupId) (s : State) : (nextOrComplete g s).offFleet = s.offFleet :=
  offFleet_of _ _ (by simp)
@[simp] theorem failCandidate_offFleet (g : GroupId) (a : SlotAddr) (b : Bool) (s : State) :
    (failCandidate g a b s).offFleet = s.offFleet := offFleet_of _ _ (by simp)
@[simp] theorem setClear_offFleet (d : DeviceId) (c : ClearState) (s : State) : (setClear d c s).offFleet = s.offFleet := rfl
@[simp] theorem deliverDiscarded_offFleet (b : Bool) (e : Exchange) (s : State) :
    (deliverDiscarded b e s).offFleet = s.offFleet := by cases e <;> simp [deliverDiscarded]
@[simp] theorem deliverTimeout_offFleet (e : Exchange) (s : State) : (deliverTimeout e s).offFleet = s.offFleet := by
  cases e <;> simp [deliverTimeout]
@[simp] theorem discardSlot_offFleet (a : SlotAddr) (b : Bool) (s : State) : (discardSlot a b s).offFleet = s.offFleet :=
  forEach_same State.offFleet _ (fun _ _ => by simp) _ s
@[simp] theorem requestClear_offFleet (a : SlotAddr) (d : DeviceId) (s : State) : (requestClear a d s).offFleet = s.offFleet := by
  have h := request_offFleet (.clear a d) s
  unfold requestClear
  split <;> simp_all
@[simp] theorem sourceOff_offFleet (k : SourceId) (s : State) : (sourceOff k s).offFleet = s.offFleet := by
  unfold sourceOff; split <;> simp
@[simp] theorem sourceWaiting_offFleet (k : SourceId) (s : State) : (sourceWaiting k s).offFleet = s.offFleet := by
  unfold sourceWaiting; split <;> simp
@[simp] theorem bindRoster_offFleet (k : RosterId) (d : DeviceId) (s : State) : (bindRoster k d s).offFleet = s.offFleet := by
  unfold bindRoster; dsimp only; split <;> simp
@[simp] theorem unbindRoster_offFleet (k : RosterId) (s : State) : (unbindRoster k s).offFleet = s.offFleet := by
  simp [unbindRoster]
@[simp] theorem freeGroup_offFleet (g : GroupId) (s : State) : (freeGroup g s).offFleet = s.offFleet := by
  unfold freeGroup; dsimp only; split <;> rfl
@[simp] theorem closeIfEmpty_offFleet (g : GroupId) (s : State) : (closeIfEmpty g s).offFleet = s.offFleet := by
  unfold closeIfEmpty; dsimp only; split <;> simp

@[simp] theorem raise_of_offFleet (k : EventKind) (o d : Nat) (s t : State) (h : s.offFleet = t.offFleet) :
    (raise k o d s).offFleet = t.offFleet := by simp [h]
@[simp] theorem emptiedDevice_offFleet (r : EmptyReason) (a : SlotAddr) (s : State) : (emptiedDevice r a s).offFleet = s.offFleet := by
  unfold emptiedDevice; (repeat' split) <;> simp
@[simp] theorem emptiedReservation_offFleet (a : SlotAddr) (s : State) : (emptiedReservation a s).offFleet = s.offFleet := by
  unfold emptiedReservation; split <;> simp

/-- Emptying a slot touches nothing outside the racks, the bus, the fleet and the event flags (R121). -/
@[simp] theorem emptySlot_offFleet (r : EmptyReason) (a : SlotAddr) (s : State) : (emptySlot r a s).offFleet = s.offFleet := by
  unfold emptySlot; (repeat' split) <;> simp
@[simp] theorem markFault_offFleet (a : SlotAddr) (c : FaultCause) (s : State) : (markFault a c s).offFleet = s.offFleet := by
  unfold markFault; dsimp only; split <;> simp
@[simp] theorem enterFault_offFleet (a : SlotAddr) (c : FaultCause) (s : State) : (enterFault a c s).offFleet = s.offFleet := by
  simp [enterFault]
@[simp] theorem scanPosition_offFleet (w : RackWindow) (p : List Byte) (a : SlotAddr) (s : State) :
    (scanPosition w p a s).offFleet = s.offFleet := by unfold scanPosition; dsimp only; (repeat' split) <;> simp
@[simp] theorem clearOwed_offFleet (a : SlotAddr) (s : State) : (clearOwed a s).offFleet = s.offFleet := by
  unfold clearOwed; (repeat' split) <;> simp
@[simp] theorem scanComplete_offFleet (r : RackId) (p : List Byte) (s : State) : (scanComplete r p s).offFleet = s.offFleet := by
  unfold scanComplete
  split
  · rfl
  · exact (forEach_same State.offFleet _ (fun _ _ => by simp) _ _).trans
      ((forEach_same State.offFleet _ (fun _ _ => by simp) _ _).trans (by simp))
@[simp] theorem occupySlot_offFleet (a : SlotAddr) (d : DeviceId) (k : DeviceKind) (l : Nat) (s : State) :
    (occupySlot a d k l s).offFleet = s.offFleet := rfl
@[simp] theorem returnDevice_offFleet (d : Device) (a : SlotAddr) (l : Nat) (s : State) :
    (returnDevice d a l s).offFleet = s.offFleet := by
  unfold returnDevice
  split
  · simp
  · extract_lets g x s1 s2 s3
    have h2 : s2.offFleet = s.offFleet := by simp only [s2]; split <;> simp [s1]
    simp [s3, h2]
@[simp] theorem probeOutcome_offFleet (a : SlotAddr) (d : DeviceId) (k : DeviceKind) (l : Nat) (s : State) :
    (probeOutcome a d k l s).offFleet = s.offFleet := by
  unfold probeOutcome; dsimp only; (repeat' split) <;> first | (simp; done) | (simp; rfl)
@[simp] theorem probeComplete_offFleet (a : SlotAddr) (p : List Byte) (s : State) : (probeComplete a p s).offFleet = s.offFleet := by
  unfold probeComplete
  extract_lets id s1
  have h1 : s1.offFleet = s.offFleet := by simp only [s1]; split <;> simp
  (repeat' split) <;> simp [h1]
@[simp] theorem storeLevel_offFleet (a : SlotAddr) (l : Nat) (s : State) : (storeLevel a l s).offFleet = s.offFleet := by
  unfold storeLevel; dsimp only; split <;> simp
@[simp] theorem pollComplete_offFleet (a : SlotAddr) (p : List Byte) (s : State) : (pollComplete a p s).offFleet = s.offFleet := by
  unfold pollComplete; dsimp only; split <;> simp
@[simp] theorem tuneAnswered_offFleet (a : SlotAddr) (s : State) : (tuneAnswered a s).offFleet = s.offFleet := by
  unfold tuneAnswered
  split
  · rfl
  · extract_lets s1
    have h1 : s1.offFleet = s.offFleet := by simp only [s1]; split <;> simp
    have h2 := request_offFleet (.release a) s1
    split <;> simp_all
@[simp] theorem issueDevice_offFleet (g : GroupId) (o : IssueOperation) (a : SlotAddr) (d : DeviceId) (s : State) :
    (issueDevice g o a d s).offFleet = s.offFleet := by unfold issueDevice; dsimp only; split <;> simp
@[simp] theorem releaseAnswered_offFleet (a : SlotAddr) (s : State) : (releaseAnswered a s).offFleet = s.offFleet := by
  unfold releaseAnswered; dsimp only; (repeat' split) <;> simp

/-- A completed exchange touches nothing outside the racks, the bus, the fleet, the sources and channels it tells, the cell
store and the event flags (R118). -/
@[simp] theorem complete_offFleet (e : Exchange) (p : List Byte) (s : State) : (complete e p s).offFleet = s.offFleet := by
  cases e <;> simp [complete, setTimeouts]

end Sys2Proof.Machine
end

