-- ==== Sys2Proof/Laws/Work.lean ====
section
/-! SUPPORT. What the shared operations do to the record they work on, each said once, in the terms of Safety.lean: the cell store
and a source's buffer, a source's output and filter, a channel's changes, a requested SET_CHARGE, and what raises do to the link. -/

namespace Sys2Proof.Machine

/-! ## The cell store -/

/-- All m cells of a notice are lent from the head of the free list, or none (R38). -/
theorem lendNotice_cases (m : Nat) (s : State) :
    (m + 64 ≤ s.pool.free ∧
        lendNotice m s = some (s.pool.freeList.take m, { s with pool := s.pool.lent (s.pool.freeList.drop m) })) ∨
      (s.pool.free < m + 64 ∧ lendNotice m s = none) := by
  unfold lendNotice voiceReserve
  by_cases h : m + 64 ≤ s.pool.free
  · exact .inl ⟨h, by rw [if_pos h]⟩
  · exact .inr ⟨by omega, by rw [if_neg h]⟩

/-- A buffer after m of its samples have left it, in the terms of the claims. -/
theorem consumed_eq_without (b : Buffer) (m : Nat) : b.consumed m = b.without m := by
  by_cases h : b.fill ≤ m
  · have h' : b.samples.length ≤ m := h
    rw [Buffer.consumed, Buffer.without, if_pos h, if_pos h']
  · have h' : ¬b.samples.length ≤ m := h
    rw [Buffer.consumed, Buffer.without, if_neg h, if_neg h', Buffer.emptied, if_neg h]

@[simp] theorem consume_sources (k : SourceId) (m : Nat) (s : State) :
    (consume k m s).sources = s.sources.set k { s.sources[k] with buffer := s.sources[k].buffer.without m } := by
  simp only [← consumed_eq_without]; rfl

/-- The cells that leave a buffer are at the tail of the free list. -/
theorem consume_freeList (k : SourceId) (m : Nat) (s : State) :
    (consume k m s).pool.freeList = s.pool.freeList ++ s.sources[k].buffer.chain.take (s.sources[k].buffer.emptied m) := rfl

@[simp] theorem enterRest_sources (st : SourceState) (k : SourceId) (s : State) :
    (enterRest st k s).sources = s.sources.set k (s.sources[k].rested st) := rfl

theorem enterRest_freeList (st : SourceState) (k : SourceId) (s : State) :
    (enterRest st k s).pool.freeList = s.pool.freeList ++ s.sources[k].buffer.chain := rfl

/-! ## The filter and lock detection -/

theorem clampInt_eq_band (b x : Int) : clampInt (-b) b x = band b x := rfl

/-- Both ways of writing Scale(x, B) (4.3). -/
theorem scale_eq_scaled (x : Int) (b : Nat) : scale x b = scaled x b := by
  unfold scale scaled
  split
  · next h =>
    obtain ⟨c, hc⟩ : ∃ c, 16 = b + c := ⟨16 - b, by omega⟩
    have e : (65536 : Int) = 2 ^ c * 2 ^ b := by
      rw [← pow_add, show c + b = 16 by omega]; norm_num
    rw [show 16 - b = c by omega, e, ← mul_assoc, Int.mul_fdiv_cancel _ (by positivity)]
  · next h =>
    obtain ⟨c, rfl⟩ : ∃ c, b = 16 + c := ⟨b - 16, by omega⟩
    rw [show 16 + c - 16 = c by omega, pow_add, show (2 : Int) ^ 16 = 65536 by norm_num, mul_comm x, Int.fdiv_eq_ediv_of_nonneg _ (by positivity),
      Int.fdiv_eq_ediv_of_nonneg _ (by positivity), Int.mul_ediv_mul_of_pos _ _ (by norm_num)]

@[simp] theorem setLol_sources (k : SourceId) (n : Nat) (s : State) :
    (setLol k n s).sources = s.sources.set k { s.sources[k] with lol := n } := by
  unfold setLol; dsimp only; split <;> simp

@[simp] theorem countLockLoss_sources (k : SourceId) (s : State) :
    (countLockLoss k s).sources = s.sources.set k { s.sources[k] with lol := min 15 (s.sources[k].lol + 1) } := by
  simp [countLockLoss]

/-- The filter and lock detection leave the source as the claims say (R54, R55). -/
theorem filterAndDetect_sources (k : SourceId) (s : State)
    (h : s.sources[k].state = .acquire ∨ s.sources[k].state = .track) :
    (filterAndDetect k s).sources = s.sources.set k (tracked s.sources[k] s.sources[k].buffer.fill) := by
  have abs_le : ∀ (e : Int) (n : Nat), (e.natAbs ≤ n) = (|e| ≤ (n : Int)) := by
    intro e n; rw [Int.abs_eq_natAbs, Int.ofNat_le]
  unfold filterAndDetect detectLock
  generalize s.sources[k] = x at h
  have due := Classical.em (x.settings.lockTimer / 2 ≤ min 65535 (x.run + 1))
  rcases h with h | h
  · simp only [State.setSource_sources, get_set_same, Source.filtered, fillError, h, tracked, abs_le, clampInt_eq_band, scale_eq_scaled,
      if_true, decide_true]
    split <;> rcases due with d | d <;> simp [d, State.setSource]
  · simp only [State.setSource_sources, get_set_same, Source.filtered, fillError, h, tracked, abs_le, clampInt_eq_band, scale_eq_scaled,
      reduceCtorEq, if_false, decide_false]
    rcases Bool.eq_false_or_eq_true x.locked with hl | hl <;> simp only [hl, Bool.true_eq_false, if_true, if_false] <;> split <;>
      rcases due with d | d <;> simp [d, State.setSource]

/-! ## The output -/

/-- The slip, the corrected accumulator and the number of samples asked for (R59). -/
theorem slipOf_eq (acc r : Int) : slipOf acc r = (slipFor (acc + r), acc + r - 65536 * slipFor (acc + r)) := by
  unfold slipOf slipFor
  dsimp only
  split
  · simp
  · split <;> simp

/-- The output work leaves the source as the claims say, but for block_arrived, which the end of the mark clears (R59, R60). -/
theorem output_sources (k : SourceId) (s : State) :
    (output k s).sources = s.sources.set k { produced s.sources[k] with blockArrived := s.sources[k].blockArrived } := by
  unfold output
  generalize s.sources[k] = x
  simp only [slipOf_eq]
  have hs : slipFor (x.acc + x.r) = 1 ∨ slipFor (x.acc + x.r) = -1 ∨ slipFor (x.acc + x.r) = 0 := by
    unfold slipFor; split
    · exact .inl rfl
    · split
      · exact .inr (.inl rfl)
      · exact .inr (.inr rfl)
  have hk : ∀ (s1 : State) (c : Prop) [Decidable c] (a b : Nat), (if c then raise .elasticUnderrun a b s1 else s1).sources = s1.sources := by
    intros; split <;> simp
  rw [hk]
  have hd : (160 + slipFor (x.acc + x.r)).toNat = demand x := rfl
  simp only [consume_sources, State.setSource_sources, get_set_same, Vector.set_set, produced, hd]
  congr 2
  by_cases h : x.buffer.samples.length < demand x
  · have hn : ¬demand x ≤ x.buffer.fill := Nat.not_le.mpr h
    rw [if_neg hn, if_pos h, List.take_of_length_le (Nat.le_of_lt h)]
    simp [List.take_append, List.take_replicate, Buffer.fill, -List.reduceReplicate]
  · have hn : demand x ≤ x.buffer.fill := Nat.not_lt.mp h
    rw [if_pos hn, if_neg h]
    rcases hs with e | e | e <;> simp [demand, e, blockOf, List.take_take, List.drop_take]

/-! ## Raises and the link -/

/-- No raise. -/
theorem NoticesAdded.refl (s : State) : NoticesAdded s s :=
  ⟨fun _ => ⟨rfl, id⟩, [], by simp, by simp, by simp, by simp, fun _ h _ h' => absurd (h.symm.trans h') (by decide)⟩

/-- Raises of the same superframe, one after another. -/
theorem NoticesAdded.trans {s t u : State} (h : NoticesAdded s t) (g : NoticesAdded t u) (hc : t.air.count = s.air.count) :
    NoticesAdded s u := by
  obtain ⟨hk, l, hl, hn, hp, hb, hm⟩ := h
  obtain ⟨gk, m, gl, gn, gp, gb, gm⟩ := g
  have ho : t.link.outbound.length = s.link.outbound.length + l.length := by simp [hl]
  have uo : u.link.outbound.length = t.link.outbound.length + m.length := by simp [gl]
  have hr : t.link.resetPending = s.link.resetPending := by rw [hl]
  refine ⟨fun k => ⟨(gk k).1.trans (hk k).1, fun e => (gk k).2 ((hk k).2 e)⟩, l ++ m, ?_, ?_, ?_, ?_, ?_⟩
  · rw [gl, hl, hc]; simp
  · rw [List.map_append, List.nodup_append]
    refine ⟨hn, gn, fun a ha b hb e => ?_⟩
    obtain ⟨p, pl, rfl⟩ := List.mem_map.1 ha
    obtain ⟨q, ql, rfl⟩ := List.mem_map.1 hb
    have h1 := (hp p pl).2.2.1
    have h2 := (gp q ql).1
    have h3 : ∀ i j : EventId, i = j → (t.events[i]).raw = (t.events[j]).raw := fun i j e => by rw [e]
    exact absurd (((h3 _ _ e).symm.trans h1).symm.trans h2) (by decide)
  · intro p pm
    rcases List.mem_append.1 pm with pl | pl
    · exact ⟨(hp p pl).1, (hp p pl).2.1, (gk p.1).2 (hp p pl).2.2.1, (hp p pl).2.2.2⟩
    · have q := gp p pl
      refine ⟨?_, by rw [← (hk p.1).1]; exact q.2.1, q.2.2.1, by rw [← hr]; exact q.2.2.2⟩
      by_contra e
      have := (hk p.1).2 (by simpa using e)
      rw [q.1] at this; exact absurd this (by simp)
  · rw [List.length_append]; omega
  · intro k raw enable raised pend
    by_cases e : (t.events[k]).raw = true
    · rcases hm k raw enable e pend with ⟨p, pl, pk⟩ | full
      · exact .inl ⟨p, List.mem_append_left _ pl, pk⟩
      · exact .inr (by omega)
    · rcases gm k (by simpa using e) (by rw [(hk k).1]; exact enable) raised (by rw [hr]; exact pend) with ⟨p, pl, pk⟩ | full
      · exact .inl ⟨p, List.mem_append_right _ pl, pk⟩
      · exact .inr full

/-- A block's raise. -/
theorem noticesAdded_raiseKind (k : EventId) (o : Nat) (d : BitVec 32) (s : State) : NoticesAdded s (raiseKind k o d false s) := by
  have he : ∀ j : EventId, ((raiseKind k o d false s).events[j]) =
      if j = k then (s.events[k]).raised { object := o, detail := d, count := s.air.count, byRequest := false } else s.events[j] := by
    intro j
    simp only [raiseKind_events]
    by_cases e : j = k
    · subst e; simp [raiseRecord]
    · have : k.val ≠ j.val := fun h => e (Fin.ext h.symm)
      simp [e, this]
  refine ⟨fun j => ?_, ?_⟩
  · rw [he]; split
    · next e => subst e; exact ⟨rfl, fun _ => rfl⟩
    · exact ⟨rfl, id⟩
  by_cases c : (s.events[k]).raw = false ∧ (s.events[k]).enable = true ∧ s.link.resetPending = false ∧ s.link.outbound.length < 24
  · refine ⟨[(k, o, d)], ?_, by simp, ?_, ?_, ?_⟩
    · rw [raiseKind_link, raiseNotice, if_pos c]; simp [eventNotice, leFlag, raiseRecord]
    · simp only [List.mem_singleton, forall_eq]
      exact ⟨c.1, c.2.1, by rw [he]; simp [EventKindState.raised], c.2.2.1⟩
    · simp; omega
    · intro j raw enable raised _
      rw [he] at raised
      split at raised
      · next e => exact .inl ⟨_, List.mem_singleton_self _, e.symm⟩
      · rw [raw] at raised; exact absurd raised (by simp)
  · refine ⟨[], ?_, by simp, by simp, by simp, ?_⟩
    · rw [raiseKind_link, raiseNotice, if_neg c]; simp
    · intro j raw enable raised pend
      rw [he] at raised
      split at raised
      · next e => subst e; right; rw [raiseKind_link, raiseNotice, if_neg c]; by_contra h; exact c ⟨raw, enable, pend, by simpa using h⟩
      · rw [raw] at raised; exact absurd raised (by simp)

end Sys2Proof.Machine
end

