-- ==== Sys2Proof/Tests/Slice0.lean ====
section
/-! SUPPORT. Tests on small states, by kernel evaluation: the checks of WellFormed, the worked numbers of the spec, and, for each
obligation that has hypotheses, a state and operands that meet them. -/

namespace Sys2Proof.Tests

set_option Elab.async false

open Sys2Proof.Machine

/-! ## States -/

/-- Right after a hard reset, with the STARTED notice already sent. -/
def quiet : State := { State.reset with link := { State.reset.link with outbound := [] } }

/-- A receiver DOCKED at slot 0, a microphone DOCKED at slot 1, a receiver OUT, and one UNSEEN. -/
def fleet : List Device :=
  [{ id := 0x2000B001, kind := .receiver, state := .docked, slot := some 0, level := 60, assignment := none, clearState := .none },
   { id := 0x2000C024, kind := .mic, state := .docked, slot := some 1, level := 100, assignment := none, clearState := .none },
   { id := 0x2000C020, kind := .receiver, state := .out, slot := none, level := 96,
     assignment := some { group := 0, channel := 0, roster := none }, clearState := .none },
   { id := 0x2000B00C, kind := .receiver, state := .unseen, slot := none, level := 20, assignment := none, clearState := .none }]

/-- Rack 0 with four slots: a BULK session at slot 0. -/
def rack : RackWindow :=
  { base := 0, size := 4, settle := 4, rackState := .online, scanMisses := 0, scanTimer := true, budget := 2000, committed := 450,
    sessions := [0], shedPart := [], micPart := [], receiverPart := [] }

/-- Slot 0 in BULK, slot 1 FULL, slot 2 PROBING, slot 3 in FAULT. -/
def slotZero : Slot :=
  { Slot.initial with occupancy := .occupied, deviceId := some 0x2000B001, level := 60, phase := .bulk, pollTimer := some 2 }
def slotOne : Slot :=
  { Slot.initial with occupancy := .occupied, deviceId := some 0x2000C024, level := 100, phase := .full, pollTimer := some 2 }
def slotTwo : Slot := { Slot.initial with occupancy := .probing }
def slotThree : Slot := { Slot.initial with occupancy := .fault, faultCause := some .timeout }

/-- A ROUTINE notice of one cell. -/
def notice : NoticeRecord :=
  { handle := 3, cls := .routine, kind := .text, targetType := .all, targetValue := 0, retuneChannel := none, repeatsRemaining := 2,
    interval := 4, notBefore := 5, expiry := none, payload := [72, 105], cells := [5], transmissions := 0 }

def plan : Plan :=
  { language := { first := 0x45, second := 0x4E, third := 0x47 }, sources := [12, 0], revert := false, switchDelay := 20,
    revertWait := 100 }

/-- Line source 12 in FIXED with 160 samples in five cells. -/
def line : Source :=
  { Source.initial .fixed with
    state := .fixed, line := true, buffer := { chain := [0, 1, 2, 3, 4], readOffset := 0, samples := List.replicate 160 7 } }

/-- A part at work: the air RUNNING in superframe 5, channel 0 LIVE on source 12 with group 0 bound to it, one notice waiting, and
rack 0 with its devices. -/
def busy : State :=
  { quiet with
    air := { quiet.air with running := true, ready := true, count := 5, image := quiet.air.image },
    pool := { freeList := (List.finRange 512).drop 6, lowWater := 506 }, sources := quiet.sources.set 12 line,
    channels := quiet.channels.set 0
      { Channel.initial with state := .live, livePlan := some plan, activeSource := some 12, boundGroups := 1 },
    sched := { quiet.sched with records := [notice], routine := [3], nextHandle := 4 }, racks := quiet.racks.set 0 (some rack),
    slots := (((quiet.slots.set 0 (some slotZero)).set 1 (some slotOne)).set 2 (some slotTwo)).set 3 (some slotThree),
    devices := fleet, groups := quiet.groups.set 0 { Group.initial with state := .opened, channel := some 0, outCount := 1 },
    pins := { quiet.pins with readyLine := true } }

/-- The same with a command waiting. -/
def busyWith (c : Instr) : State := { busy with pending := [c] }

theorem witness_quiet_serves : ServesNow quiet := by unfold ServesNow; decide
theorem witness_busy_serves : ServesNow busy := by unfold ServesNow; decide
theorem witness_link : LinkSound busy.link := by unfold LinkSound; decide
set_option maxRecDepth 100000 in
theorem witness_sources : SourcesSound busy := by
  unfold SourcesSound SourceSound NumbersSound SettingsSound BufferSound Within; decide +kernel
theorem witness_cells : CellsSound busy := by
  unfold CellsSound; decide +kernel
theorem witness_notices : NoticesSound busy.sched := by
  unfold NoticesSound NoticeSound; decide +kernel
theorem witness_channels : ChannelsSound busy := by
  unfold ChannelsSound ChannelSound PlanSound; decide +kernel
theorem witness_bindings : BindingsSound busy := by
  unfold BindingsSound; decide +kernel
theorem witness_events : EventsSound busy := by unfold EventsSound; decide +kernel
theorem witness_air : AirSound busy.air := by unfold AirSound; decide +kernel
theorem witness_windows : WindowsSound busy := by unfold WindowsSound; decide +kernel
theorem witness_devices : DevicesSound busy := by unfold DevicesSound; decide +kernel
theorem witness_issues : IssuesSound busy := by unfold IssuesSound; decide +kernel
theorem witness_budgets : BudgetsRespected busy := by unfold BudgetsRespected; decide +kernel
theorem witness_accounts : AccountsSound busy := by unfold AccountsSound; decide +kernel

/-! ## WellFormed refuses what no port can bring -/

theorem test_wellFormed_body_257 : (Instr.identify 0 (List.replicate 257 0)).wellFormed = false := by decide +kernel
theorem test_wellFormed_body_256 : (Instr.identify 0 (List.replicate 256 0)).wellFormed = true := by decide +kernel
theorem test_wellFormed_no_character : (Instr.frameReceive []).wellFormed = false := by decide
theorem test_wellFormed_short_order : (Instr.outputMark [0, 1]).wellFormed = false := by decide
theorem test_wellFormed_repeated_order : (Instr.reviewMark (List.replicate 16 3)).wellFormed = false := by decide +kernel
theorem test_wellFormed_full_order : (Instr.reviewMark (List.finRange 16)).wellFormed = true := by decide +kernel

/-- No row of the opcode table has bits, so no word spells a command. -/
theorem test_no_word_spells_a_command : decodeTableWord 8 0x55 = none := by decide

/-! ## Worked numbers of the spec -/

/-- The check of the digits 1 to 9 (R5). -/
theorem test_crc_of_the_digits : crc [0x31, 0x32, 0x33, 0x34, 0x35, 0x36, 0x37, 0x38, 0x39] = 0x29B1 := by decide +kernel

/-- The rows of 4.3's table of limits: -3 at a shift of 18 and of 14, +1 at 20. -/
theorem test_scale_rounds_down : scale (-3) 18 = -1 ∧ scale (-3) 14 = -12 ∧ scale 1 20 = 0 := by decide +kernel

/-- Example 4.10: at arrival of 164 samples on a fill of 160, f = 1016 and r = 2040. -/
theorem test_filter_of_example_4_10 :
    let x : Source := { line with
      state := .track, locked := true, run := 412, f := 1000, acc := 64500, line := false, mode := .auto,
      buffer := { chain := [], readOffset := 0, samples := List.replicate 324 7 } }
    (x.filtered.f, x.filtered.r) = (1016, 2040) := by decide +kernel

/-- Example 4.12: f_hold is the mean of the newest three history values, rounded toward zero. -/
theorem test_hold_rate_of_example_4_12 :
    meanOfHistory { line with history := [990, 1000, 1010, 1021], settings := { line.settings with historyDepth := 3 } } = 1010 := by
  decide +kernel

/-- Superframe counts wrap (R18): 2 is at or after H'FFFFFFFE, and not the other way round. -/
theorem test_counts_wrap : atOrAfter 2 0xFFFFFFFE = true ∧ atOrAfter 0xFFFFFFFE 2 = false := by decide

/-! ## One step each -/

/-- The state a step leaves, as far as a test reads it. -/
def after {α : Type} (o : Host.Outcome State Fault Refusal) (f : State → α) (d : α) : α :=
  match o with
  | .next t => f t
  | _ => d

/-- IDENTIFY is answered at once (R14). -/
theorem test_identify_answers :
    after (step { quiet with pending := [.identify 9 []] }) (fun t => t.link.outbound.length) 0 = 1 := by decide +kernel

/-- SOURCE_LOL_SET clamps to 15 and raises SOURCE_LOL_LIMIT (R72). -/
theorem test_lol_is_clamped :
    after (exec (.sourceLolSet 1 [4, 200]) quiet) (fun t => (t.sources[(4 : SourceId)].lol, (t.events[(4 : EventId)]).raw)) (0, false) =
      (15, true) := by decide +kernel

/-- A RACK_DEFINE of base 64 and size 16 makes the sixteen slots and requests a SCAN (example 7.7). -/
theorem test_rack_defined :
    after (exec (.rackDefine 1 [2, 64, 16, 4]) quiet)
      (fun t => ((t.slots[(79 : SlotAddr)]).isSome, (t.slots[(80 : SlotAddr)]).isSome, t.bus.queues[(0 : Fin 6)])) (false, true, []) =
      (true, false, [.scan 2]) := by decide +kernel

/-- A base that is no multiple of the size is BAD_VALUE (R114). -/
theorem test_rack_base_refused :
    after (exec (.rackDefine 1 [2, 65, 16, 4]) quiet) (fun t => t.link.outbound) [] =
      [.frame { kind := 0xB0, tag := 1, body := [5] }] := by decide +kernel

/-- Example 8.9, step 4: a budget of 1200 sheds 36 and 35, which wait at the head in the order of their admission. -/
theorem test_shedding_of_example_8_9 :
    let x := fun (level : Nat) (p : ChargePhase) => some { Slot.initial with occupancy := .occupied, level := level, phase := p }
    let w : RackWindow := { rack with base := 32, size := 8, committed := 1920, sessions := [32, 33, 34, 35, 36], receiverPart := [37, 38] }
    let s := { quiet with
      racks := quiet.racks.set 1 (some w),
      slots := ((((((quiet.slots.set 32 (x 60 .bulk)).set 33 (x 70 .bulk)).set 34 (x 97 .top)).set 35 (x 50 .bulk)).set 36
        (x 40 .bulk)).set 37 (x 30 .waiting)).set 38 (x 95 .waiting) }
    after (exec (.rackBudget 1 [1, 0xB0, 0x04]) s) (fun t => (t.racks[(1 : RackId)]).map (fun v => (v.committed, v.sessions, v.shedPart)))
      none = some (1020, [32, 33, 34], [35, 36]) := by decide +kernel

/-- Example 5.8, review 8021: past a switch_delay of 20 the channel takes source 12, with detail 198156. -/
theorem test_delay_switch_of_example_5_8 :
    let p : Plan := { plan with sources := [6, 12], revert := true }
    let s := { busy with
      air := { busy.air with due := 37 }, sources := busy.sources.set 6 { line with state := .holdover },
      channels := quiet.channels.set 3 { Channel.initial with state := .bridging, livePlan := some p, activeSource := some 6,
                                                              bridgeCount := 20 } }
    after (exec (.reviewMark []) s)
      (fun t => (t.channels[(3 : ChannelId)].activeSource, (t.events[(12 : EventId)]).latest.map LatestRecord.detail)) (none, none) =
      (some 12, some 198156) := by decide +kernel

/-- Example 3.6: 171 samples are no block, a foreign id is FOREIGN, the last sequence a DUPLICATE, 158 samples an arrival. -/
theorem test_judgements_of_example_3_6 :
    let s := { quiet with
      roster := quiet.roster.set 3 (.bound 0x01A73F20),
      sources := quiet.sources.set 3 { Source.initial .auto with state := .track, lastSequence := some 40 } }
    let b := fun (id : DeviceId) (sequence : Byte) (n : Nat) =>
      judge 3 { deviceId := id, sequence := sequence, samples := List.replicate n 0 } true s
    (b 0x01A73F20 43 171, b 0x01A73F21 44 160, b 0x01A73F20 40 160, b 0x01A73F20 45 158) =
      (.absent, .foreign, .duplicate, .accepted) := by decide +kernel

/-- The image's beacon entry takes data-out slot 0, and the frame strobe ends (R17). -/
theorem test_beacon_slot : after (exec (.downlinkSlot 0) busy) (fun t => (t.air.due, t.pins.frameStrobe)) (9, true) = (1, false) := by
  decide +kernel

/-- AIR_START forms the first superframe with count 1 (R25). -/
theorem test_air_start :
    after (exec (.airStart 1 []) { quiet with air := { quiet.air with ready := true } }) (fun t => (t.air.running, t.air.count)) (false, 0) =
      (true, 1) := by decide +kernel

/-- An empty queue idles. -/
theorem test_empty_queue_idles : after (step quiet) (fun t => decide (t.pending = [])) false = true := by decide +kernel

/-! ## A state and operands for each obligation that has hypotheses -/

/-- A part whose outbound queue holds n frames. -/
def queued (n : Nat) : State :=
  { quiet with link := { quiet.link with outbound := List.replicate n (.frame (startedNotice 1 .b115200)) } }

/-- The same with m requests waiting. -/
def crowded (m n : Nat) : State :=
  { queued n with link := { (queued n).link with requests := List.replicate m { kind := 0x55, tag := 1, body := [] } } }

/-- A soft reset waiting for its reply. -/
def resetting (n : Nat) : State := { queued n with link := { (queued n).link with resetPending := true } }

theorem witness_StepRunsFrontCommand : (busyWith .gapExpiry).pending = [.gapExpiry] := rfl
theorem witness_LinkBoundsKept : LinkSound (busyWith .gapExpiry).link ∧ ∃ t, step (busyWith .gapExpiry) = .next t :=
  ⟨witness_link, _, rfl⟩
theorem witness_SourceRangesKept : SourcesSound (busyWith (.outputMark [])) ∧ ∃ t, step (busyWith (.outputMark [])) = .next t :=
  ⟨witness_sources, _, rfl⟩
theorem witness_CellOwnershipKept :
    CellsSound (busyWith (.buildMark [])) ∧ NoticesSound (busyWith (.buildMark [])).sched ∧ ∃ t, step (busyWith (.buildMark [])) = .next t :=
  ⟨witness_cells, witness_notices, _, rfl⟩
theorem witness_CellCountsAddUp : CellsSound busy := witness_cells
theorem witness_ActiveSourceLawKept : ChannelsSound (busyWith (.reviewMark [])) ∧ ∃ t, step (busyWith (.reviewMark [])) = .next t :=
  ⟨witness_channels, _, rfl⟩
theorem witness_BindingEventAndAirRecordsKept :
    (BindingsSound (busyWith .exchangeStart) ∧ ∃ t, step (busyWith .exchangeStart) = .next t) ∧ EventsSound (busyWith (.readyLineFall [])) ∧ AirSound (busyWith (.readyLineFall [])).air ∧
      ∃ t, step (busyWith (.readyLineFall [])) = .next t := ⟨⟨witness_bindings, _, rfl⟩, witness_events, witness_air, _, rfl⟩

/-- A body of 256 bytes; a part in HUNT with a reset pending, with 3 requests, with 4 and 31 entries, with 4 and 32 entries. -/
theorem witness_GoodFrameTakesItsPlace :
    (List.replicate 256 (0 : Byte)).length ≤ 256 ∧ (resetting 1).link.rx = .hunt ∧ (resetting 1).link.resetPending = true ∧
      (crowded 3 0).link.rx = .hunt ∧ (crowded 3 0).link.resetPending = false ∧ (crowded 3 0).link.requests.length < 4 ∧
      (crowded 4 31).link.requests.length = 4 ∧ (crowded 4 31).link.outbound.length < 32 ∧ (crowded 4 32).link.outbound.length = 32 := by
  decide +kernel

/-- A frame whose check is wrong by one bit; a running gap timer; the length 257; a receiver outside HUNT; a byte of noise. -/
theorem witness_DiscardedFrameRaisesItsCause :
    let f : Frame := { kind := 1, tag := 0, body := [] }
    let under : State := { quiet with link := { quiet.link with
      rx := .length, gapTimer := true, under := some { lengthLow := none, length := 0, kind := none, tag := none, body := [],
                                                       check := 0xFFFF, checkLow := none } } }
    f.bytes.take 5 ++ [0, 0] ≠ f.bytes ∧ quiet.link.rx = .hunt ∧ under.link.gapTimer = true ∧
      256 < (1 : Byte).toNat + 256 * (1 : Byte).toNat ∧ under.link.rx ≠ .hunt ∧ under.link.under ≠ none ∧ (0x5A : Byte) ≠ 0xA5 := by
  decide +kernel

/-- One waiting request at 27 entries and at 28; a kind not assigned; an assigned kind with and without a length it allows. -/
theorem witness_RequestServiceServesTheHead :
    ((0x12, .sourceMute, bodyOf 2) : Byte × (Byte → List Byte → Instr) × (List Byte → Bool)) ∈ requestTable ∧ bodyOf 2 [0] = false ∧
      bodyOf 2 [13, 1] = true ∧
    (crowded 1 28).link.requests = { kind := 0x55, tag := 1, body := [] } :: [] ∧ 28 ≤ (crowded 1 28).link.outbound.length ∧
      (crowded 1 27).link.outbound.length < 28 ∧ (crowded 1 27).link.resetPending = false ∧
      OutEntry.reserved ∉ (crowded 1 27).link.outbound ∧
      ([13, 1] : List Byte) = [BitVec.ofNat 8 (13 : SourceId).val, if true then 1 else 0] :=
  ⟨by simp [requestTable], by decide +kernel⟩
theorem witness_TransmittedFrameLeavesTheQueue :
    (queued 1).link.outbound = .frame (startedNotice 1 .b115200) :: [] ∧
      ({ quiet with link := { quiet.link with outbound := [.reserved] } } : State).link.outbound = .reserved :: [] := ⟨rfl, rfl⟩
theorem witness_IdentifyAnswersTheFixedFields : ServesNow quiet ∧ ServesNow (queued 27) ∧ ([0] : List Byte) ≠ [] := by
  unfold ServesNow; decide +kernel
theorem witness_SoftResetWaitsForItsReply :
    ServesNow quiet ∧ (resetting 1).link.resetPending = true ∧ (resetting 1).link.outbound ≠ [] := by unfold ServesNow; decide +kernel
theorem witness_LinkAfterEitherReset : (resetting 0).link.resetPending = true ∧ (resetting 0).link.outbound = [] := ⟨rfl, rfl⟩
theorem witness_RequestCommandIsItsFrame :
    ((0x01, .identify, bodyOf 0) : Byte × (Byte → List Byte → Instr) × (List Byte → Bool)) ∈ requestTable ∧
      (List.replicate 256 (0 : Byte)).length ≤ 256 ∧ LinkSound busy.link ∧ busy.link.rx = .hunt ∧ ServesNow busy ∧
      LinkSound (crowded 1 0).link ∧ ¬ ServesNow (crowded 1 0) :=
  ⟨by simp [requestTable], by decide +kernel, witness_link, rfl, witness_busy_serves, by unfold LinkSound; decide, by unfold ServesNow; decide⟩
theorem witness_DisallowedLengthIsRefused :
    ((0x11, .sourceMode, bodyOf 5) : Byte × (Byte → List Byte → Instr) × (List Byte → Bool)) ∈ requestTable ∧
      ServesNow quiet ∧ bodyOf 5 [0, 0, 0, 0] = false := ⟨by simp [requestTable], witness_quiet_serves, by decide⟩
theorem witness_EventSetRaisesItsKind :
    ServesNow (queued 22) ∧ ServesNow (queued 23) ∧ (65535 < 65536 ∧ 2 ^ 32 - 1 < 2 ^ 32) ∧
      (([25] : List Byte).length = 1 ∧ 24 < (([25] : List Byte).getD 0 0).toNat) := by unfold ServesNow; decide +kernel
theorem witness_EventReadAndClear : ServesNow quiet ∧ 24 < (25 : Byte).toNat ∧ (254 : Byte) ≠ 255 := by unfold ServesNow; decide
theorem witness_EventEnableAndDisable : ServesNow (queued 22) ∧ 24 < (25 : Byte).toNat ∧ (254 : Byte) ≠ 255 := by
  unfold ServesNow; decide +kernel
theorem witness_SoftResetValues : (resetting 0).link.resetPending = true ∧ (resetting 0).link.outbound = [] := ⟨rfl, rfl⟩

/-- A part that is STOPPED and ready. -/
def stopped : State := { quiet with air := { quiet.air with ready := true } }

theorem witness_AirStartFormsTheFirstSuperframe :
    ServesNow busy ∧ SourcesSound busy ∧ busy.air.running = true ∧ ServesNow stopped ∧ SourcesSound stopped ∧
      stopped.air.running = false ∧ stopped.air.ready = true :=
  ⟨witness_busy_serves, witness_sources, rfl, witness_quiet_serves,
    by unfold SourcesSound SourceSound NumbersSound SettingsSound BufferSound Within; decide +kernel, rfl, rfl⟩

/-- The busy part with its superframe so far gone, and a stop pending or not. -/
def atPart (due : Nat) (stopPending : Bool) : State := { busy with air := { busy.air with due := due, stopPending := stopPending } }

theorem witness_AirStopNamesItsSuperframe :
    ServesNow stopped ∧ stopped.air.running = false ∧ ServesNow (atPart 38 true) ∧ (atPart 38 true).air.stopPending = true ∧
      ServesNow (atPart 38 false) ∧ ServesNow (atPart 39 false) ∧ (atPart 39 false).air.running = true ∧
      (atPart 39 false).air.stopPending = false := by unfold ServesNow; decide +kernel
theorem witness_SuperframesAndSlots :
    (atPart 39 false).air.running = true ∧ (atPart 39 false).air.due = 39 ∧ (atPart 38 false).air.due ≠ 39 ∧
      (atPart 23 false).air.due ≤ (23 : Fin 24).val ∧ (22 : Fin 24).val < (atPart 23 false).air.due := by decide +kernel
theorem witness_BuildFillsTheImage :
    (atPart 37 false).air.due ≠ 38 ∧ (atPart 38 false).air.running = true ∧ (atPart 38 false).air.due = 38 ∧
      (atPart 38 false).air.stopPending = false := by decide +kernel
theorem witness_StopOfTheAir :
    (atPart 38 true).air.running = true ∧ (atPart 38 true).air.due = 38 ∧ (atPart 38 true).air.stopPending = true ∧
      busy.air.running = true ∧ stopped.air.running = false ∧ busy.channels[(0 : ChannelId)].applyPending = false ∧
      busy.channels[(0 : ChannelId)].state = .live := by decide +kernel

/-! ### Arrivals -/

/-- An uplink block of n samples from the microphone of the roster. -/
def block (sequence n : Nat) : List Byte := le32 0x2000C020 ++ le8 sequence ++ le8 n ++ List.replicate (2 * n) 3

/-- The busy part with roster entry 0 bound and source 0 in this record. -/
def bound (due : Nat) (x : Source) : State :=
  { atPart due false with roster := busy.roster.set 0 (.bound 0x2000C020), sources := busy.sources.set 0 x }

theorem witness_BlocksAreJudged :
    stopped.air.running = false ∧ 24 + (11 : RosterId).val < (atPart 36 false).air.due ∧
      (atPart 35 false).air.due ≤ 24 + (11 : RosterId).val ∧ (block 1 152).length = 6 + 2 * field8 (block 1 152) 5 ∧
      152 ≤ field8 (block 1 152) 5 ∧ field8 (block 1 168) 5 ≤ 168 ∧ field8 (block 1 151) 5 < 152 ∧ 168 < field8 (block 1 169) 5 ∧
      busy.roster[(0 : RosterId)] ≠ .bound 0x2000C020 ∧
      (bound 0 line).roster[(0 : RosterId)] = .bound (BitVec.ofNat 32 (field32 (block 1 152) 0)) ∧
      (bound 0 { line with lastSequence := some 1 }).sources[uplinkSource 0].lastSequence = some ((block 1 152).getD 4 0) ∧
      36 < (atPart 37 false).air.due ∧ (atPart 36 false).air.due ≤ 36 ∧ lineCame 0 busy = false ∧
      busy.sources[lineSource 1].line = false ∧ busy.sources[lineSource 0].line = true ∧
      ({ busy with sources := busy.sources.set 13 { line with state := .off } } : State).sources[lineSource 1].state = .off := by
  decide +kernel

/-- An arrival at uplink source 0, and one at line source 12. -/
theorem witness_ArrivalAppendsItsSamples :
    (SourcesSound (bound 24 (Source.initial .auto |>.rested .waiting)) ∧
      Arrives (.uplinkBlockDelivery 0 (block 1 168) true) 0 (some 1)
        ((List.range 168).map (fun i => BitVec.ofNat 16 (field16 (block 1 168) (6 + 2 * i))))
        (bound 24 (Source.initial .auto |>.rested .waiting))) ∧
    SourcesSound busy ∧ Arrives (.lineBlockDelivery 0 (Vector.replicate 160 7)) 12 none (Vector.replicate 160 7).toList busy :=
  ⟨⟨by unfold SourcesSound SourceSound NumbersSound SettingsSound BufferSound Within; decide +kernel,
      by decide +kernel, by decide +kernel, .inl ⟨0, block 1 168, rfl, by decide +kernel⟩⟩,
    witness_sources, by decide +kernel, by decide +kernel, .inr ⟨0, Vector.replicate 160 7, rfl, by decide +kernel⟩⟩

/-- What an arrival makes of a lock: lost in TRACK far from the target fill, and after HOLDOVER past the reacquire limit of 50 but not
at it; gained in TRACK at the 100th good arrival, and not at the 99th. -/
theorem witness_ArrivalTracksTheSource_lock :
    let full := { line.buffer with samples := List.replicate 320 7 }
    let kept : Source := { line with state := .holdover, priorState := some .acquire, priorLocked := true }
    let near : Source := { line with state := .track, buffer := full }
    LosesLock { line with state := .track, locked := true } ∧ LosesLock { kept with age := 51 } ∧ ¬ LosesLock { kept with age := 50 } ∧
      GainsLock { near with run := 99 } ∧ ¬ GainsLock { near with run := 98 } := by decide +kernel

/-- TRACK locked and TRACK unlocked, at a line block. -/
theorem witness_ArrivalTracksTheSource :
    let s := fun x : Source => ({ busy with sources := busy.sources.set 12 x } : State)
    ∀ b : Bool, Arrives (.lineBlockDelivery 0 (Vector.replicate 160 7)) 12 none (Vector.replicate 160 7).toList
        (s { line with state := .track, locked := b }) ∧
      ((s { line with state := .track, locked := b }).sources[(12 : SourceId)]).prefill = false := by
  intro s b
  cases b <;>
  exact ⟨⟨by decide +kernel, by decide +kernel, .inr ⟨0, Vector.replicate 160 7, rfl, by decide +kernel⟩⟩, by decide +kernel⟩

/-! ### Marks -/

/-- Sources in every state an OUTPUT mark tells apart, at the boundary of the lost limit of 300. -/
def marked : State :=
  let put := fun (k : SourceId) (x : Source) (s : State) => s.setSource k x
  put 0 { line with state := .acquire, blockArrived := true } <| put 1 { line with state := .track, blockArrived := true } <|
    put 2 { line with age := 298 } <| put 3 { line with state := .holdover, age := 298 } <|
    put 4 { line with state := .holdover, age := 299 } <| put 5 { line with state := .track } <|
    put 6 (line.rested .waiting) <| put 7 { line with prefill := true, age := 298 } <| put 8 { line with prefill := true, age := 299 } <|
    put 9 { line with age := 299 } (atPart 36 false)

/-- What sources report at the mark: a shortfall of one sample, none at a full demand, none in HOLDOVER; and the causes of a loss. -/
theorem witness_ReportedBy :
    let short := { line.buffer with samples := List.replicate 159 7 }
    (shortfall { line with buffer := short } = 1 ∧ shortfall line = 0 ∧ shortfall { line with state := .holdover, buffer := short } = 0) ∧
      EntersHoldover marked.sources[(5 : SourceId)] ∧ ¬ EntersHoldover marked.sources[(1 : SourceId)] ∧
      lossCause marked.sources[(8 : SourceId)] = 1 ∧ lossCause marked.sources[(4 : SourceId)] = 2 ∧
      lossCause marked.sources[(9 : SourceId)] = 3 ∧ lossCause marked.sources[(7 : SourceId)] = 0 := by decide +kernel

theorem witness_OutputFormsTheBlock :
    (atPart 37 false).air.due > 36 ∧ marked.air.running = true ∧ marked.air.due ≤ 36 ∧
      (let x := marked.sources[(1 : SourceId)]; x.prefill = false ∧ x.blockArrived = true ∧ x.state = .track) ∧
      (let x := marked.sources[(0 : SourceId)]; x.prefill = false ∧ x.blockArrived = true ∧ x.state = .acquire) ∧
      (let x := marked.sources[(2 : SourceId)]; x.prefill = false ∧ x.state = .fixed ∧ x.age + 1 < x.settings.lostLimit) := by
  decide +kernel
theorem witness_HoldoverAtTheMark :
    marked.air.running = true ∧ marked.air.due ≤ 36 ∧
      (let x := marked.sources[(5 : SourceId)]; x.prefill = false ∧ x.blockArrived = false ∧ x.state = .track) ∧
      (let x := marked.sources[(3 : SourceId)]; x.prefill = false ∧ x.blockArrived = false ∧ x.state = .holdover ∧
        x.age + 1 < x.settings.lostLimit) ∧
      (let x := marked.sources[(4 : SourceId)]; x.prefill = false ∧ x.blockArrived = false ∧ x.state = .holdover ∧
        x.settings.lostLimit ≤ x.age + 1) := by decide +kernel
theorem witness_PrefillAndLossAtTheMark :
    marked.air.running = true ∧ marked.air.due ≤ 36 ∧ marked.sources[(6 : SourceId)].state = .waiting ∧
      (let x := marked.sources[(7 : SourceId)]; x.prefill = true ∧ x.state = .fixed ∧ x.age + 1 < x.settings.lostLimit) ∧
      (let x := marked.sources[(8 : SourceId)]; x.prefill = true ∧ x.state = .fixed ∧ x.settings.lostLimit ≤ x.age + 1) ∧
      (let x := marked.sources[(9 : SourceId)]; x.prefill = false ∧ x.state = .fixed ∧ x.blockArrived = false ∧
        x.settings.lostLimit ≤ x.age + 1) := by decide +kernel

/-- A channel in this state on source 12 or 0 with this plan, at a REVIEW mark; source 0 is producing, source 12 usable. -/
def reviewing (state : ChannelState) (active : Option SourceId) (p : Plan) (applyPending : Bool) : State :=
  let s := (atPart 37 false).setSource 0 { line with state := .acquire }
  s.setChannel 0 { Channel.initial with
    state := state, activeSource := active, livePlan := some p, stagedPlan := some { p with sources := [0] },
    applyPending := applyPending, boundGroups := 1 }

theorem witness_ReviewByClass :
    (atPart 36 false).air.due ≠ 37 ∧ (reviewing .live (some 12) plan false).air.running = true ∧
      (reviewing .live (some 12) plan false).air.due = 37 ∧
      (reviewing .live (some 12) plan false).channels[(0 : ChannelId)].applyPending = false ∧ (12 : SourceId) ∈ plan.sources ∧
      Usable (reviewing .live (some 12) plan false).sources[(12 : SourceId)] ∧ plan.revert = false ∧
      Producing (reviewing .live (some 0) plan false).sources[(0 : SourceId)] ∧
      (¬ Usable (Source.initial .auto) ∧ ¬ Producing (Source.initial .auto)) := by decide +kernel
theorem witness_RevertApplyAndReports :
    let p : Plan := { plan with revert := true }
    (reviewing .live (some 12) p false).air.running = true ∧ (reviewing .live (some 12) p false).air.due = 37 ∧
      Usable (reviewing .live (some 12) p false).sources[(12 : SourceId)] ∧
      (reviewing .live (some 12) p true).channels[(0 : ChannelId)].applyPending = true ∧
      (12 : SourceId) ∉ ({ p with sources := [0] } : Plan).sources ∧
      (∀ j : ChannelId, j ≠ 0 → (reviewing .live (some 12) p true).channels[j].state = .closed) := by decide +kernel
theorem witness_RevertApplyAndReports_sound :
    ChannelSound (reviewing .live (some 12) { plan with revert := true } true).channels[(0 : ChannelId)] := by
  unfold ChannelSound PlanSound; decide +kernel

/-! ### Sources, channels and notices -/

theorem witness_PoolStatusReports : ServesNow busy ∧ 1 < (2 : Byte).toNat := ⟨witness_busy_serves, by decide⟩
theorem witness_SourceConfigClampsAndStores :
    ServesNow busy ∧ (List.replicate 17 (14 : Byte)).length = 17 ∧ 13 < ((List.replicate 17 (14 : Byte)).getD 0 0).toNat :=
  ⟨witness_busy_serves, by decide, by decide⟩
theorem witness_SourceModeChangesTheRate :
    ServesNow busy ∧ SourcesSound busy ∧ 1 < (2 : Byte).toNat ∧ 12 ≤ (12 : SourceId).val ∧ (11 : SourceId).val < 12 ∧
      13 < (([14, 0, 0, 0, 0] : List Byte).getD 0 0).toNat := ⟨witness_busy_serves, witness_sources, by decide⟩
theorem witness_SourceMuteAndStatus : ServesNow busy ∧ 1 < (2 : Byte).toNat ∧ (1 : Byte).toNat ≤ 1 ∧ 13 < (14 : Byte).toNat :=
  ⟨witness_busy_serves, by decide⟩
theorem witness_SourceLolSetWritesTheCounter : ServesNow busy ∧ 13 < (14 : Byte).toNat := ⟨witness_busy_serves, by decide⟩

/-- Channel 0 with an apply pending, with a staged plan only, with groups bound, with none. -/
theorem witness_ChannelStageApplyClose :
    let s := reviewing .live (some 12) plan
    ServesNow (s false) ∧ (s true).channels[(0 : ChannelId)].applyPending = true ∧
      (s false).channels[(0 : ChannelId)].applyPending = false ∧ (s false).channels[(0 : ChannelId)].stagedPlan ≠ none ∧
      (s false).air.running = true ∧ stopped.air.running = false ∧ 0 < (s false).channels[(0 : ChannelId)].boundGroups ∧
      busy.channels[(1 : ChannelId)].stagedPlan = none ∧ busy.channels[(1 : ChannelId)].boundGroups = 0 ∧
      ([12, 0, 255, 255] : List Byte).length = 4 ∧ (([12, 0, 255, 255] : List Byte).take 2).Nodup ∧
      (∀ x ∈ ([12, 13, 255, 255] : List Byte).take 2, x.toNat ≤ 13) ∧ 15 < (16 : Byte).toNat := by unfold ServesNow; decide +kernel
theorem witness_ChannelStatusReports : ServesNow busy ∧ 15 < (16 : Byte).toNat := ⟨witness_busy_serves, by decide⟩

/-- A refused post; one that is taken, with the handle next_handle; a RETUNE of group 0, whose channel is 0; one of the OUT device. -/
theorem witness_NoticePostCreatesARecord :
    ServesNow busy ∧ NoticesSound busy.sched ∧ (List.replicate 192 (0 : Byte)).length < 256 ∧
      postRefusal 0 0 0 0 0 193 busy = some 0x05 ∧ postRefusal 1 0 0 0 0 192 busy = none ∧ HandleFree 4 busy ∧
      nextNumber^[(0 : Fin 65).val] busy.sched.nextHandle = 4 ∧ postRefusal 0 2 2 0 0 0 busy = none ∧
      postRefusal 0 2 3 0x2000C020 0 0 busy = none ∧ busy.groups[(0 : GroupId)].channel = some 0 :=
  ⟨witness_busy_serves, witness_notices, by decide +kernel⟩
theorem witness_NoticeCancelStatusConfig :
    ServesNow busy ∧ NoticesSound busy.sched ∧ notice ∈ busy.sched.records ∧ HandleFree 65535 busy := by
  exact ⟨witness_busy_serves, witness_notices, by decide +kernel, by decide +kernel⟩

/-- The one notice, at the superframe from which it may be sent, before it, and expired; room for two of three notices. -/
theorem witness_NoticesAtABuild :
    NoticesSound busy.sched ∧ 7 ≤ 7 ∧ notice ∈ busy.sched.records ∧ expiredIn 5 notice = false ∧ eligibleIn 5 notice = true ∧
      eligibleIn 4 notice = false ∧ expiredIn 9 { notice with expiry := some 9 } = true ∧ expiredIn 8 { notice with expiry := some 9 } = false ∧
      scanned 5 7 [{ notice with cells := [0, 1, 2, 3] }, { notice with cells := [4, 5, 6, 7] }, { notice with cells := [8, 9, 10] }] =
        [{ notice with cells := [0, 1, 2, 3] }, { notice with cells := [8, 9, 10] }] ∧
      (placeNotices 5 7 busy).2 ≠ [] := ⟨witness_notices, by decide +kernel⟩

/-! ### Racks, charging, fleet and issue -/

theorem witness_RackAndFleetRecordsKept :
    WindowsSound (busyWith .attentionFall) ∧ DevicesSound (busyWith .attentionFall) ∧ IssuesSound (busyWith .attentionFall) ∧
      ∃ t, step (busyWith .attentionFall) = .next t := ⟨witness_windows, witness_devices, witness_issues, _, rfl⟩

/-- Rack 1 is free for base 4 and size 4; base 0 clashes with rack 0; rack 0 may be removed, its DOCKED and no other device named. -/
theorem witness_RackDefineAndRemove :
    ServesNow busy ∧ WindowsSound busy ∧ DevicesSound busy ∧
      (7 < (8 : Byte).toNat ∧ busy.racks[(0 : RackId)] = some rack ∧ busy.racks[(1 : RackId)] = none ∧
        (4 : Byte).toNat ∈ [4, 8, 16, 32] ∧ (4 : Byte).toNat % 4 = 0 ∧ (15 : Byte).toNat ≤ 15 ∧ 15 < (16 : Byte).toNat ∧
        rack.holds 3 = true ∧ rack.holds 4 = false ∧ (∀ a : SlotAddr, (busy.slots[a]).bind Slot.reservation = none) ∧ busy.ops = []) :=
  ⟨witness_busy_serves, witness_windows, witness_devices, by decide +kernel⟩

/-- The busy part with a reservation at slot 1 refuses the removal. -/
theorem witness_RackDefineAndRemove_reserved :
    let s : State := { busy with slots := busy.slots.set 1 (some { slotOne with reservation := some 1, phase := .none, pollTimer := none }) }
    WindowsSound s ∧ (s.slots[(1 : SlotAddr)]).bind Slot.reservation ≠ none := by unfold WindowsSound; decide +kernel

/-- The busy part with an exchange in flight with rack 0, its answer and whether it is doomed. -/
def inFlight (e : Exchange) (answer : Option (List Byte)) (doomed : Bool) : State :=
  let x : InFlight := { exchange := e, rack := 0, position := 1, number := 7, settle := 4, answer := answer, doomed := doomed }
  { busy with bus := { busy.bus with inFlight := some x } }

def polling : State := busy.setQueue 5 [.poll 3]

theorem witness_BusStartsAndTakesAnswers :
    let s := polling
    WindowsSound s ∧ (s.racks[(0 : RackId)]).map RackWindow.scanTimer = some true ∧
      (s.racks[(1 : RackId)]).map RackWindow.scanTimer ≠ some true ∧ s.bus.inFlight = none ∧ s.bus.queues[(5 : Fin 6)] = .poll 3 :: [] ∧
      (∀ p : Fin 6, p < 5 → s.bus.queues[p] = []) ∧ GoesTo (.poll 3) 0 rack s ∧
      ((inFlight (.poll 1) none false).bus.inFlight.map InFlight.exchange = some (.poll 1) ∧
        ([50, 0] : List Byte).length = answerSize (.poll 1)) := by
  intro s
  refine ⟨by unfold WindowsSound; decide +kernel, by decide +kernel, by decide +kernel, by decide +kernel, by decide +kernel,
    by decide +kernel, ?_, by decide +kernel⟩
  unfold GoesTo; decide +kernel

/-- A SCAN that finds slot 3's position empty and slots 0 to 2 occupied; a SET_CHARGE, a CLEAR, and a doomed POLL. -/
theorem witness_ExchangeCompletes :
    (WindowsSound busy ∧ DevicesSound busy) ∧ Answered (.scan 0) (le32 (7 : BitVec 32).toNat) (inFlight (.scan 0) (some [7, 0, 0, 0]) false) ∧
      Answered (.setCharge 0 .bulk) [101] (inFlight (.setCharge 0 .bulk) (some [101]) false) ∧
      Answered (.clear 1 0x2000C024) [] (inFlight (.clear 1 0x2000C024) (some []) false) ∧
      (inFlight (.poll 1) (some [50, 0]) true).bus.inFlight.map InFlight.doomed = some true ∧ busy.ops = [] ∧
      busy.slots[(0 : SlotAddr)] = some slotZero ∧ busy.racks[(0 : RackId)] = some rack :=
  ⟨⟨witness_windows, witness_devices⟩, by unfold Answered; decide +kernel⟩

/-- PROBEs of slot 2 that report a fault, a new id, the UNSEEN device, the OUT device, and the device of slot 0. -/
theorem witness_ProbeIsJudged :
    let answer := fun (id kind level fault : Nat) => le32 id ++ [BitVec.ofNat 8 kind, BitVec.ofNat 8 level, BitVec.ofNat 8 fault]
    let at2 := fun (id fault : Nat) => inFlight (.probe 2) (some (answer id 0 101 fault)) false
    (WindowsSound busy ∧ DevicesSound busy) ∧ Answered (.probe 2) (answer 5 0 101 1) (at2 5 1) ∧
      Answered (.probe 2) (answer 0x2000B00C 0 101 0) (at2 0x2000B00C 0) ∧
      Answered (.probe 2) (answer 0x2000C020 0 101 0) (at2 0x2000C020 0) ∧
      Answered (.probe 2) (answer 0x2000B001 0 101 0) (at2 0x2000B001 0) ∧ busy.slots[(2 : SlotAddr)] = some slotTwo ∧
      slotTwo.occupancy = .probing ∧ slotTwo.phase = .none ∧ (∀ q : Fin 6, busy.bus.queues[q] = []) ∧
      (∀ b : SlotAddr, b ≠ 2 → (busy.slots[b]).bind Slot.deviceId ≠ some 0x2000C020) ∧ busy.device? 5 = none ∧
      busy.devices.length < 384 ∧ namedAt busy 0 = some 0x2000B001 ∧ busy.device? 0x2000B001 ≠ none ∧
      (∀ c : SlotAddr, c ≠ 2 → c ≠ 0 → namedAt busy c ≠ some 0x2000B001) := by
  exact ⟨⟨witness_windows, witness_devices⟩, by unfold Answered; decide +kernel⟩

/-- A table with all of its 384 records. -/
theorem witness_ProbeIsJudged_full :
    let l := (List.range 384).map (fun i => ({ fleet.getD 3 (fleet.headD
      { id := 1, kind := .mic, state := .unseen, slot := none, level := 0, assignment := none, clearState := .none }) with
        id := BitVec.ofNat 32 (i + 1) } : Device))
    l.length = 384 ∧ (∀ d ∈ l, d.id ≠ 0 ∧ d.id ≠ 0x2000D000) := by decide +kernel

theorem witness_ExchangeTimesOut :
    let down : State := { inFlight (.scan 0) none false with racks := busy.racks.set 0 (some { rack with scanMisses := 1 }) }
    (WindowsSound busy ∧ DevicesSound busy) ∧ Unanswered (.scan 0) (inFlight (.scan 0) none false) ∧ Unanswered (.scan 0) down ∧
      (down.racks[(0 : RackId)]).map RackWindow.scanMisses = some 1 ∧ Unanswered (.probe 2) (inFlight (.probe 2) none false) ∧
      Unanswered (.poll 1) (inFlight (.poll 1) none false) ∧ Unanswered (.setCharge 0 .top) (inFlight (.setCharge 0 .top) none false) ∧
      Unanswered (.clear 1 0x2000C024) (inFlight (.clear 1 0x2000C024) none false) ∧ slotZero.timeouts = 0 ∧
      ({ slotZero with timeouts := 1 } : Slot).timeouts ≠ 0 ∧ (inFlight (.poll 1) (some [50, 0]) false).bus.inFlight ≠ none :=
  ⟨⟨witness_windows, witness_devices⟩, by unfold Unanswered; decide +kernel⟩

theorem witness_SlotRequests :
    ServesNow busy ∧ WindowsSound busy ∧ DevicesSound busy ∧ (busy.slots[(4 : SlotAddr)] = none ∧ rack.holds 3 = true ∧
      busy.slots[(3 : SlotAddr)] = some slotThree ∧ slotThree.occupancy = .fault ∧ slotTwo.occupancy ≠ .fault) :=
  ⟨witness_busy_serves, witness_windows, witness_devices, by decide +kernel⟩

/-- Slot 1 waiting at the head of rack 0's queue, with a budget that just fits it and one that does not; a POLL answered. -/
theorem witness_AdmissionAndPolls :
    let w := fun budget : Nat => { rack with micPart := [1], budget := budget }
    let x : Slot := { slotOne with phase := .waiting, level := 40 }
    let s := fun budget : Nat => { inFlight (.poll 1) (some [100, 0]) false with
      racks := busy.racks.set 0 (some (w budget)), slots := busy.slots.set 1 (some x) }
    WindowsSound (s 900) ∧ WindowsSound (s 899) ∧ admissionOrder (w 900) = 1 :: [] ∧ (w 900).committed + 450 ≤ 900 ∧
      899 < (w 899).committed + 450 ∧ (w 900).holds 1 = true ∧ (s 900).slots[(1 : SlotAddr)] = some x ∧ x.level < (s 900).charge.topLevel ∧
      Answered (.poll 1) [100, 0] (s 900) ∧ x.occupancy = .occupied ∧ x.pollTimer ≠ none ∧ slotTwo.pollTimer = none := by
  intro w x s
  exact ⟨by unfold WindowsSound; decide +kernel, by unfold WindowsSound; decide +kernel, by unfold Answered; decide +kernel⟩

/-- Rack 0 with one session of 450 mA, cut to 449; raised past 2000; and as it stands at 450. -/
theorem witness_ChargeRequests :
    ServesNow busy ∧ WindowsSound busy ∧ 7 < (([8] : List Byte).getD 0 0).toNat ∧ busy.racks[(1 : RackId)] = none ∧
      busy.racks[(0 : RackId)] = some rack ∧ rack.committed ≤ 450 ∧ 450 ≤ rack.budget ∧ rack.budget < 2001 ∧
      min 10000 (449 : BitVec 16).toNat < rack.committed ∧ rack.sessions.Nodup ∧
      (∀ a ∈ rack.sessions, (busy.slots[a]).map Slot.occupancy = some .occupied ∧ drawOf busy a ≠ 0) ∧
      rack.committed = (rack.sessions.map (drawOf busy)).sum ∧ shedCount 449 rack busy = 1 :=
  ⟨witness_busy_serves, witness_windows, by decide +kernel⟩
theorem witness_BudgetsRespectedKept :
    (BudgetsRespected (busyWith (.rackBudget 0 [0, 0, 0])) ∧ AccountsSound (busyWith (.rackBudget 0 [0, 0, 0])) ∧
      ∃ t, step (busyWith (.rackBudget 0 [0, 0, 0])) = .next t) ∧ BudgetsRespected (busyWith (.pollTimerExpiry 0)) ∧ (∃ t, step (busyWith (.pollTimerExpiry 0)) = .next t) ∧
      (busyWith (.pollTimerExpiry 0)).pending.head? ≠ some .requestService ∧
      ∀ tag body, (busyWith (.pollTimerExpiry 0)).pending.head? ≠ some (.rackBudget tag body) :=
  ⟨⟨witness_budgets, witness_accounts, _, rfl⟩, witness_budgets, ⟨_, rfl⟩, by decide, by intro tag body h; cases h⟩

theorem witness_FleetRequests :
    ServesNow busy ∧ DevicesSound busy ∧ (∃ d ∈ busy.devices, d.state = .unseen) ∧ (∃ d ∈ busy.devices, d.state = .docked) ∧
      (∀ d ∈ busy.devices, d.id ≠ 7) ∧ busy.devices.length ≤ (4 : BitVec 16).toNat ∧ 23 < (24 : Byte).toNat ∧ 15 < (16 : Byte).toNat ∧
      busy.groups[(23 : GroupId)].state = .free ∧ busy.channels[(0 : ChannelId)].state ≠ .closed ∧
      busy.channels[(15 : ChannelId)].state = .closed ∧ busy.groups[(0 : GroupId)].state = .opened ∧
      busy.groups[(0 : GroupId)].outCount ≠ 0 ∧ busy.groups[(0 : GroupId)].issueHandle = none :=
  ⟨witness_busy_serves, witness_devices, by decide +kernel⟩

/-- An operation of group 0 for two receivers at level 50 or more. -/
def operation (candidate : Option Candidate) (cancel : Bool) : IssueOperation :=
  { group := 0, kind := .receiver, count := 2, minLevel := 50, roster := none, issued := 0, cancel := cancel, retuned := false,
    candidate := candidate, tried := [] }

/-- The busy part with such an operation running, slot 0 in this record. -/
def issuing (o : IssueOperation) (x : Slot) (s : State) : State :=
  { s with ops := [o], slots := s.slots.set 0 (some x),
           groups := s.groups.set 0 { s.groups[(0 : GroupId)] with issueHandle := some 1 } }

theorem witness_IssueRequests :
    ServesNow busy ∧ IssuesSound busy ∧ 23 < (24 : Byte).toNat ∧ busy.groups[(0 : GroupId)].state = .opened ∧
      busy.groups[(0 : GroupId)].issueHandle = none ∧ busy.groups[(1 : GroupId)].state ≠ .opened ∧ busy.ops.length < 4 ∧
      64 ≤ (64 : Byte).toNat ∧ 64 < (65 : Byte).toNat ∧ (11 : Byte).toNat ≤ 11 ∧ busy.roster[(11 : RosterId)] = .free ∧
      (∀ o ∈ busy.ops, o.group ≠ 23) := ⟨witness_busy_serves, witness_issues, by decide +kernel⟩
theorem witness_IssueRequests_running :
    let s := issuing (operation (some { slot := 0, stage := .tune, tunedChannel := 0 }) false)
      { slotZero with reservation := some 1, phase := .none, pollTimer := none } busy
    ServesNow s ∧ IssuesSound s ∧ s.ops.headD (operation none false) ∈ s.ops := by unfold ServesNow IssuesSound; decide +kernel

/-- Slot 0 reserved for the operation of group 0, whose TUNE waits; the OUT device a microphone on roster entry 0. -/
def served : State :=
  let s := issuing (operation (some { slot := 0, stage := .tune, tunedChannel := 0 }) false)
    { slotZero with reservation := some 1, phase := .none, pollTimer := none } busy
  { s with
    racks := busy.racks.set 0 (some { rack with committed := 0, sessions := [] }),
    bus := { s.bus with queues := s.bus.queues.set 1 [.tune 0 0 0 none] }, roster := s.roster.set 0 (.bound 0x2000C020),
    devices := fleet.map (fun d => if d.state = .out then
      { d with kind := .mic, assignment := some { group := 0, channel := 0, roster := some 0 } } else d) }

theorem witness_served_windows : WindowsSound served ∧ DevicesSound served ∧ IssuesSound served :=
  ⟨by unfold WindowsSound; decide +kernel, by unfold DevicesSound; decide +kernel, by unfold IssuesSound; decide +kernel⟩
theorem witness_served_accounts : AccountsSound served := by unfold AccountsSound; decide +kernel
theorem witness_served_slots : SlotsSound served := by unfold SlotsSound; decide +kernel
theorem witness_served_names : NamesSound served := by
  refine ⟨by decide +kernel, fun a id h => ?_⟩
  have all : ∀ a : SlotAddr, (namedAt served a).all (fun id =>
      decide (∃ d ∈ served.devices, d.id = id ∧ d.state ≠ .unseen ∧ d.slot = some a)) = true := by decide +kernel
  have := all a
  rw [h] at this
  exact of_decide_eq_true this
theorem witness_served_outCounts : OutCountsSound served := by unfold OutCountsSound; decide +kernel
theorem witness_served_roster : RosterSound served := by
  have bound0 : served.roster[(0 : RosterId)] = .bound 0x2000C020 := by decide +kernel
  have others : ∀ k : RosterId, k ≠ 0 → served.roster[k] = .free ∧ ∀ d ∈ served.devices, d.assignment.bind Assignment.roster ≠ some k := by
    decide +kernel
  refine ⟨fun k id => ?_, by decide +kernel, fun k h hk => ?_, fun o ho => ?_⟩
  · by_cases k0 : k = 0
    · subst k0
      refine ⟨fun h => ?_, fun ⟨d, hd, hid, _, _, hr⟩ => ?_⟩
      · rw [bound0] at h
        cases h
        decide +kernel
      · have only : ∀ d ∈ served.devices, d.assignment.bind Assignment.roster = some 0 → d.id = 0x2000C020 := by decide +kernel
        rw [bound0, ← hid, only d hd hr]
    · exact ⟨fun h => by (rw [(others k k0).1] at h; cases h), fun ⟨d, hd, _, _, _, hr⟩ => absurd hr ((others k k0).2 d hd)⟩
  · by_cases k0 : k = 0
    · subst k0; rw [bound0] at hk; cases hk
    · rw [(others k k0).1] at hk; cases hk
  · obtain rfl : o = operation (some { slot := 0, stage := .tune, tunedChannel := 0 }) false := List.mem_singleton.mp ho
    exact ⟨fun _ => rfl, fun h => by cases h⟩
theorem witness_served_candidates : CandidatesSound served := by
  refine ⟨fun o ho => ?_, fun a h ha => ?_⟩
  · obtain rfl : o = operation (some { slot := 0, stage := .tune, tunedChannel := 0 }) false := List.mem_singleton.mp ho
    exact ⟨_, rfl, by decide +kernel⟩
  · have only : ∀ a : SlotAddr, a ≠ 0 → (served.slots[a]).bind Slot.reservation = none := by decide +kernel
    have zero : (served.slots[(0 : SlotAddr)]).bind Slot.reservation = some 1 := by decide +kernel
    by_cases a0 : a = 0
    · subst a0
      rw [zero] at ha
      cases ha
      exact ⟨_, List.mem_singleton.mpr rfl, rfl, rfl⟩
    · rw [only a a0] at ha; cases ha
theorem witness_served_exchanges : ExchangesSound served := by
  have only : ∀ q : Fin 6, ∀ e ∈ served.bus.queues[q], e = .tune 0 0 0 none := by decide +kernel
  have occupied : (served.slots[(0 : SlotAddr)]).map Slot.occupancy = some .occupied := by decide +kernel
  refine ⟨fun e h => by (cases h), fun q e h => ?_, fun x h => by (cases h), by decide +kernel, by decide +kernel⟩
  rw [only q e h]
  intro a ha
  cases ha
  exact occupied
theorem witness_DockLawsKept :
    let s := { served with pending := [.exchangeStart] }
    DockSound s ∧ ∃ t, step s = .next t :=
  ⟨⟨witness_served_windows, witness_served_accounts, witness_served_slots, witness_served_names, witness_served_outCounts,
    witness_served_roster, witness_served_candidates, witness_served_exchanges⟩, _, rfl⟩

/-- The same operation's TUNE in the queue while a POLL of slot 0 is answered with a fault, and while a SCAN finds slot 0 gone and slots 1
and 3 there; and its TUNE in flight at a slot that has timed out once. -/
theorem witness_CandidatesAndOutcomes_failures :
    let x : Slot := { slotZero with reservation := some 1, phase := .none, pollTimer := none }
    let fly := fun (e : Exchange) (answer : Option (List Byte)) (s : State) =>
      let y : InFlight := { exchange := e, rack := 0, position := 1, number := 7, settle := 4, answer := answer, doomed := false }
      ({ s with bus := { s.bus with inFlight := some y } } : State)
    let polled := fly (.poll 0) (some [50, 1]) served
    let scannedS := fly (.scan 0) (some [10, 0, 0, 0]) ({ served with slots := served.slots.set 2 (some Slot.initial) } : State)
    let late := (fly (.tune 0 0 0 none) none (served.setQueue 1 [])).setSlot 0 (some { x with timeouts := 1 })
    (Answered (.poll 0) [50, 1] polled ∧ AccountsSound polled ∧ polled.slots[(0 : SlotAddr)] = some x ∧ x.phase = .none ∧
      (polled.bus.queues[(1 : Fin 6)]).filter (fun e => decide (e.slot? = some 0)) = [.tune 0 0 0 none] ∧
      (∀ q : Fin 6, q ≠ 1 → polled.bus.queues[q] = [])) ∧
    (Answered (.scan 0) (le32 (10 : BitVec 32).toNat) scannedS ∧ AccountsSound scannedS ∧
      (∀ b : SlotAddr, rack.holds b = true → (scannedS.slots[b]).map Slot.occupancy ≠ some .probing ∧ (10 : BitVec 32).getLsbD (b.val - 0) =
        decide (b ≠ 0 ∧ (scannedS.slots[b]).map Slot.occupancy ≠ some .empty)) ∧
      (∀ d ∈ scannedS.devices, d.clearState ≠ .owed ∧ (d.id = 0x2000B001 → d.state = .docked)) ∧ ∃ d ∈ scannedS.devices, d.id = 0x2000B001) ∧
    Unanswered (.tune 0 0 0 none) late ∧ (late.slots[(0 : SlotAddr)]).map Slot.timeouts = some 1 ∧ late.bus.queues[(1 : Fin 6)] = [] := by
  intro x fly polled scannedS late
  exact ⟨⟨by unfold Answered; decide +kernel, by unfold AccountsSound; decide +kernel, by decide +kernel⟩,
    ⟨by unfold Answered; decide +kernel, by unfold AccountsSound; decide +kernel, by decide +kernel⟩, by unfold Unanswered; decide +kernel⟩

/-- An operation with no candidate yet: cancelled, with slot 0 to choose, and with none at its level. -/
theorem witness_CandidatesAndOutcomes_choice :
    let s := fun (o : IssueOperation) => issuing o slotZero busy
    let none100 : IssueOperation := { operation none false with minLevel := 100 }
    (WindowsSound (s (operation none false)) ∧ DevicesSound (s (operation none false)) ∧ IssuesSound (s (operation none false))) ∧
      (operation none true).cancel = true ∧ (∀ a, ¬ Choosable none100 (s none100) a) ∧
      Chosen (operation none false) (s (operation none false)) 0 ∧ (s (operation none false)).groups[(0 : GroupId)].channel = some 0 := by
  intro s none100
  refine ⟨⟨by unfold WindowsSound; decide +kernel, by unfold DevicesSound; decide +kernel, by unfold IssuesSound; decide +kernel⟩, rfl,
    by unfold Choosable; decide +kernel, ⟨by unfold Choosable; decide +kernel, fun b hb hne => ?_⟩, rfl⟩
  have only : ∀ b : SlotAddr, b ≠ 0 → ¬ Choosable (operation none false) (s (operation none false)) b := by
    unfold Choosable; decide +kernel
  exact absurd hb (only b hne)

/-- A candidate at slot 0 whose TUNE is answered, whose RELEASE is answered, and whose RELEASE times out. -/
theorem witness_CandidatesAndOutcomes :
    let x : Slot := { slotZero with reservation := some 1, phase := .none, pollTimer := none }
    let c := fun stage : Stage => { slot := 0, stage := stage, tunedChannel := 0 : Candidate }
    let s := fun (stage : Stage) (e : Exchange) (answer : Option (List Byte)) =>
      { issuing (operation (some (c stage)) false) x (inFlight e answer false) with
        racks := busy.racks.set 0 (some { rack with committed := 0, sessions := [] }) }
    (WindowsSound (s .tune (.tune 0 0 0 none) (some [90])) ∧ DevicesSound (s .tune (.tune 0 0 0 none) (some [90])) ∧
        IssuesSound (s .tune (.tune 0 0 0 none) (some [90]))) ∧
      Answered (.tune 0 0 0 none) [90] (s .tune (.tune 0 0 0 none) (some [90])) ∧
      Answered (.release 0) [90] (s .release (.release 0) (some [90])) ∧ Unanswered (.release 0) (s .release (.release 0) none) ∧
      x.occupancy = .occupied ∧ x.deviceId = some 0x2000B001 ∧ x.timeouts = 0 := by
  intro x c s
  exact ⟨⟨by unfold WindowsSound; decide +kernel, by unfold DevicesSound; decide +kernel, by unfold IssuesSound; decide +kernel⟩,
    by unfold Answered Unanswered; decide +kernel⟩

end Sys2Proof.Tests
end

