-- ==== Sys2Proof/Proofs/LinkMaps.lean ====
section
/-! PROOF. A block's work reaches the link controller only by offering EVENT notices, and never looks at the commands that wait. So it
commutes with every change of the link that the offering of a notice commutes with, and with every change of the waiting commands. Each
operation of the model is shown to do so once; what the link keeps at every step, and that a request's service does not see the
other requests, are then this one fact at suitable changes of the link. -/

namespace Sys2Proof.Machine

/-! ## Changes of the link that the blocks do not notice -/

/-- A frame offered to the link as an EVENT notice (R7, R11), in the terms of the link alone. -/
def Link.offered (f : Frame) (l : Link) : Link :=
  if l.resetPending = false ∧ l.outbound.length < 24 then { l with outbound := l.outbound ++ [.frame f] } else l

/-- A change of the link that commutes with what the blocks' work does to the link: offering a notice, reading the rate
(IDENTIFY), and setting reset-pending (SOFT_RESET). -/
structure LinkMap where
  map : Link → Link
  offered : ∀ f l, map (l.offered f) = (map l).offered f
  rate : ∀ l, (map l).rate = l.rate
  pending : ∀ l, map { l with resetPending := true } = { map l with resetPending := true }

/-- The state with its link changed by m and with p as its waiting commands. Reducible, so that a test on any other field is seen to be
the same test. -/
@[reducible] def State.via (m : LinkMap) (p : List Instr) (s : State) : State := { s with link := m.map s.link, pending := p }

/-- The work commutes with every such change. -/
def Passes (w : State → State) : Prop := ∀ (m : LinkMap) (p : List Instr) (s : State), w (s.via m p) = (w s).via m p

variable (m : LinkMap) (p : List Instr) (s : State)

@[simp] theorem State.via_link : (s.via m p).link = m.map s.link := rfl
@[simp] theorem State.via_air : (s.via m p).air = s.air := rfl
@[simp] theorem State.via_pool : (s.via m p).pool = s.pool := rfl
@[simp] theorem State.via_sources : (s.via m p).sources = s.sources := rfl
@[simp] theorem State.via_channels : (s.via m p).channels = s.channels := rfl
@[simp] theorem State.via_sched : (s.via m p).sched = s.sched := rfl
@[simp] theorem State.via_racks : (s.via m p).racks = s.racks := rfl
@[simp] theorem State.via_slots : (s.via m p).slots = s.slots := rfl
@[simp] theorem State.via_bus : (s.via m p).bus = s.bus := rfl
@[simp] theorem State.via_charge : (s.via m p).charge = s.charge := rfl
@[simp] theorem State.via_devices : (s.via m p).devices = s.devices := rfl
@[simp] theorem State.via_groups : (s.via m p).groups = s.groups := rfl
@[simp] theorem State.via_ops : (s.via m p).ops = s.ops := rfl
@[simp] theorem State.via_roster : (s.via m p).roster = s.roster := rfl
@[simp] theorem State.via_events : (s.via m p).events = s.events := rfl
@[simp] theorem State.via_pins : (s.via m p).pins = s.pins := rfl
@[simp] theorem State.via_pending : (s.via m p).pending = p := rfl

@[simp] theorem setSource_via (k : SourceId) (x : Source) : (s.via m p).setSource k x = (s.setSource k x).via m p := rfl
@[simp] theorem setChannel_via (c : ChannelId) (x : Channel) : (s.via m p).setChannel c x = (s.setChannel c x).via m p := rfl
@[simp] theorem setRack_via (r : RackId) (x : Option RackWindow) : (s.via m p).setRack r x = (s.setRack r x).via m p := rfl
@[simp] theorem modRack_via (r : RackId) (f : RackWindow → RackWindow) : (s.via m p).modRack r f = (s.modRack r f).via m p := rfl
@[simp] theorem setSlot_via (a : SlotAddr) (x : Option Slot) : (s.via m p).setSlot a x = (s.setSlot a x).via m p := rfl
@[simp] theorem modSlot_via (a : SlotAddr) (f : Slot → Slot) : (s.via m p).modSlot a f = (s.modSlot a f).via m p := rfl
@[simp] theorem setGroup_via (g : GroupId) (x : Group) : (s.via m p).setGroup g x = (s.setGroup g x).via m p := rfl
@[simp] theorem setRoster_via (k : RosterId) (x : RosterEntry) : (s.via m p).setRoster k x = (s.setRoster k x).via m p := rfl
@[simp] theorem setEvent_via (k : EventId) (x : EventKindState) : (s.via m p).setEvent k x = (s.setEvent k x).via m p := rfl
@[simp] theorem setQueue_via (q : Fin 6) (l : List Exchange) : (s.via m p).setQueue q l = (s.setQueue q l).via m p := rfl
@[simp] theorem modDevice_via (d : DeviceId) (f : Device → Device) : (s.via m p).modDevice d f = (s.modDevice d f).via m p := rfl
@[simp] theorem modOp_via (g : GroupId) (f : IssueOperation → IssueOperation) : (s.via m p).modOp g f = (s.modOp g f).via m p := rfl
@[simp] theorem modBound_via (c : ChannelId) (f : Nat → Nat) : (s.via m p).modBound c f = (s.modBound c f).via m p := rfl
@[simp] theorem returnCells_via (c : List CellId) : returnCells c (s.via m p) = (returnCells c s).via m p := rfl
@[simp] theorem device?_via : (s.via m p).device? = s.device? := rfl
@[simp] theorem op?_via (g : GroupId) : (s.via m p).op? g = s.op? g := rfl
@[simp] theorem notice?_via (h : Nat) : (s.via m p).notice? h = s.notice? h := rfl
@[simp] theorem rackOf_via (a : SlotAddr) : (s.via m p).rackOf a = s.rackOf a := rfl
@[simp] theorem definedRacks_via : (s.via m p).definedRacks = s.definedRacks := rfl
@[simp] theorem queuedWhere_via (t : Exchange → Bool) : queuedWhere t (s.via m p) = queuedWhere t s := rfl

/-- Two cases of one distinction, each with its link changed, are the distinction with its link changed. -/
@[simp] theorem ite_via (c : Prop) [Decidable c] (s t : State) :
    (if c then s.via m p else t.via m p) = (if c then s else t).via m p := (apply_ite (State.via m p) c s t).symm

theorem forEach_via {α : Type} {f : α → State → State} (h : ∀ a, Passes (f a)) (l : List α) : Passes (forEach l f) := by
  intro m p s
  induction l generalizing s with
  | nil => rfl
  | cons a l ih => rw [forEach_cons, h a m p s, ih, forEach_cons]

/-! ## Raising (chapter 10) -/

/-- The link's part in an offer is the whole of it (R11). -/
theorem addNotice_eq (f : Frame) (s : State) : addNotice f s = { s with link := s.link.offered f } := by
  unfold addNotice Link.offered State.occupancy eventThreshold State.addOutbound
  split <;> rfl

@[simp] theorem addNotice_via (f : Frame) : addNotice f (s.via m p) = (addNotice f s).via m p := by
  simp only [addNotice_eq, State.via, m.offered]
@[simp] theorem offerNotice_via (k : EventId) : offerNotice k (s.via m p) = (offerNotice k s).via m p := by
  unfold offerNotice
  rw [State.via_events]
  cases (s.events[k]).latest <;> simp
@[simp] theorem raiseKind_via (k : EventId) (o : Nat) (d : BitVec 32) (b : Bool) :
    raiseKind k o d b (s.via m p) = (raiseKind k o d b s).via m p := by simp [raiseKind]
@[simp] theorem raise_via (k : EventKind) (o d : Nat) : raise k o d (s.via m p) = (raise k o d s).via m p := by simp [raise]
@[simp] theorem raiseInt_via (k : EventKind) (o : Nat) (d : Int) : raiseInt k o d (s.via m p) = (raiseInt k o d s).via m p := by
  simp [raiseInt]

/-! ## The cell store and the elastic buffers (chapter 3) -/

@[simp] theorem lendElastic_via : lendElastic (s.via m p) = (lendElastic s).map (fun a => (a.1, a.2.via m p)) := by
  unfold lendElastic
  rw [State.via_pool]
  cases s.pool.freeList with
  | nil => rfl
  | cons c rest =>
    rw [Option.map_some, apply_ite (State.via m p), ← raise_via]
@[simp] theorem setBuffer_via (k : SourceId) (b : Buffer) : setBuffer k b (s.via m p) = (setBuffer k b s).via m p := rfl
@[simp] theorem growBuffer_via (n : Nat) (k : SourceId) (xs : List Sample) :
    growBuffer n k xs (s.via m p) = ((growBuffer n k xs s).1, (growBuffer n k xs s).2.via m p) := by
  induction n generalizing xs s with
  | zero => rfl
  | succ n ih =>
    cases xs with
    | nil => rfl
    | cons x xs =>
      unfold growBuffer
      rw [lendElastic_via]
      cases lendElastic s <;> simp [setBuffer_via, ih]
@[simp] theorem consume_via (k : SourceId) (n : Nat) : consume k n (s.via m p) = (consume k n s).via m p := rfl
@[simp] theorem overrun_via (k : SourceId) (n : Nat) : overrun k n (s.via m p) = (overrun k n s).via m p := by simp [overrun]
@[simp] theorem writeSamples_via (k : SourceId) (xs : List Sample) : writeSamples k xs (s.via m p) = (writeSamples k xs s).via m p := by
  simp [writeSamples]
@[simp] theorem append_via (k : SourceId) (xs : List Sample) : append k xs (s.via m p) = (append k xs s).via m p := by simp [append]

/-! ## The sources (chapter 4) -/

@[simp] theorem enterRest_via (x : SourceState) (k : SourceId) : enterRest x k (s.via m p) = (enterRest x k s).via m p := rfl
@[simp] theorem sourceOff_via (k : SourceId) : sourceOff k (s.via m p) = (sourceOff k s).via m p := by simp [sourceOff]
@[simp] theorem sourceWaiting_via (k : SourceId) : sourceWaiting k (s.via m p) = (sourceWaiting k s).via m p := by simp [sourceWaiting]
@[simp] theorem setLol_via (k : SourceId) (n : Nat) : setLol k n (s.via m p) = (setLol k n s).via m p := by simp [setLol]
@[simp] theorem countLockLoss_via (k : SourceId) : countLockLoss k (s.via m p) = (countLockLoss k s).via m p := by simp [countLockLoss]
@[simp] theorem detectLock_via (k : SourceId) (e : Int) : detectLock k e (s.via m p) = (detectLock k e s).via m p := by
  unfold detectLock
  dsimp only [State.via_sources]
  cases s.sources[k].state <;> simp
@[simp] theorem filterAndDetect_via (k : SourceId) : filterAndDetect k (s.via m p) = (filterAndDetect k s).via m p := by
  simp [filterAndDetect]
@[simp] theorem firstArrival_via (k : SourceId) : firstArrival k (s.via m p) = (firstArrival k s).via m p := by
  unfold firstArrival
  dsimp only [State.via_sources]
  cases s.sources[k].state <;> cases s.sources[k].mode <;> simp
@[simp] theorem prefillTest_via (k : SourceId) : prefillTest k (s.via m p) = (prefillTest k s).via m p := by simp [prefillTest]
@[simp] theorem endHoldover_via (k : SourceId) : endHoldover k (s.via m p) = (endHoldover k s).via m p := by simp [endHoldover]
@[simp] theorem arrivalProcessing_via (k : SourceId) : arrivalProcessing k (s.via m p) = (arrivalProcessing k s).via m p := by
  unfold arrivalProcessing
  dsimp only [State.via_sources]
  cases s.sources[k].state <;> simp
@[simp] theorem markArrived_via (k : SourceId) (q : Option Byte) : markArrived k q (s.via m p) = (markArrived k q s).via m p := rfl
@[simp] theorem arrival_via (k : SourceId) (q : Option Byte) (xs : List Sample) :
    arrival k q xs (s.via m p) = (arrival k q xs s).via m p := by simp [arrival]
@[simp] theorem takeUplinkBlock_via (k : RosterId) (b : UplinkBlock) (c : Bool) :
    takeUplinkBlock k b c (s.via m p) = (takeUplinkBlock k b c s).via m p := by
  unfold takeUplinkBlock
  rw [show judge k b c (s.via m p) = judge k b c s from rfl]
  cases judge k b c s <;> simp

@[simp] theorem output_via (k : SourceId) : output k (s.via m p) = (output k s).via m p := by simp [output]
@[simp] theorem recordHistory_via (k : SourceId) : recordHistory k (s.via m p) = (recordHistory k s).via m p := by simp [recordHistory]
@[simp] theorem enterHoldover_via (k : SourceId) : enterHoldover k (s.via m p) = (enterHoldover k s).via m p := by simp [enterHoldover]
@[simp] theorem loseSource_via (k : SourceId) (d : Nat) : loseSource k d (s.via m p) = (loseSource k d s).via m p := by simp [loseSource]
@[simp] theorem prefillMark_via (k : SourceId) : prefillMark k (s.via m p) = (prefillMark k s).via m p := by simp [prefillMark]
@[simp] theorem holdoverMark_via (k : SourceId) : holdoverMark k (s.via m p) = (holdoverMark k s).via m p := by simp [holdoverMark]
@[simp] theorem fixedMark_via (k : SourceId) : fixedMark k (s.via m p) = (fixedMark k s).via m p := by simp [fixedMark]
@[simp] theorem trackingMark_via (k : SourceId) : trackingMark k (s.via m p) = (trackingMark k s).via m p := by simp [trackingMark]
@[simp] theorem markWork_via (k : SourceId) : markWork k (s.via m p) = (markWork k s).via m p := by
  unfold markWork
  dsimp only [State.via_sources]
  cases s.sources[k].state <;> simp
@[simp] theorem outputSource_via (k : SourceId) : outputSource k (s.via m p) = (outputSource k s).via m p := by
  simp [outputSource, clearArrived]
@[simp] theorem setLine_via (k : SourceId) (on : Bool) : setLine k on (s.via m p) = (setLine k on s).via m p := by
  cases on <;> cases h : s.air.running <;> simp [setLine, h]

/-! ## The channels (chapter 5) -/

@[simp] theorem firstUsable_via (l : List SourceId) : firstUsable l (s.via m p) = firstUsable l s := rfl
@[simp] theorem switchTo_via (c : ChannelId) (w : SwitchCause) (k : SourceId) :
    switchTo c w k (s.via m p) = (switchTo c w k s).via m p := by simp [switchTo]
@[simp] theorem applyPlan_via (c : ChannelId) (d : Nat) : applyPlan c d (s.via m p) = (applyPlan c d s).via m p := by
  unfold applyPlan
  dsimp only [State.via_channels]
  cases s.channels[c].stagedPlan <;> simp
@[simp] theorem silentReview_via (c : ChannelId) : silentReview c (s.via m p) = (silentReview c s).via m p := by
  unfold silentReview
  rw [State.via_channels, firstUsable_via]
  cases firstUsable s.channels[c].liveSources s <;> simp
@[simp] theorem reselect_via (c : ChannelId) (k : SourceId) : reselect c k (s.via m p) = (reselect c k s).via m p := by
  unfold reselect
  simp only [firstUsable_via]
  cases firstUsable s.channels[c].liveSources s <;> simp
@[simp] theorem revertStep_via (c : ChannelId) (q : Plan) (k : SourceId) : revertStep c q k (s.via m p) = (revertStep c q k s).via m p := by
  unfold revertStep
  simp only [firstUsable_via]
  cases firstUsable (rankedAbove q.sources k) s <;> simp
@[simp] theorem liveReview_via (c : ChannelId) (k : SourceId) (x : SourceClass) :
    liveReview c k x (s.via m p) = (liveReview c k x s).via m p := by
  unfold liveReview
  dsimp only [State.via_channels]
  cases x <;> cases s.channels[c].livePlan <;> simp
@[simp] theorem bridgingReview_via (c : ChannelId) (k : SourceId) (x : SourceClass) :
    bridgingReview c k x (s.via m p) = (bridgingReview c k x s).via m p := by
  unfold bridgingReview
  simp only [firstUsable_via]
  cases x <;> cases s.channels[c].livePlan <;> cases firstUsable s.channels[c].liveSources s <;> simp
@[simp] theorem reviewByState_via (c : ChannelId) : reviewByState c (s.via m p) = (reviewByState c s).via m p := by
  unfold reviewByState
  dsimp only
  cases s.channels[c].state <;> cases s.channels[c].activeSource <;> simp
@[simp] theorem reviewChannel_via (c : ChannelId) : reviewChannel c (s.via m p) = (reviewChannel c s).via m p := by simp [reviewChannel]
@[simp] theorem stopChannel_via (c : ChannelId) : stopChannel c (s.via m p) = (stopChannel c s).via m p := by simp [stopChannel]

/-! ## The notices (chapter 6) -/

@[simp] theorem removeNotice_via (n : NoticeRecord) : removeNotice n (s.via m p) = (removeNotice n s).via m p := rfl
@[simp] theorem freeHandle_via (n h : Nat) : freeHandle n h (s.via m p) = freeHandle n h s := by
  induction n generalizing h with
  | zero => rfl
  | succ n ih => simp [freeHandle, ih]
@[simp] theorem retuneGroup_via (g : GroupId) (c : ChannelId) : retuneGroup g c (s.via m p) = (retuneGroup g c s).via m p := by
  unfold retuneGroup
  rw [State.via_groups]
  cases s.groups[g].channel with
  | none => rfl
  | some d => rw [apply_ite (State.via m p)]; rfl
@[simp] theorem retuneEffect_via (n : NoticeRecord) : retuneEffect n (s.via m p) = (retuneEffect n s).via m p := by
  unfold retuneEffect
  cases n.retuneChannel <;> cases n.targetType <;> cases toIndex 24 n.targetValue.toNat <;> simp [retuneDevice]
@[simp] theorem lendNotice_via (n : Nat) : lendNotice n (s.via m p) = (lendNotice n s).map (fun a => (a.1, a.2.via m p)) := by
  unfold lendNotice
  rw [State.via_pool]
  split <;> rfl
@[simp] theorem insertNotice_via (n : NoticeRecord) : insertNotice n (s.via m p) = (insertNotice n s).via m p := rfl
@[simp] theorem expireOne_via (c : Count) (h : Nat) : expireOne c h (s.via m p) = (expireOne c h s).via m p := by
  unfold expireOne
  rw [notice?_via]
  cases s.notice? h <;> simp
@[simp] theorem expireNotices_via (c : Count) : expireNotices c (s.via m p) = (expireNotices c s).via m p :=
  forEach_via (fun _ _ _ _ => by simp) _ m p s
@[simp] theorem afterPlacement_via (c : Count) (n : NoticeRecord) : afterPlacement c n (s.via m p) = (afterPlacement c n s).via m p := by
  unfold afterPlacement
  split <;> rfl

/-- What the scans have done so far, with the link and the waiting commands changed. -/
def Placement.via (m : LinkMap) (p : List Instr) (x : Placement) : Placement := { x with state := x.state.via m p }

@[simp] theorem scanOne_via (c : Count) (q : NoticeClass) (x : Placement) (h : Nat) :
    scanOne c q (x.via m p) h = (scanOne c q x h).via m p := by
  unfold scanOne
  rw [show (x.via m p).state.notice? h = x.state.notice? h from rfl]
  cases x.state.notice? h with
  | none => rfl
  | some n =>
    simp only [show (x.via m p).state = x.state.via m p from rfl, afterPlacement_via, apply_ite (Placement.via m p)]
    rfl
@[simp] theorem scanQueue_via (c : Count) (q : NoticeClass) (x : Placement) :
    scanQueue c q (x.via m p) = (scanQueue c q x).via m p := by
  unfold scanQueue
  rw [show (x.via m p).state.sched = x.state.sched from rfl]
  generalize x.state.sched.queue q = l
  induction l generalizing x with
  | nil => rfl
  | cons a l ih => rw [List.foldl_cons, scanOne_via, ih, List.foldl_cons]
@[simp] theorem updateLate_via (x : Placement) : updateLate (x.via m p) = (updateLate x).via m p := rfl
/-- The two scans of a placement, after the expiry, in the order that the late flag gives (R104, R105). -/
def scans (c : Count) (n : Nat) (t : State) : Placement :=
  let x : Placement := { state := { t with sched := { t.sched with lateFlag := false } }, room := n, cells := [],
                         routineEligible := false, routinePlaced := false }
  if t.sched.lateFlag then scanQueue c .urgent (scanQueue c .routine x) else scanQueue c .routine (scanQueue c .urgent x)

theorem placeNotices_eq (c : Count) (n : Nat) (s : State) :
    placeNotices c n s = (updateLate (scans c n (expireNotices c s)), (scans c n (expireNotices c s)).cells) := rfl

@[simp] theorem scans_via (c : Count) (n : Nat) : scans c n (s.via m p) = (scans c n s).via m p := by
  unfold scans
  rw [apply_ite (Placement.via m p), ← scanQueue_via, ← scanQueue_via, ← scanQueue_via, ← scanQueue_via]
  rfl
@[simp] theorem placeNotices_via (c : Count) (n : Nat) :
    placeNotices c n (s.via m p) = ((placeNotices c n s).1.via m p, (placeNotices c n s).2) := by
  simp only [placeNotices_eq, expireNotices_via, scans_via, updateLate_via]
  rfl

/-! ## The air (chapter 2) -/

@[simp] theorem buildImage_via : buildImage (s.via m p) = (buildImage s).via m p := by
  unfold buildImage
  rw [State.via_air, show noticeCapacity (s.via m p) = noticeCapacity s from rfl]
  simp only [placeNotices_via]
  rfl
@[simp] theorem stopAir_via (r : StopReason) (order : List ChannelId) : stopAir r order (s.via m p) = (stopAir r order s).via m p := by
  unfold stopAir
  rw [← forEach_via (fun _ _ _ _ => by simp), ← forEach_via (fun _ _ _ _ => by simp)]
@[simp] theorem startSuperframe_via : startSuperframe (s.via m p) = (startSuperframe s).via m p := rfl

/-! ## Exchanges (7.2) -/

@[simp] theorem request_via (e : Exchange) : request e (s.via m p) = ((request e s).1, (request e s).2.via m p) := by
  have allowed : e.allowed (s.via m p) = e.allowed s := by cases e <;> rfl
  have merged : e.merged (s.via m p) = e.merged s := by cases e <;> rfl
  unfold request
  rw [allowed, merged]
  dsimp only [State.via_bus]
  (repeat' split) <;> rfl
@[simp] theorem ask_via (e : Exchange) : ask e (s.via m p) = (ask e s).via m p := by simp [ask]
@[simp] theorem scanAll_via : scanAll (s.via m p) = (scanAll s).via m p := forEach_via (fun _ _ _ _ => by simp) _ m p s
@[simp] theorem unqueue_via (e : Exchange) : unqueue e (s.via m p) = (unqueue e s).via m p := rfl

/-! ## Charging (chapter 8) -/

@[simp] theorem requestSetCharge_via (a : SlotAddr) (c : ChargeMode) :
    requestSetCharge a c (s.via m p) = (requestSetCharge a c s).via m p := by
  unfold requestSetCharge
  rw [request_via]
  rcases request (.setCharge a c) s with ⟨_ | _ | _, t⟩ <;> rfl
@[simp] theorem admitHead_via (r : RackId) (a : SlotAddr) : admitHead r a (s.via m p) = (admitHead r a s).via m p := by
  unfold admitHead
  rw [← requestSetCharge_via]
  rfl
@[simp] theorem headDraw_via (a : SlotAddr) : headDraw a (s.via m p) = headDraw a s := rfl
@[simp] theorem attemptLoop_via (n : Nat) (r : RackId) : attemptLoop n r (s.via m p) = (attemptLoop n r s).via m p := by
  induction n generalizing s with
  | zero => rfl
  | succ n ih =>
    unfold attemptLoop
    dsimp only [State.via_racks]
    rcases s.racks[r] with - | w
    · rfl
    · dsimp only
      rcases w.admission with - | ⟨a, l⟩
      · rfl
      · dsimp only
        rw [headDraw_via]
        simp [ih]
@[simp] theorem attempt_via (r : RackId) : attempt r (s.via m p) = (attempt r s).via m p := by simp [attempt]
@[simp] theorem attemptFor_via (a : SlotAddr) : attemptFor a (s.via m p) = (attemptFor a s).via m p := by
  unfold attemptFor
  rw [rackOf_via]
  cases s.rackOf a <;> simp
@[simp] theorem modRackOf_via (a : SlotAddr) (f : RackWindow → RackWindow) : modRackOf a f (s.via m p) = (modRackOf a f s).via m p := by
  unfold modRackOf
  rw [rackOf_via]
  cases s.rackOf a <;> simp
@[simp] theorem isHead_via (a : SlotAddr) : isHead a (s.via m p) = isHead a s := rfl
@[simp] theorem joinQueue_via (a : SlotAddr) : joinQueue a (s.via m p) = (joinQueue a s).via m p := modRackOf_via m p s a _
@[simp] theorem startWaiting_via (a : SlotAddr) : startWaiting a (s.via m p) = (startWaiting a s).via m p := by simp [startWaiting]
@[simp] theorem enterCharging_via (a : SlotAddr) : enterCharging a (s.via m p) = (enterCharging a s).via m p := by simp [enterCharging]
@[simp] theorem leaveCharging_via (a : SlotAddr) : leaveCharging a (s.via m p) = (leaveCharging a s).via m p := by
  unfold leaveCharging
  dsimp only [State.via_slots]
  cases (s.slots[a].map Slot.phase).getD .none <;> simp
@[simp] theorem endCharging_via (a : SlotAddr) : endCharging a (s.via m p) = (endCharging a s).via m p := by
  unfold endCharging
  dsimp only [State.via_slots]
  cases (s.slots[a].map Slot.phase).getD .none <;> simp
@[simp] theorem dropChargeExchanges_via (a : SlotAddr) : dropChargeExchanges a (s.via m p) = (dropChargeExchanges a s).via m p := rfl
@[simp] theorem endByReservation_via (a : SlotAddr) : endByReservation a (s.via m p) = (endByReservation a s).via m p := by
  simp [endByReservation]
@[simp] theorem handBack_via (a : SlotAddr) : handBack a (s.via m p) = (handBack a s).via m p := by simp [handBack]
@[simp] theorem passToTop_via (a : SlotAddr) : passToTop a (s.via m p) = (passToTop a s).via m p := by simp [passToTop]
@[simp] theorem passToFull_via (a : SlotAddr) : passToFull a (s.via m p) = (passToFull a s).via m p := by simp [passToFull]
@[simp] theorem judgePoll_via (a : SlotAddr) : judgePoll a (s.via m p) = (judgePoll a s).via m p := by
  unfold judgePoll
  dsimp only [State.via_slots]
  rcases s.slots[a] with - | x
  · rfl
  · dsimp only
    cases x.phase <;> simp
@[simp] theorem shedOne_via (r : RackId) (a : SlotAddr) : shedOne r a (s.via m p) = (shedOne r a s).via m p := by simp [shedOne]
@[simp] theorem shedLoop_via (n : Nat) (r : RackId) :
    shedLoop n r (s.via m p) = ((shedLoop n r s).1, (shedLoop n r s).2.via m p) := by
  induction n generalizing s with
  | zero => rfl
  | succ n ih =>
    unfold shedLoop
    dsimp only [State.via_racks]
    rcases s.racks[r] with - | w
    · rfl
    · dsimp only
      split
      · rfl
      · rw [show nextShed w (s.via m p) = nextShed w s from rfl]
        cases nextShed w s <;> simp [ih]
@[simp] theorem shed_via (r : RackId) : shed r (s.via m p) = ((shed r s).1, (shed r s).2.via m p) := by
  unfold shed
  dsimp only [State.via_racks]
  rcases s.racks[r] with - | w
  · rfl
  · dsimp only
    rw [shedLoop_via]
    dsimp only
    split <;> simp
@[simp] theorem writeBudget_via (r : RackId) (w : RackWindow) (n : Nat) :
    writeBudget r w n (s.via m p) = ((writeBudget r w n s).1, (writeBudget r w n s).2.via m p) := by
  unfold writeBudget
  dsimp only
  split
  · simp
  · split <;> simp

/-! ## Issue operations and the fleet (chapter 9) -/

@[simp] theorem bindRoster_via (k : RosterId) (d : DeviceId) : bindRoster k d (s.via m p) = (bindRoster k d s).via m p := by
  cases h : s.air.running <;> simp [bindRoster, h]
@[simp] theorem unbindRoster_via (k : RosterId) : unbindRoster k (s.via m p) = (unbindRoster k s).via m p := by simp [unbindRoster]
@[simp] theorem bestSlot_via (o : IssueOperation) : bestSlot o (s.via m p) = bestSlot o s := rfl
@[simp] theorem completeOp_via (g : GroupId) : completeOp g (s.via m p) = (completeOp g s).via m p := by
  unfold completeOp
  rw [op?_via]
  rcases s.op? g with - | o
  · rfl
  · dsimp only
    by_cases none_issued : o.issued = 0 <;> cases o.kind <;> cases o.roster <;> simp [none_issued]
@[simp] theorem reserveSlot_via (g : GroupId) (o : IssueOperation) (a : SlotAddr) :
    reserveSlot g o a (s.via m p) = (reserveSlot g o a s).via m p := by simp [reserveSlot]
@[simp] theorem chooseNext_via (g : GroupId) : chooseNext g (s.via m p) = (chooseNext g s).via m p := by
  unfold chooseNext
  rw [op?_via]
  rcases s.op? g with - | o
  · rfl
  · dsimp only
    rw [bestSlot_via]
    cases bestSlot o s <;> simp
@[simp] theorem nextOrComplete_via (g : GroupId) : nextOrComplete g (s.via m p) = (nextOrComplete g s).via m p := by
  unfold nextOrComplete
  rw [op?_via]
  cases s.op? g <;> simp
@[simp] theorem failCandidate_via (g : GroupId) (a : SlotAddr) (b : Bool) :
    failCandidate g a b (s.via m p) = (failCandidate g a b s).via m p := by simp [failCandidate]
@[simp] theorem candidateGroup_via (a : SlotAddr) (l : List Stage) : candidateGroup a l (s.via m p) = candidateGroup a l s := rfl
@[simp] theorem failAt_via (a : SlotAddr) (l : List Stage) (b : Bool) : failAt a l b (s.via m p) = (failAt a l b s).via m p := by
  unfold failAt
  rw [candidateGroup_via]
  cases candidateGroup a l s <;> simp
@[simp] theorem tuneAnswered_via (a : SlotAddr) : tuneAnswered a (s.via m p) = (tuneAnswered a s).via m p := by
  unfold tuneAnswered
  rw [candidateGroup_via]
  rcases candidateGroup a [.tune] s with - | g
  · rfl
  · dsimp only [State.via_slots]
    cases s.slots[a].bind Slot.deviceId <;> dsimp only
    · rw [request_via]
      rcases request (.release a) s with ⟨_ | _ | _, t⟩ <;> simp
    · rw [modDevice_via, request_via]
      generalize request (.release a) _ = x
      rcases x with ⟨_ | _ | _, t⟩ <;> simp
@[simp] theorem issueDevice_via (g : GroupId) (o : IssueOperation) (a : SlotAddr) (d : DeviceId) :
    issueDevice g o a d (s.via m p) = (issueDevice g o a d s).via m p := by
  unfold issueDevice
  cases o.kind <;> cases o.roster <;> simp
@[simp] theorem releaseAnswered_via (a : SlotAddr) : releaseAnswered a (s.via m p) = (releaseAnswered a s).via m p := by
  unfold releaseAnswered
  rw [candidateGroup_via]
  rcases candidateGroup a [.release] s with - | g
  · rfl
  · dsimp only [State.via_slots]
    rw [op?_via]
    cases s.op? g <;> cases s.slots[a].bind Slot.deviceId <;> simp
@[simp] theorem setClear_via (d : DeviceId) (c : ClearState) : setClear d c (s.via m p) = (setClear d c s).via m p := rfl
@[simp] theorem deliverDiscarded_via (b : Bool) (e : Exchange) : deliverDiscarded b e (s.via m p) = (deliverDiscarded b e s).via m p := by
  cases e <;> simp [deliverDiscarded]
@[simp] theorem deliverTimeout_via (e : Exchange) : deliverTimeout e (s.via m p) = (deliverTimeout e s).via m p := by
  cases e <;> simp [deliverTimeout]
@[simp] theorem discardWhere_via (t : Exchange → Bool) (b : Bool) : discardWhere t b (s.via m p) = (discardWhere t b s).via m p :=
  forEach_via (fun _ _ _ _ => by simp) _ m p s
@[simp] theorem discardSlot_via (a : SlotAddr) (b : Bool) : discardSlot a b (s.via m p) = (discardSlot a b s).via m p :=
  discardWhere_via m p s _ b
@[simp] theorem requestClear_via (a : SlotAddr) (d : DeviceId) : requestClear a d (s.via m p) = (requestClear a d s).via m p := by
  unfold requestClear
  rw [request_via]
  rcases request (.clear a d) s with ⟨_ | _ | _, t⟩ <;> rfl
@[simp] theorem freeGroup_via (g : GroupId) : freeGroup g (s.via m p) = (freeGroup g s).via m p := by
  unfold freeGroup
  dsimp only [State.via_groups]
  cases s.groups[g].channel <;> rfl
@[simp] theorem closeIfEmpty_via (g : GroupId) : closeIfEmpty g (s.via m p) = (closeIfEmpty g s).via m p := by simp [closeIfEmpty]
@[simp] theorem returnDevice_via (d : Device) (a : SlotAddr) (n : Nat) :
    returnDevice d a n (s.via m p) = (returnDevice d a n s).via m p := by
  unfold returnDevice
  rcases d.assignment with - | x
  · rfl
  · dsimp only
    cases x.roster <;> simp
@[simp] theorem createOp_via (g : GroupId) (body : List Byte) : createOp g body (s.via m p) = (createOp g body s).via m p := by
  unfold createOp
  dsimp only
  cases issueRoster body <;> rfl

/-! ## Racks and slots (chapter 7) -/

@[simp] theorem emptiedDevice_via (r : EmptyReason) (a : SlotAddr) : emptiedDevice r a (s.via m p) = (emptiedDevice r a s).via m p := by
  unfold emptiedDevice
  dsimp only [State.via_slots]
  rw [device?_via]
  rcases (s.slots[a].bind Slot.deviceId).bind s.device? with - | d
  · rfl
  · dsimp only
    cases d.state <;> cases r <;> simp
@[simp] theorem emptiedReservation_via (a : SlotAddr) : emptiedReservation a (s.via m p) = (emptiedReservation a s).via m p := by
  simp [emptiedReservation]
@[simp] theorem emptySlot_via (r : EmptyReason) (a : SlotAddr) : emptySlot r a (s.via m p) = (emptySlot r a s).via m p := by
  unfold emptySlot
  dsimp only [State.via_slots]
  cases s.slots[a] <;> simp
@[simp] theorem markFault_via (a : SlotAddr) (c : FaultCause) : markFault a c (s.via m p) = (markFault a c s).via m p := by
  cases c <;> simp [markFault]
@[simp] theorem enterFault_via (a : SlotAddr) (c : FaultCause) : enterFault a c (s.via m p) = (enterFault a c s).via m p := by
  simp [enterFault]
@[simp] theorem scanPosition_via (w : RackWindow) (l : List Byte) (a : SlotAddr) :
    scanPosition w l a (s.via m p) = (scanPosition w l a s).via m p := by
  unfold scanPosition
  dsimp only [State.via_slots]
  rcases s.slots[a].map Slot.occupancy with - | x
  · rfl
  · cases x <;> simp
@[simp] theorem clearOwed_via (a : SlotAddr) : clearOwed a (s.via m p) = (clearOwed a s).via m p := by
  unfold clearOwed
  dsimp only [State.via_slots]
  rcases s.slots[a] with - | x
  · rfl
  · dsimp only
    rw [device?_via]
    cases x.deviceId.bind s.device? <;> simp
@[simp] theorem scanComplete_via (r : RackId) (l : List Byte) : scanComplete r l (s.via m p) = (scanComplete r l s).via m p := by
  unfold scanComplete
  dsimp only [State.via_racks]
  rcases s.racks[r] with - | w
  · rfl
  · dsimp only
    rw [modRack_via, forEach_via (fun _ _ _ _ => by simp), forEach_via (fun _ _ _ _ => by simp)]
@[simp] theorem occupySlot_via (a : SlotAddr) (d : DeviceId) (k : DeviceKind) (n : Nat) :
    occupySlot a d k n (s.via m p) = (occupySlot a d k n s).via m p := rfl
@[simp] theorem probeOutcome_via (a : SlotAddr) (d : DeviceId) (k : DeviceKind) (n : Nat) :
    probeOutcome a d k n (s.via m p) = (probeOutcome a d k n s).via m p := by
  unfold probeOutcome
  rw [device?_via]
  rcases s.device? d with - | x
  · by_cases room : s.devices.length < deviceCapacity
    · simp only [room, if_true, ← enterCharging_via]
      rfl
    · simp [room]
  · dsimp only
    cases x.state <;> simp
@[simp] theorem probeComplete_via (a : SlotAddr) (l : List Byte) : probeComplete a l (s.via m p) = (probeComplete a l s).via m p := by
  unfold probeComplete
  rcases probeKind (field8 l 4) with - | k
  · simp
  · dsimp only
    rw [show ∀ id, otherSlotOf a id (s.via m p) = otherSlotOf a id s from fun _ => rfl]
    cases otherSlotOf a (BitVec.ofNat 32 (field32 l 0)) s <;> simp
@[simp] theorem storeLevel_via (a : SlotAddr) (n : Nat) : storeLevel a n (s.via m p) = (storeLevel a n s).via m p := by
  unfold storeLevel
  dsimp only [State.via_slots]
  cases s.slots[a].bind Slot.deviceId <;> simp
@[simp] theorem pollComplete_via (a : SlotAddr) (l : List Byte) : pollComplete a l (s.via m p) = (pollComplete a l s).via m p := by
  simp [pollComplete]
@[simp] theorem complete_via (e : Exchange) (l : List Byte) : complete e l (s.via m p) = (complete e l s).via m p := by
  cases e <;> simp [complete, setTimeouts]
@[simp] theorem freeBus_via : freeBus (s.via m p) = (freeBus s).via m p := rfl
@[simp] theorem probeAgain_via (e : Exchange) : probeAgain e (s.via m p) = (probeAgain e s).via m p := by
  cases e <;> simp [probeAgain]
@[simp] theorem slotTimeout_via (e : Exchange) (a : SlotAddr) : slotTimeout e a (s.via m p) = (slotTimeout e a s).via m p := by
  simp [slotTimeout, setTimeouts]
@[simp] theorem scanTimeout_via (r : RackId) : scanTimeout r (s.via m p) = (scanTimeout r s).via m p := by
  unfold scanTimeout
  dsimp only [State.via_racks]
  rcases s.racks[r] with - | w
  · rfl
  · dsimp only
    cases w.rackState
    · dsimp only
      rw [modRack_via, modRack_via, raise_via, forEach_via (fun _ _ _ _ => by simp)]
      simp
    · rfl
@[simp] theorem defineRack_via (r : RackId) (w : RackWindow) : defineRack r w (s.via m p) = (defineRack r w s).via m p := by
  unfold defineRack
  rw [setRack_via, forEach_via (fun _ _ _ _ => rfl), ask_via]
@[simp] theorem doomInFlight_via (r : RackId) : doomInFlight r (s.via m p) = (doomInFlight r s).via m p := rfl
@[simp] theorem removeRack_via (r : RackId) (w : RackWindow) : removeRack r w (s.via m p) = (removeRack r w s).via m p := by
  unfold removeRack
  simp only [modRack_via, discardWhere_via, doomInFlight_via]
  rw [forEach_via (fun _ _ _ _ => by simp), forEach_via (fun _ _ _ _ => rfl), setRack_via]
@[simp] theorem clearFault_via (a : SlotAddr) : clearFault a (s.via m p) = (clearFault a s).via m p := by
  unfold clearFault
  dsimp only [State.via_slots]
  rw [device?_via]
  cases (s.slots[a].bind Slot.deviceId).bind s.device? <;> simp

/-! ## The event unit's requests (10.3) -/

@[simp] theorem levelCondition_via (k : EventId) : levelCondition k (s.via m p) = levelCondition k s := rfl
@[simp] theorem clearKind_via (k : EventId) : clearKind k (s.via m p) = (clearKind k s).via m p := by
  unfold clearKind
  rw [levelCondition_via]
  simp
@[simp] theorem enableKind_via (k : EventId) : enableKind k (s.via m p) = (enableKind k s).via m p := by simp [enableKind]
@[simp] theorem disableKind_via (k : EventId) : disableKind k (s.via m p) = (disableKind k s).via m p := rfl

end Sys2Proof.Machine
end

