-- ==== Sys2Proof/Proofs/Owners.lean ====
section
/-! PROOF. The owners' work on the host requests, and the commands of the air, the blocks and the rack bus, commute with every change of
the link and of the waiting commands that LinkMaps.lean speaks of. -/

namespace Sys2Proof.Machine

variable (m : LinkMap) (p : List Instr) (s : State)

/-! ## The owners' work -/

/-- An owner's answer with the link and the waiting commands changed. -/
@[reducible] def Answer.via (m : LinkMap) (p : List Instr) (a : Answer) : Answer := (a.1.via m p, a.2)

@[simp] theorem refuse_via (r : Status) : refuse (s.via m p) r = Answer.via m p (refuse s r) := rfl
@[simp] theorem pair_via (r : Reply) : (s.via m p, r) = Answer.via m p (s, r) := rfl
@[simp] theorem ite_answer_via (c : Prop) [Decidable c] (a b : Answer) :
    (if c then Answer.via m p a else Answer.via m p b) = Answer.via m p (if c then a else b) := (apply_ite (Answer.via m p) c a b).symm

theorem takeIdentify_via (b : List Byte) : takeIdentify b (s.via m p) = Answer.via m p (takeIdentify b s) := by
  unfold takeIdentify
  rw [State.via_link, m.rate]
theorem takeSoftReset_via (b : List Byte) : takeSoftReset b (s.via m p) = Answer.via m p (takeSoftReset b s) := by
  exact congrArg (fun l => ((⟨l, _, _, _, _, _, _, _, _, _, _, _, _, _, _, _, p⟩ : State), Reply.okWith [])) (m.pending s.link).symm
theorem takeAirStart_via (b : List Byte) : takeAirStart b (s.via m p) = Answer.via m p (takeAirStart b s) := by
  unfold takeAirStart
  dsimp only
  split
  · rfl
  · split
    · rfl
    · have waiting := forEach_via (f := sourceWaiting) (fun _ _ _ _ => by simp) ((List.finRange 14).filter (startsWaiting s)) m p
      rw [show startsWaiting (s.via m p) = startsWaiting s from rfl]
      simp only [waiting { s with air := { s.air with running := true } }, startSuperframe_via]
      rfl
theorem takeAirStop_via (b : List Byte) : takeAirStop b (s.via m p) = Answer.via m p (takeAirStop b s) := by
  unfold takeAirStop
  dsimp only
  (repeat' split) <;> rfl
theorem takeAirStatus_via (b : List Byte) : takeAirStatus b (s.via m p) = Answer.via m p (takeAirStatus b s) := rfl
theorem takePoolStatus_via (b : List Byte) : takePoolStatus b (s.via m p) = Answer.via m p (takePoolStatus b s) := by
  unfold takePoolStatus
  dsimp only
  (repeat' split) <;> rfl
theorem takeSourceConfig_via (b : List Byte) : takeSourceConfig b (s.via m p) = Answer.via m p (takeSourceConfig b s) := by
  unfold takeSourceConfig
  cases toIndex 14 (field8 b 0) <;> simp
theorem takeSourceMode_via (b : List Byte) : takeSourceMode b (s.via m p) = Answer.via m p (takeSourceMode b s) := by
  unfold takeSourceMode
  rcases toIndex 14 (field8 b 0) with - | k
  · rfl
  · cases line : isLineSource k <;> simp [line]
theorem takeSourceMute_via (b : List Byte) : takeSourceMute b (s.via m p) = Answer.via m p (takeSourceMute b s) := by
  unfold takeSourceMute
  cases toIndex 14 (field8 b 0) <;> simp
theorem takeSourceStatus_via (b : List Byte) : takeSourceStatus b (s.via m p) = Answer.via m p (takeSourceStatus b s) := by
  unfold takeSourceStatus
  cases toIndex 14 (field8 b 0) <;> rfl
theorem takeSourceLolSet_via (b : List Byte) : takeSourceLolSet b (s.via m p) = Answer.via m p (takeSourceLolSet b s) := by
  unfold takeSourceLolSet
  cases toIndex 14 (field8 b 0) <;> simp
theorem takeChannelStage_via (b : List Byte) : takeChannelStage b (s.via m p) = Answer.via m p (takeChannelStage b s) := by
  unfold takeChannelStage
  cases toIndex 16 (field8 b 0) <;> cases planOf b <;> simp
theorem takeChannelApply_via (b : List Byte) : takeChannelApply b (s.via m p) = Answer.via m p (takeChannelApply b s) := by
  unfold takeChannelApply
  cases toIndex 16 (field8 b 0) <;> simp
theorem takeChannelClose_via (b : List Byte) : takeChannelClose b (s.via m p) = Answer.via m p (takeChannelClose b s) := by
  unfold takeChannelClose
  cases toIndex 16 (field8 b 0) <;> simp
theorem takeChannelStatus_via (b : List Byte) : takeChannelStatus b (s.via m p) = Answer.via m p (takeChannelStatus b s) := by
  unfold takeChannelStatus
  cases toIndex 16 (field8 b 0) <;> rfl
theorem takeNoticePost_via (b : List Byte) : takeNoticePost b (s.via m p) = Answer.via m p (takeNoticePost b s) := by
  unfold takeNoticePost
  rcases noticeClassOf (field8 b 0) with - | cls
  · rfl
  rcases noticeKindOf (field8 b 1) with - | kind
  · rfl
  rcases targetTypeOf (field8 b 2) with - | t
  · rfl
  have target : ∀ v, targetRefusal t v (s.via m p) = targetRefusal t v s := fun _ => rfl
  have retune : ∀ v, retuneRefusal kind t v (s.via m p) = retuneRefusal kind t v s := fun _ => rfl
  dsimp only
  rw [target, retune, lendNotice_via, show assignHandle (s.via m p) = assignHandle s from freeHandle_via m p s _ _]
  cases targetRefusal t (BitVec.ofNat 32 (field32 b 3)) s <;> cases retuneRefusal kind t (field8 b 7) s <;>
    cases lendNotice (cellsNeeded (field8 b 12)) s <;> simp
theorem takeNoticeCancel_via (b : List Byte) : takeNoticeCancel b (s.via m p) = Answer.via m p (takeNoticeCancel b s) := by
  unfold takeNoticeCancel
  rw [notice?_via]
  cases s.notice? (field16 b 0) <;> rfl
theorem takeNoticeStatus_via (b : List Byte) : takeNoticeStatus b (s.via m p) = Answer.via m p (takeNoticeStatus b s) := by
  unfold takeNoticeStatus
  rw [notice?_via]
  split
  · rfl
  · cases s.notice? (field16 b 0) <;> rfl
theorem takeSchedConfig_via (b : List Byte) : takeSchedConfig b (s.via m p) = Answer.via m p (takeSchedConfig b s) := by
  unfold takeSchedConfig
  dsimp only
  split <;> rfl
theorem takeRackDefine_via (b : List Byte) : takeRackDefine b (s.via m p) = Answer.via m p (takeRackDefine b s) := by
  unfold takeRackDefine
  rcases toIndex 8 (field8 b 0) with - | r
  · rfl
  · dsimp only
    rw [show overlaps (field8 b 1) (field8 b 2) (s.via m p) = overlaps (field8 b 1) (field8 b 2) s from rfl]
    simp
theorem takeRackRemove_via (b : List Byte) : takeRackRemove b (s.via m p) = Answer.via m p (takeRackRemove b s) := by
  unfold takeRackRemove
  rcases toIndex 8 (field8 b 0) with - | r
  · rfl
  · dsimp only
    cases s.racks[r] <;> simp
theorem takeRackBudget_via (b : List Byte) : takeRackBudget b (s.via m p) = Answer.via m p (takeRackBudget b s) := by
  unfold takeRackBudget
  rcases toIndex 8 (field8 b 0) with - | r
  · rfl
  · dsimp only
    rcases s.racks[r] with - | w
    · rfl
    · dsimp only
      rw [writeBudget_via]
      split <;> rfl
theorem takeChargeConfig_via (b : List Byte) : takeChargeConfig b (s.via m p) = Answer.via m p (takeChargeConfig b s) := by
  unfold takeChargeConfig
  dsimp only
  split
  · rfl
  · rw [definedRacks_via]
    have attempts := forEach_via (f := attempt) (fun _ _ _ _ => by simp) s.definedRacks m p
    generalize ChargeSettings.mk _ _ _ _ = c
    rw [attempts { s with charge := c }]
theorem takeSlotStatus_via (b : List Byte) : takeSlotStatus b (s.via m p) = Answer.via m p (takeSlotStatus b s) := by
  unfold takeSlotStatus
  rcases toIndex 256 (field8 b 0) with - | a
  · rfl
  · dsimp only
    rw [rackOf_via]
    rcases s.rackOf a with - | r
    · rfl
    · rcases s.slots[a] with - | x
      · rfl
      · dsimp only
        cases s.racks[r] <;> rfl
theorem takeSlotClearFault_via (b : List Byte) : takeSlotClearFault b (s.via m p) = Answer.via m p (takeSlotClearFault b s) := by
  unfold takeSlotClearFault
  rcases toIndex 256 (field8 b 0) with - | a
  · rfl
  · dsimp only
    cases s.slots[a] <;> simp
theorem takeDeviceRead_via (b : List Byte) : takeDeviceRead b (s.via m p) = Answer.via m p (takeDeviceRead b s) := by
  unfold takeDeviceRead
  rw [device?_via, show devicesById (s.via m p) = devicesById s from rfl]
  dsimp only
  generalize (if b.length = 4 then s.device? (BitVec.ofNat 32 (field32 b 0)) else (devicesById s)[field16 b 0]?) = found
  cases found <;> rfl
theorem takeDeviceForget_via (b : List Byte) : takeDeviceForget b (s.via m p) = Answer.via m p (takeDeviceForget b s) := by
  unfold takeDeviceForget
  rw [device?_via]
  rcases s.device? (BitVec.ofNat 32 (field32 b 0)) with - | d
  · rfl
  · dsimp only
    split <;> rfl
theorem takeGroupOpen_via (b : List Byte) : takeGroupOpen b (s.via m p) = Answer.via m p (takeGroupOpen b s) := by
  unfold takeGroupOpen
  cases toIndex 24 (field8 b 0) <;> cases toIndex 16 (field8 b 1) <;> simp
theorem takeGroupClose_via (b : List Byte) : takeGroupClose b (s.via m p) = Answer.via m p (takeGroupClose b s) := by
  unfold takeGroupClose
  cases toIndex 24 (field8 b 0) <;> simp
theorem takeGroupStatus_via (b : List Byte) : takeGroupStatus b (s.via m p) = Answer.via m p (takeGroupStatus b s) := by
  unfold takeGroupStatus
  cases toIndex 24 (field8 b 0) <;> rfl
theorem takeIssue_via (b : List Byte) : takeIssue b (s.via m p) = Answer.via m p (takeIssue b s) := by
  unfold takeIssue
  rw [show ∀ k, rosterConflict k (s.via m p) = rosterConflict k s from fun _ => rfl]
  cases toIndex 24 (field8 b 0) <;> simp
theorem takeIssueCancel_via (b : List Byte) : takeIssueCancel b (s.via m p) = Answer.via m p (takeIssueCancel b s) := by
  unfold takeIssueCancel
  rcases toIndex 24 (field8 b 0) with - | g
  · rfl
  · dsimp only
    rw [op?_via]
    cases s.op? g <;> rfl
theorem takeIssueStatus_via (b : List Byte) : takeIssueStatus b (s.via m p) = Answer.via m p (takeIssueStatus b s) := by
  unfold takeIssueStatus
  rcases toIndex 24 (field8 b 0) with - | g
  · rfl
  · dsimp only
    rw [op?_via]
    cases s.op? g <;> rfl
theorem takeEventRead_via (b : List Byte) : takeEventRead b (s.via m p) = Answer.via m p (takeEventRead b s) := by
  unfold takeEventRead
  split
  · rfl
  · cases toIndex 25 (field8 b 0) <;> rfl
theorem takeEventClear_via (b : List Byte) : takeEventClear b (s.via m p) = Answer.via m p (takeEventClear b s) := by
  unfold takeEventClear
  rcases namedKinds (field8 b 0) with - | ks
  · rfl
  · dsimp only
    rw [forEach_via (fun _ _ _ _ => by simp)]
    rfl
theorem takeEventSet_via (b : List Byte) : takeEventSet b (s.via m p) = Answer.via m p (takeEventSet b s) := by
  unfold takeEventSet
  cases toIndex 25 (field8 b 0) <;> simp
theorem takeEventEnable_via (b : List Byte) : takeEventEnable b (s.via m p) = Answer.via m p (takeEventEnable b s) := by
  unfold takeEventEnable
  rcases namedKinds (field8 b 0) with - | ks
  · rfl
  · dsimp only
    rw [forEach_via (fun _ _ _ _ => by simp)]
    rfl
theorem takeEventDisable_via (b : List Byte) : takeEventDisable b (s.via m p) = Answer.via m p (takeEventDisable b s) := by
  unfold takeEventDisable
  rcases namedKinds (field8 b 0) with - | ks
  · rfl
  · dsimp only
    rw [forEach_via (fun _ _ _ _ => rfl)]
    rfl

/-- Every owner's work commutes with a change of the link that offering a notice, reading the rate and setting reset-pending
commute with. -/
theorem take_via (k : RequestKind) (b : List Byte) : k.take b (s.via m p) = Answer.via m p (k.take b s) := by
  cases k
  case identify => exact takeIdentify_via m p s b
  case softReset => exact takeSoftReset_via m p s b
  case airStart => exact takeAirStart_via m p s b
  case airStop => exact takeAirStop_via m p s b
  case airStatus => exact takeAirStatus_via m p s b
  case sourceConfig => exact takeSourceConfig_via m p s b
  case sourceMode => exact takeSourceMode_via m p s b
  case sourceMute => exact takeSourceMute_via m p s b
  case sourceStatus => exact takeSourceStatus_via m p s b
  case sourceLolSet => exact takeSourceLolSet_via m p s b
  case channelStage => exact takeChannelStage_via m p s b
  case channelApply => exact takeChannelApply_via m p s b
  case channelClose => exact takeChannelClose_via m p s b
  case channelStatus => exact takeChannelStatus_via m p s b
  case noticePost => exact takeNoticePost_via m p s b
  case noticeCancel => exact takeNoticeCancel_via m p s b
  case noticeStatus => exact takeNoticeStatus_via m p s b
  case schedConfig => exact takeSchedConfig_via m p s b
  case poolStatus => exact takePoolStatus_via m p s b
  case rackDefine => exact takeRackDefine_via m p s b
  case rackRemove => exact takeRackRemove_via m p s b
  case rackBudget => exact takeRackBudget_via m p s b
  case chargeConfig => exact takeChargeConfig_via m p s b
  case slotStatus => exact takeSlotStatus_via m p s b
  case slotClearFault => exact takeSlotClearFault_via m p s b
  case deviceRead => exact takeDeviceRead_via m p s b
  case deviceForget => exact takeDeviceForget_via m p s b
  case groupOpen => exact takeGroupOpen_via m p s b
  case groupClose => exact takeGroupClose_via m p s b
  case groupStatus => exact takeGroupStatus_via m p s b
  case issue => exact takeIssue_via m p s b
  case issueCancel => exact takeIssueCancel_via m p s b
  case issueStatus => exact takeIssueStatus_via m p s b
  case eventRead => exact takeEventRead_via m p s b
  case eventClear => exact takeEventClear_via m p s b
  case eventSet => exact takeEventSet_via m p s b
  case eventEnable => exact takeEventEnable_via m p s b
  case eventDisable => exact takeEventDisable_via m p s b

theorem judged_via (k : RequestKind) (b : List Byte) :
    judged k.lengthOk k.take b (s.via m p) = Answer.via m p (judged k.lengthOk k.take b s) := by
  unfold judged
  rw [take_via, refuse_via, ite_answer_via]

end Sys2Proof.Machine
end

