-- ==== Sys2Proof/Proofs/Commands.lean ====
section
/-! PROOF. The commands sorted by where they act: host requests, commands of the link itself, and commands of the blocks. A block's
command commutes with every change of the link that LinkMaps.lean speaks of, so it answers, leaves the queue of waiting commands alone
and keeps what every such change keeps. -/

namespace Sys2Proof.Machine

/-! ## Sorting the commands -/

/-- The command that a host request of this kind is. -/
def RequestKind.command : RequestKind → Byte → List Byte → Instr
  | .identify => .identify
  | .softReset => .softReset
  | .airStart => .airStart
  | .airStop => .airStop
  | .airStatus => .airStatus
  | .sourceConfig => .sourceConfig
  | .sourceMode => .sourceMode
  | .sourceMute => .sourceMute
  | .sourceStatus => .sourceStatus
  | .sourceLolSet => .sourceLolSet
  | .channelStage => .channelStage
  | .channelApply => .channelApply
  | .channelClose => .channelClose
  | .channelStatus => .channelStatus
  | .noticePost => .noticePost
  | .noticeCancel => .noticeCancel
  | .noticeStatus => .noticeStatus
  | .schedConfig => .schedConfig
  | .poolStatus => .poolStatus
  | .rackDefine => .rackDefine
  | .rackRemove => .rackRemove
  | .rackBudget => .rackBudget
  | .chargeConfig => .chargeConfig
  | .slotStatus => .slotStatus
  | .slotClearFault => .slotClearFault
  | .deviceRead => .deviceRead
  | .deviceForget => .deviceForget
  | .groupOpen => .groupOpen
  | .groupClose => .groupClose
  | .groupStatus => .groupStatus
  | .issue => .issue
  | .issueCancel => .issueCancel
  | .issueStatus => .issueStatus
  | .eventRead => .eventRead
  | .eventClear => .eventClear
  | .eventSet => .eventSet
  | .eventEnable => .eventEnable
  | .eventDisable => .eventDisable

/-- A host request's command is its kind submitted with its lengths and its owner's work (R9). -/
theorem exec_command (k : RequestKind) (tag : Byte) (body : List Byte) (s : State) :
    exec (k.command tag body) s = .next (submit k.code k.lengthOk k.take tag body s) := by cases k <;> rfl

/-- The table of the claims lists the kinds with their codes, commands and lengths. -/
theorem requestTable_eq : requestTable = allRequestKinds.map (fun k => (k.code, k.command, k.lengthOk)) := rfl

theorem mem_requestTable {q : Byte × (Byte → List Byte → Instr) × (List Byte → Bool)} (h : q ∈ requestTable) :
    ∃ k : RequestKind, q = (k.code, k.command, k.lengthOk) := by
  rw [requestTable_eq, List.mem_map] at h
  obtain ⟨k, -, rfl⟩ := h
  exact ⟨k, rfl⟩

/-- The kind that a code names is the one with that code (R9). -/
theorem requestKindOf_code (k : RequestKind) : requestKindOf k.code = some k := by cases k <;> decide

/-- A command's meaning answers a next state in every state, and commutes with every change of the link that the blocks do not notice
and of the waiting commands. -/
def Commutes (e : State → Host.Outcome State Fault Refusal) : Prop :=
  ∀ s, ∃ t, e s = .next t ∧ ∀ (m : LinkMap) (p : List Instr), e (s.via m p) = .next (t.via m p)

theorem commutes_of_passes {w : State → State} (h : Passes w) : Commutes (fun s => .next (w s)) :=
  fun s => ⟨w s, rfl, fun m p => congrArg _ (h m p s)⟩

/-- A command that does its work where a test holds, and nothing elsewhere, the test not being about the link. -/
theorem commutes_guarded {c : State → Prop} [DecidablePred c] {w : State → State} (hc : ∀ m p s, c (s.via m p) ↔ c s)
    (hw : Passes w) : Commutes (fun s => if c s then .next (w s) else .next s) := by
  intro s
  by_cases h : c s
  · exact ⟨w s, if_pos h, fun m p => by simp only [hc, h, if_true, hw m p s]⟩
  · exact ⟨s, if_neg h, fun m p => by simp only [hc, h, if_false]⟩

/-! ## The commands of the blocks -/

theorem superframeStart_commutes : Commutes execSuperframeStart :=
  commutes_of_passes (fun _ _ _ => by simp)
theorem downlinkSlot_commutes (k : Fin 24) : Commutes (execDownlinkSlot k) :=
  commutes_guarded (fun _ _ _ => Iff.rfl) (fun _ _ _ => rfl)
theorem uplinkBlockDelivery_commutes (k : RosterId) (l : List Byte) (g : Bool) : Commutes (execUplinkBlockDelivery k l g) := by
  refine commutes_guarded (fun _ _ _ => Iff.rfl) (fun m p s => ?_)
  cases parseUplink l with
  | none => rfl
  | some b => exact takeUplinkBlock_via m p { s with air := { s.air with due := 25 + k.val } } k b g
theorem lineBlockDelivery_commutes (l : Fin 2) (v : Vector Sample 160) : Commutes (execLineBlockDelivery l v) :=
  commutes_guarded (fun _ _ _ => Iff.rfl) (fun m p s => arrival_via m p (takeLine l s) _ _ _)
theorem outputMark_commutes (order : List SourceId) : Commutes (execOutputMark order) :=
  commutes_guarded (fun _ _ _ => Iff.rfl) (fun m p s =>
    forEach_via (fun _ _ _ _ => by simp) _ m p { s with air := { s.air with due := outputPoint + 1 } })
theorem reviewMark_commutes (order : List ChannelId) : Commutes (execReviewMark order) :=
  commutes_guarded (fun _ _ _ => Iff.rfl) (fun m p s =>
    forEach_via (fun _ _ _ _ => by simp) _ m p { s with air := { s.air with due := reviewPoint + 1 } })
theorem buildMark_commutes (order : List ChannelId) : Commutes (execBuildMark order) :=
  commutes_guarded (fun _ _ _ => Iff.rfl) (fun _ _ _ => by simp)
theorem readyLineFall_commutes (order : List ChannelId) : Commutes (execReadyLineFall order) := by
  refine commutes_of_passes (fun m p s => ?_)
  rw [apply_ite (State.via m p), ← raise_via, ← stopAir_via]
theorem readyLineRise_commutes : Commutes execReadyLineRise := commutes_of_passes (fun _ _ _ => rfl)
theorem exchangeStart_commutes : Commutes execExchangeStart := by
  intro s
  unfold execExchangeStart
  have next (m : LinkMap) (p : List Instr) : nextExchange (s.via m p) = nextExchange s := rfl
  simp only [next]
  cases s.bus.inFlight <;> cases nextExchange s <;> exact ⟨_, rfl, fun _ _ => rfl⟩
theorem exchangeAnswer_commutes (l : List Byte) : Commutes (execExchangeAnswer l) := by
  intro s
  unfold execExchangeAnswer
  dsimp only
  rcases s.bus.inFlight with - | x
  · exact ⟨_, rfl, fun _ _ => rfl⟩
  · dsimp only
    cases x.answer <;> cases goodAnswer x l <;> exact ⟨_, rfl, fun _ _ => rfl⟩
theorem exchangeComplete_commutes : Commutes execExchangeComplete := by
  intro s
  unfold execExchangeComplete
  dsimp only
  rcases s.bus.inFlight with - | x
  · exact ⟨_, rfl, fun _ _ => rfl⟩
  · dsimp only
    cases x.answer <;> exact ⟨_, rfl, fun _ _ => by simp⟩
theorem exchangeTimeout_commutes : Commutes execExchangeTimeout := by
  intro s
  unfold execExchangeTimeout
  dsimp only
  rcases s.bus.inFlight with - | x
  · exact ⟨_, rfl, fun _ _ => rfl⟩
  · dsimp only
    split
    · exact ⟨_, rfl, fun _ _ => rfl⟩
    · split
      · exact ⟨_, rfl, fun _ _ => by simp⟩
      · cases x.exchange <;> exact ⟨_, rfl, fun _ _ => by simp [Exchange.slot?]⟩
theorem scanTimerExpiry_commutes (r : RackId) : Commutes (execScanTimerExpiry r) := by
  intro s
  unfold execScanTimerExpiry
  dsimp only
  cases s.racks[r] <;> exact ⟨_, rfl, fun _ _ => by simp⟩
theorem attentionFall_commutes : Commutes execAttentionFall := commutes_of_passes (fun _ _ _ => by simp)
theorem pollTimerExpiry_commutes (a : SlotAddr) : Commutes (execPollTimerExpiry a) := by
  intro s
  unfold execPollTimerExpiry
  dsimp only
  rcases s.slots[a] with - | x
  · exact ⟨_, rfl, fun _ _ => rfl⟩
  · dsimp only
    split
    · exact ⟨_, rfl, fun _ _ => rfl⟩
    · exact ⟨_, rfl, fun _ _ => by simp⟩

/-! ## Every command has its place -/

/-- Where a command acts: a host request, a command of the link itself, or a command of the blocks. -/
inductive Placed : Instr → Prop
  | request (k : RequestKind) (tag : Byte) (body : List Byte) : Placed (k.command tag body)
  | hardReset (rate1 rate0 ready : Bool) : Placed (.hardReset rate1 rate0 ready)
  | frameReceive (chars : List RxChar) : Placed (.frameReceive chars)
  | gapExpiry : Placed .gapExpiry
  | requestService : Placed .requestService
  | frameTransmitted : Placed .frameTransmitted
  | softResetPerform : Placed .softResetPerform
  | block {c : Instr} (h : Commutes (exec c)) : Placed c

theorem placed (c : Instr) : Placed c := by
  cases c
  case hardReset => exact .hardReset _ _ _
  case frameReceive => exact .frameReceive _
  case gapExpiry => exact .gapExpiry
  case requestService => exact .requestService
  case frameTransmitted => exact .frameTransmitted
  case softResetPerform => exact .softResetPerform
  case identify => exact .request .identify _ _
  case softReset => exact .request .softReset _ _
  case airStart => exact .request .airStart _ _
  case airStop => exact .request .airStop _ _
  case airStatus => exact .request .airStatus _ _
  case poolStatus => exact .request .poolStatus _ _
  case sourceConfig => exact .request .sourceConfig _ _
  case sourceMode => exact .request .sourceMode _ _
  case sourceMute => exact .request .sourceMute _ _
  case sourceStatus => exact .request .sourceStatus _ _
  case sourceLolSet => exact .request .sourceLolSet _ _
  case channelStage => exact .request .channelStage _ _
  case channelApply => exact .request .channelApply _ _
  case channelClose => exact .request .channelClose _ _
  case channelStatus => exact .request .channelStatus _ _
  case noticePost => exact .request .noticePost _ _
  case noticeCancel => exact .request .noticeCancel _ _
  case noticeStatus => exact .request .noticeStatus _ _
  case schedConfig => exact .request .schedConfig _ _
  case rackDefine => exact .request .rackDefine _ _
  case rackRemove => exact .request .rackRemove _ _
  case slotStatus => exact .request .slotStatus _ _
  case slotClearFault => exact .request .slotClearFault _ _
  case rackBudget => exact .request .rackBudget _ _
  case chargeConfig => exact .request .chargeConfig _ _
  case deviceRead => exact .request .deviceRead _ _
  case deviceForget => exact .request .deviceForget _ _
  case groupOpen => exact .request .groupOpen _ _
  case groupClose => exact .request .groupClose _ _
  case groupStatus => exact .request .groupStatus _ _
  case issue => exact .request .issue _ _
  case issueCancel => exact .request .issueCancel _ _
  case issueStatus => exact .request .issueStatus _ _
  case eventRead => exact .request .eventRead _ _
  case eventClear => exact .request .eventClear _ _
  case eventSet => exact .request .eventSet _ _
  case eventEnable => exact .request .eventEnable _ _
  case eventDisable => exact .request .eventDisable _ _
  case superframeStart => exact .block superframeStart_commutes
  case downlinkSlot => exact .block (downlinkSlot_commutes _)
  case uplinkBlockDelivery => exact .block (uplinkBlockDelivery_commutes _ _ _)
  case lineBlockDelivery => exact .block (lineBlockDelivery_commutes _ _)
  case outputMark => exact .block (outputMark_commutes _)
  case reviewMark => exact .block (reviewMark_commutes _)
  case buildMark => exact .block (buildMark_commutes _)
  case readyLineFall => exact .block (readyLineFall_commutes _)
  case readyLineRise => exact .block readyLineRise_commutes
  case exchangeStart => exact .block exchangeStart_commutes
  case exchangeAnswer => exact .block (exchangeAnswer_commutes _)
  case exchangeComplete => exact .block exchangeComplete_commutes
  case exchangeTimeout => exact .block exchangeTimeout_commutes
  case scanTimerExpiry => exact .block (scanTimerExpiry_commutes _)
  case attentionFall => exact .block attentionFall_commutes
  case pollTimerExpiry => exact .block (pollTimerExpiry_commutes _)

end Sys2Proof.Machine
end

