-- ==== Sys2Proof/Proofs/Link.lean ====
section
/-! PROOF. The link controller at every step: the changes of the link that the blocks do not notice and what each of them says, the
service of a request, the receiver, and the claims that every command answers and that every step keeps the link's bounds. -/

namespace Sys2Proof.Machine

/-! ## Four changes of the link -/

/-- No change. -/
def LinkMap.same : LinkMap :=
  { map := id, offered := fun _ _ => rfl, rate := fun _ => rfl, pending := fun _ => rfl }

/-- The request queue replaced. -/
def LinkMap.requests (r : List Frame) : LinkMap :=
  { map := fun l => { l with requests := r }
    offered := fun f l => by unfold Link.offered; split <;> rfl
    rate := fun _ => rfl
    pending := fun _ => rfl }

/-- The reserved entry filled with a reply. -/
def LinkMap.filling (f : Frame) : LinkMap :=
  { map := fun l => { l with outbound := fillReserved f l.outbound }
    offered := fun g l => by
      simp only [Link.offered, fillReserved_length]
      split
      · rw [fillReserved_frame]
      · rfl
    rate := fun _ => rfl
    pending := fun _ => rfl }

/-- An entry with a frame in the place of a reservation. -/
def OutEntry.settled : OutEntry → OutEntry
  | .reserved => .frame { kind := 0, tag := 0, body := [] }
  | .frame f => .frame f

theorem OutEntry.settled_ne_reserved (e : OutEntry) : e.settled ≠ .reserved := by cases e <;> simp [settled]

theorem settled_of_no_reserved (l : List OutEntry) (h : OutEntry.reserved ∉ l) : l.map OutEntry.settled = l := by
  refine (List.map_congr_left (g := id) (fun e he => ?_)).trans (List.map_id l)
  cases e with
  | frame f => rfl
  | reserved => exact absurd he h

/-- The receiver's part and the request queue as they are in l0; the outbound queue cut at 32 entries and with no reservation. -/
def LinkMap.confined (l0 : Link) : LinkMap :=
  { map := fun l => { l with rx := l0.rx, under := l0.under, gapTimer := l0.gapTimer, requests := l0.requests,
                             outbound := (l.outbound.take 32).map OutEntry.settled }
    offered := fun f l => by
      unfold Link.offered
      by_cases h : l.resetPending = false ∧ l.outbound.length < 24
      · rw [if_pos h, if_pos (by simp; omega), List.take_of_length_le (by simp; omega), List.take_of_length_le (by omega)]
        simp [OutEntry.settled]
      · have few : ((l.outbound.take 32).map OutEntry.settled).length < 24 → l.outbound.length < 24 := by simp
        rw [if_neg h, if_neg (fun h' => h ⟨h'.1, few h'.2⟩)]
    rate := fun _ => rfl
    pending := fun _ => rfl }

/-- A sound link stays as it is when it is confined to itself. -/
theorem confined_of_sound {l : Link} (h : LinkSound l) : (LinkMap.confined l).map l = l := by
  obtain ⟨-, room, filled, -, -⟩ := h
  simp only [LinkMap.confined, List.take_of_length_le room, settled_of_no_reserved _ filled]

/-- A link that confinement to a sound link leaves unchanged is sound. -/
theorem sound_of_confined {l0 l : Link} (h0 : LinkSound l0) (h : (LinkMap.confined l0).map l = l) : LinkSound l := by
  obtain ⟨req, -, -, under, gap⟩ := h0
  rw [← h]
  refine ⟨req, ?_, ?_, under, gap⟩
  · simp [LinkMap.confined]
  · simp only [LinkMap.confined, List.mem_map, not_exists, not_and]
    exact fun e _ => e.settled_ne_reserved

/-! ## What follows for work that commutes -/

/-- Work that commutes leaves the waiting commands alone. -/
theorem pending_of_passes {w : State → State} (h : Passes w) (s : State) : (w s).pending = s.pending := by
  rw [show w s = (w s).via .same s.pending from h .same s.pending s]

/-- Work that commutes keeps a sound link sound. -/
theorem sound_of_passes {w : State → State} (h : Passes w) {s : State} (hs : LinkSound s.link) : LinkSound (w s).link := by
  have fixed : s.via (.confined s.link) s.pending = s := by simp only [State.via, confined_of_sound hs]
  have commuted := h (.confined s.link) s.pending s
  rw [fixed] at commuted
  exact sound_of_confined hs (congrArg State.link commuted).symm

/-- An owner's work that commutes, as work on the state alone. -/
def Owns (own : State → Answer) : Prop := ∀ (m : LinkMap) (p : List Instr) (s : State), own (s.via m p) = Answer.via m p (own s)

theorem passes_of_owns {own : State → Answer} (h : Owns own) : Passes (fun s => (own s).1) :=
  fun m p s => congrArg Prod.fst (h m p s)

theorem owns_judged (k : RequestKind) (body : List Byte) : Owns (judged k.lengthOk k.take body) :=
  fun m p s => judged_via m p s k body

theorem owns_answerFrame (f : Frame) : Owns (answerFrame f) := by
  intro m p s
  unfold answerFrame
  cases requestKindOf f.kind with
  | none => rfl
  | some k => exact judged_via m p s k f.body

/-- A service is the owner's work behind its reply: filling the reserved entry commutes with it (R9). -/
theorem serveWith_behind_reply {own : State → Answer} (h : Owns own) (kind tag : Byte) (s : State)
    (hs : OutEntry.reserved ∉ s.link.outbound) (r : Reply) (hr : (own (s.addOutbound .reserved)).2 = r) :
    serveWith kind tag own s = (own (replied kind tag r.status.code r.fields s)).1 := by
  have kept : (own (s.addOutbound .reserved)).1.pending = s.pending := pending_of_passes (passes_of_owns h) _
  rw [← filled_reserved _ _ _ _ hs, serveWith_eq, hr]
  have commuted := congrArg Prod.fst (h (.filling (replyFrame kind tag r)) s.pending (s.addOutbound .reserved))
  rw [← show filled (replyFrame kind tag r) (s.addOutbound .reserved) =
    (s.addOutbound .reserved).via (.filling (replyFrame kind tag r)) s.pending from rfl] at commuted
  rw [commuted]
  simp only [filled, State.via, ← kept]
  rfl

/-- A service leaves the waiting commands alone. -/
theorem serveWith_pending {own : State → Answer} (h : Owns own) (kind tag : Byte) (s : State) :
    (serveWith kind tag own s).pending = s.pending := pending_of_passes (passes_of_owns h) (s.addOutbound .reserved)

/-- A reply that finds room leaves the link sound. -/
theorem replied_sound {s : State} (hs : LinkSound s.link) (room : s.link.outbound.length < 32) (kind tag status : Byte)
    (fields : List Byte) : LinkSound (replied kind tag status fields s).link := by
  obtain ⟨req, -, free, under, gap⟩ := hs
  exact ⟨req, by simp [replied]; omega, by simp [replied, free], under, gap⟩

/-- A service below 28 entries keeps the link sound. -/
theorem serveWith_sound {own : State → Answer} (h : Owns own) (kind tag : Byte) {s : State} (hs : LinkSound s.link)
    (room : s.link.outbound.length < 28) : LinkSound (serveWith kind tag own s).link := by
  rw [serveWith_behind_reply h kind tag s hs.2.2.1 _ rfl]
  exact sound_of_passes (passes_of_owns h) (replied_sound hs (by omega) _ _ _ _)

/-! ## A good frame's place -/

theorem busy_eq_replied (f : Frame) (s : State) :
    s.addOutbound (.frame (replyFrame f.kind f.tag (.bare .busy))) = replied f.kind f.tag 0x02 [] s := rfl

/-- The four places of a good frame, in the terms of the claims (R8, R15). -/
theorem placeGoodFrame_pending_reset (f : Frame) (s : State) (h : s.link.resetPending = true) : placeGoodFrame f s = s := by
  simp [placeGoodFrame, h]
theorem placeGoodFrame_queued (f : Frame) (s : State) (h : s.link.resetPending = false) (hr : s.link.requests.length < 4) :
    placeGoodFrame f s = { s with link := { s.link with requests := s.link.requests ++ [f] } } := by
  simp [placeGoodFrame, h, requestCapacity, hr]
theorem placeGoodFrame_busy (f : Frame) (s : State) (h : s.link.resetPending = false) (hr : 4 ≤ s.link.requests.length)
    (ho : s.link.outbound.length < 32) : placeGoodFrame f s = replied f.kind f.tag 0x02 [] s := by
  simp [placeGoodFrame, h, requestCapacity, Nat.not_lt.mpr hr, State.occupancy, busyThreshold, ho, busy_eq_replied]
theorem placeGoodFrame_overflow (f : Frame) (s : State) (h : s.link.resetPending = false) (hr : 4 ≤ s.link.requests.length)
    (ho : 32 ≤ s.link.outbound.length) : placeGoodFrame f s = raise .linkFrameBad 0 5 s := by
  simp [placeGoodFrame, h, requestCapacity, Nat.not_lt.mpr hr, State.occupancy, busyThreshold, Nat.not_lt.mpr ho]

/-- What a good frame can do to the state. -/
theorem placeGoodFrame_cases (f : Frame) (s : State) :
    placeGoodFrame f s = s ∨
      (s.link.requests.length < 4 ∧ placeGoodFrame f s = { s with link := { s.link with requests := s.link.requests ++ [f] } }) ∨
      (s.link.outbound.length < 32 ∧ placeGoodFrame f s = replied f.kind f.tag 0x02 [] s) ∨
      placeGoodFrame f s = raise .linkFrameBad 0 5 s := by
  rcases Bool.eq_false_or_eq_true s.link.resetPending with h | h
  · exact .inl (placeGoodFrame_pending_reset f s h)
  · rcases Nat.lt_or_ge s.link.requests.length 4 with hr | hr
    · exact .inr (.inl ⟨hr, placeGoodFrame_queued f s h hr⟩)
    · rcases Nat.lt_or_ge s.link.outbound.length 32 with ho | ho
      · exact .inr (.inr (.inl ⟨ho, placeGoodFrame_busy f s h hr ho⟩))
      · exact .inr (.inr (.inr (placeGoodFrame_overflow f s h hr ho)))

theorem placeGoodFrame_pending (f : Frame) (s : State) : (placeGoodFrame f s).pending = s.pending := by
  rcases placeGoodFrame_cases f s with h | ⟨-, h⟩ | ⟨-, h⟩ | h <;> rw [h]
  · rfl
  · exact raise_pending _ _ _ s

theorem placeGoodFrame_sound (f : Frame) {s : State} (hs : LinkSound s.link) : LinkSound (placeGoodFrame f s).link := by
  rcases placeGoodFrame_cases f s with h | ⟨room, h⟩ | ⟨room, h⟩ | h <;> rw [h]
  · exact hs
  · obtain ⟨-, hs⟩ := hs
    exact ⟨by simp; omega, hs⟩
  · exact replied_sound hs room _ _ _ _
  · exact sound_of_passes (fun m p s => raise_via m p s _ _ _) hs

/-! ## The receiver -/

/-- What one character can make of a state: nothing, a step of the receiver, the place of a good frame, or a discard (R2 to R6). -/
inductive Received (s : State) : State → Prop
  | ignored : Received s s
  | hunting : Received s { s with link := s.link.hunting }
  | receiving (rx : RxState) (u : FrameUnderReception) (h : rx ≠ .hunt) : Received s { s with link := s.link.receiving rx u }
  | good (f : Frame) : Received s (placeGoodFrame f { s with link := s.link.hunting })
  | bad (cause : Nat) : Received s (discardFrame cause s)

theorem rxLength_received (u : FrameUnderReception) (b : Byte) (s : State) : Received s (rxLength u b s) := by
  unfold rxLength
  cases u.lengthLow with
  | none => exact .receiving _ _ (by decide)
  | some lo =>
    dsimp only
    split
    · exact .bad 3
    · exact .receiving _ _ (by decide)

theorem rxBody_received (u : FrameUnderReception) (b : Byte) (s : State) : Received s (rxBody u b s) := by
  unfold rxBody
  rcases u.kind with - | k <;> rcases u.tag with - | t
  · exact .receiving _ _ (by decide)
  · exact .receiving _ _ (by decide)
  · exact .receiving _ _ (by split <;> decide)
  · exact .receiving _ _ (by split <;> decide)

theorem rxCheck_received (u : FrameUnderReception) (b : Byte) (s : State) : Received s (rxCheck u b s) := by
  unfold rxCheck
  cases u.checkLow with
  | none => exact .receiving _ _ (by decide)
  | some lo =>
    dsimp only
    split
    · exact .good _
    · exact .bad 1

theorem receiveChar_received (c : RxChar) (s : State) : Received s (receiveChar c s) := by
  unfold receiveChar
  cases s.link.rx <;> cases s.link.under <;> dsimp only
  case hunt.none | hunt.some =>
    split
    · exact .receiving _ _ (by decide)
    · exact .ignored
  case length.none | body.none | check.none => exact .hunting
  all_goals split
  case length.some.isTrue | body.some.isTrue | check.some.isTrue => exact .bad 4
  case length.some.isFalse => exact rxLength_received _ _ s
  case body.some.isFalse => exact rxBody_received _ _ s
  case check.some.isFalse => exact rxCheck_received _ _ s

theorem received_pending {s t : State} (h : Received s t) : t.pending = s.pending := by
  cases h with
  | ignored | hunting | receiving => rfl
  | good f => exact placeGoodFrame_pending f _
  | bad d => exact raise_pending _ _ _ _

theorem hunting_sound {l : Link} (h : LinkSound l) : LinkSound l.hunting := by
  obtain ⟨req, room, free, -, -⟩ := h
  exact ⟨req, room, free, by simp [Link.hunting], by simp [Link.hunting]⟩

theorem receiving_sound {l : Link} (h : LinkSound l) {rx : RxState} (hr : rx ≠ .hunt) (u : FrameUnderReception) :
    LinkSound (l.receiving rx u) := by
  obtain ⟨req, room, free, -, -⟩ := h
  exact ⟨req, room, free, by simp [Link.receiving, hr], by simp [Link.receiving, hr]⟩

theorem discardFrame_sound (d : Nat) {s : State} (hs : LinkSound s.link) : LinkSound (discardFrame d s).link :=
  sound_of_passes (fun m p s => raise_via m p s _ _ _) (s := { s with link := s.link.hunting }) (hunting_sound hs)

theorem received_sound {s t : State} (h : Received s t) (hs : LinkSound s.link) : LinkSound t.link := by
  cases h with
  | ignored => exact hs
  | hunting => exact hunting_sound hs
  | receiving rx u hr => exact receiving_sound hs hr u
  | good f => exact placeGoodFrame_sound f (s := { s with link := s.link.hunting }) (hunting_sound hs)
  | bad d => exact discardFrame_sound d hs

/-! ## The service, and the two ways of a request -/

/-- The conditions of service, in the terms of the claims (R9). -/
theorem canServe_iff (s : State) : canServe s = true ↔ s.link.outbound.length < 28 ∧ s.link.resetPending = false := by
  rw [canServe, Bool.and_eq_true, decide_eq_true_iff, Bool.not_eq_true']
  rfl

/-- What a submitted request can do: it is served at once, below 28 entries, or its frame takes its place (R8, R9). -/
theorem submit_cases (k : RequestKind) (tag : Byte) (body : List Byte) (s : State) :
    (s.link.requests = [] ∧ s.link.outbound.length < 28 ∧ s.link.resetPending = false ∧
        submit k.code k.lengthOk k.take tag body s = serveWith k.code tag (judged k.lengthOk k.take body) s) ∨
      (¬(s.link.requests = [] ∧ s.link.outbound.length < 28 ∧ s.link.resetPending = false) ∧
        submit k.code k.lengthOk k.take tag body s = placeGoodFrame { kind := k.code, tag := tag, body := body } s) := by
  unfold submit
  by_cases h : s.link.requests = [] ∧ s.link.outbound.length < 28 ∧ s.link.resetPending = false
  · obtain ⟨empty, open_⟩ := h
    exact .inl ⟨empty, open_.1, open_.2, if_pos ⟨empty, (canServe_iff s).mpr open_⟩⟩
  · exact .inr ⟨h, if_neg (fun h' => h ⟨h'.1, (canServe_iff s).mp h'.2⟩)⟩

/-- The head request waits at 28 entries or with a reset pending (R9). -/
theorem requestService_waits (s : State) (h : 28 ≤ s.link.outbound.length ∨ s.link.resetPending = true) :
    exec .requestService s = .next s := by
  have closed : ¬canServe s = true := by
    rw [canServe_iff]
    rintro ⟨room, free⟩
    rcases h with full | pending
    · omega
    · simp [free] at pending
  change execRequestService s = _
  unfold execRequestService
  cases s.link.requests with
  | nil => rfl
  | cons f rest => exact if_neg closed

/-- The state with another request queue. -/
def State.withRequests (r : List Frame) (s : State) : State := { s with link := { s.link with requests := r } }

/-- The head request is served by what its frame asks for, and leaves the queue (R9). -/
theorem requestService_serves (f : Frame) (rest : List Frame) (s : State) (hq : s.link.requests = f :: rest)
    (room : s.link.outbound.length < 28) (free : s.link.resetPending = false) :
    exec .requestService s = .next ((serveWith f.kind f.tag (answerFrame f) s).withRequests rest) := by
  change execRequestService s = _
  unfold execRequestService
  rw [hq]
  exact if_pos ((canServe_iff s).mpr ⟨room, free⟩)

/-- The service of the head: nothing, or one service below 28 entries. -/
theorem requestService_cases (s : State) :
    exec .requestService s = .next s ∨
      ∃ f rest, s.link.requests = f :: rest ∧ s.link.outbound.length < 28 ∧
        exec .requestService s = .next ((serveWith f.kind f.tag (answerFrame f) s).withRequests rest) := by
  by_cases wait : 28 ≤ s.link.outbound.length ∨ s.link.resetPending = true
  · exact .inl (requestService_waits s wait)
  · have room : s.link.outbound.length < 28 := by omega
    have free : s.link.resetPending = false := by simpa using fun h => wait (.inr h)
    cases hq : s.link.requests with
    | nil => exact .inl (by change execRequestService s = _; unfold execRequestService; rw [hq])
    | cons f rest => exact .inr ⟨f, rest, rfl, room, requestService_serves f rest s hq room free⟩

/-! ## The soft reset -/

theorem scanAll_link (s : State) : (scanAll s).link = s.link :=
  show (scanAll s).offRacks.link = s.offRacks.link by rw [scanAll_offRacks]
theorem scanAll_pending (s : State) : (scanAll s).pending = s.pending :=
  show (scanAll s).offRacks.pending = s.offRacks.pending by rw [scanAll_offRacks]
theorem softReset_link (s : State) : (softReset s).link = s.link.softReset := scanAll_link _
theorem softReset_pending (s : State) : (softReset s).pending = s.pending := scanAll_pending _

theorem softReset_sound (s : State) : LinkSound (softReset s).link := by
  rw [softReset_link]
  exact ⟨by simp [Link.softReset], by simp [Link.softReset], by simp [Link.softReset], by simp [Link.softReset],
    by simp [Link.softReset]⟩

theorem hardReset_sound (rate : LineRate) (ready : Bool) : LinkSound (State.hardReset rate ready).link := by
  simp [LinkSound, State.hardReset]

/-! ## Every command answers, and every step keeps the link's bounds -/

/-- Settles O2: a block's command and an owner's work commute with every change of the waiting commands, so they leave them alone. -/
theorem everyCommandAnswersAndKeepsQueue : Obligations.EveryCommandAnswersAndKeepsQueue := by
  intro c s
  cases placed c with
  | request k tag body =>
    refine ⟨_, exec_command k tag body s, ?_⟩
    rcases submit_cases k tag body s with ⟨-, -, -, h⟩ | ⟨-, h⟩ <;> rw [h]
    · exact serveWith_pending (owns_judged k body) _ _ s
    · exact placeGoodFrame_pending _ s
  | hardReset => exact ⟨_, rfl, rfl⟩
  | frameReceive chars =>
    exact ⟨_, rfl, forEach_same State.pending _ (fun c s => received_pending (receiveChar_received c s)) chars s⟩
  | gapExpiry =>
    refine ⟨_, rfl, ?_⟩
    split
    · exact received_pending (.bad 2)
    · rfl
  | requestService =>
    rcases requestService_cases s with h | ⟨f, rest, -, -, h⟩
    · exact ⟨s, h, rfl⟩
    · exact ⟨_, h, serveWith_pending (owns_answerFrame f) f.kind f.tag s⟩
  | frameTransmitted =>
    change ∃ t, execFrameTransmitted s = .next t ∧ _
    unfold execFrameTransmitted
    split <;> exact ⟨_, rfl, rfl⟩
  | softResetPerform =>
    refine ⟨_, rfl, ?_⟩
    split
    · exact softReset_pending s
    · rfl
  | block commutes =>
    obtain ⟨t, ht, hv⟩ := commutes s
    refine ⟨t, ht, ?_⟩
    have again := hv .same s.pending
    rw [show s.via .same s.pending = s from rfl, ht] at again
    injection again with again
    rw [again]

/-- A command keeps a sound link sound. -/
theorem exec_sound (c : Instr) {s t : State} (hs : LinkSound s.link) (h : exec c s = .next t) : LinkSound t.link := by
  cases placed c with
  | request k tag body =>
    rw [exec_command] at h
    injection h with h
    subst h
    rcases submit_cases k tag body s with ⟨-, room, -, h⟩ | ⟨-, h⟩ <;> rw [h]
    · exact serveWith_sound (owns_judged k body) _ _ hs room
    · exact placeGoodFrame_sound _ hs
  | hardReset rate1 rate0 ready =>
    injection h with h
    subst h
    exact hardReset_sound _ ready
  | frameReceive chars =>
    injection h with h
    subst h
    exact forEach_keeps (fun s => LinkSound s.link) _ (fun c s => received_sound (receiveChar_received c s)) chars s hs
  | gapExpiry =>
    injection h with h
    subst h
    split
    · exact received_sound (.bad 2) hs
    · exact hs
  | requestService =>
    rcases requestService_cases s with h' | ⟨f, rest, hq, room, h'⟩ <;> rw [h'] at h <;> injection h with h <;> subst h
    · exact hs
    · obtain ⟨-, kept⟩ := serveWith_sound (owns_answerFrame f) f.kind f.tag hs room
      have req := hs.1
      exact ⟨by rw [hq] at req; exact Nat.le_of_succ_le req, kept⟩
  | frameTransmitted =>
    change execFrameTransmitted s = _ at h
    unfold execFrameTransmitted at h
    split at h <;> injection h with h <;> subst h
    · next f rest out =>
      obtain ⟨req, room, free, kept⟩ := hs
      rw [out] at room free
      exact ⟨req, by simp at room ⊢; omega, by simp at free ⊢; exact free, kept⟩
    · exact hs
  | softResetPerform =>
    injection h with h
    subst h
    split
    · exact softReset_sound s
    · exact hs
  | block commutes =>
    obtain ⟨t', ht, hv⟩ := commutes s
    rw [ht] at h
    injection h with h
    subst h
    have fixed : s.via (.confined s.link) s.pending = s := by simp only [State.via, confined_of_sound hs]
    have again := hv (.confined s.link) s.pending
    rw [fixed, ht] at again
    injection again with again
    exact sound_of_confined hs (congrArg State.link again).symm

/-- Settles O3: a step runs one command, and each keeps the link sound. -/
theorem linkBoundsKept : Obligations.LinkBoundsKept := by
  intro s t hs h
  unfold step at h
  split at h
  · injection h with h
    exact h ▸ hs
  · next c rest hp => exact exec_sound c (s := { s with pending := rest }) hs h

end Sys2Proof.Machine
end

