-- ==== Sys2Proof/Proofs/Receiver.lean ====
section
/-! PROOF. A whole frame on the receiver: the start byte, the length, the kind and the tag, the body byte by byte, and the check. The
claims about good and bad frames follow. -/

namespace Sys2Proof.Machine

/-! ## The bytes of a frame -/

/-- The bytes that a frame's check covers: length, kind, tag and body (R5, R173). -/
def Frame.covered (f : Frame) : List Byte := le16 f.body.length ++ [f.kind, f.tag] ++ f.body

theorem Frame.bytes_eq (f : Frame) : f.bytes = (0xA5#8 :: f.covered) ++ le16 (crc f.covered).toNat := rfl

theorem Frame.covered_length (f : Frame) : f.covered.length = f.body.length + 4 := by simp [covered, le16]

/-- Two bytes, the least significant first, read as the number they were made of. -/
theorem le16_value (n : Nat) (h : n < 65536) : (BitVec.ofNat 8 n).toNat + 256 * (BitVec.ofNat 8 (n / 256)).toNat = n := by
  simp only [BitVec.toNat_ofNat]
  omega

/-- Two bytes are those of the number they make. -/
theorem le16_of_value (lo hi : Byte) : le16 (lo.toNat + 256 * hi.toNat) = [lo, hi] := by
  have := lo.isLt
  have := hi.isLt
  simp only [le16, List.cons.injEq, and_true]
  exact ⟨BitVec.eq_of_toNat_eq (by rw [BitVec.toNat_ofNat]; omega), BitVec.eq_of_toNat_eq (by rw [BitVec.toNat_ofNat]; omega)⟩

/-! ## Reception -/

/-- A byte received with a good stop bit. -/
def cleanChar (b : Byte) : RxChar := { byte := b, framingError := false }

/-- The state while a frame is under reception. -/
def under (rx : RxState) (u : FrameUnderReception) (s : State) : State := { s with link := s.link.receiving rx u }

/-- A clean character by the receiver's state (R2 to R5). -/
theorem receive_start (s : State) (h : s.link.rx = .hunt) : receiveChar (cleanChar 0xA5) s = under .length .start s := by
  simp [receiveChar, h, cleanChar, under]
theorem receive_length (u : FrameUnderReception) (b : Byte) (s : State) :
    receiveChar (cleanChar b) (under .length u s) = rxLength u b (under .length u s) := rfl
theorem receive_body (u : FrameUnderReception) (b : Byte) (s : State) :
    receiveChar (cleanChar b) (under .body u s) = rxBody u b (under .body u s) := rfl
theorem receive_check (u : FrameUnderReception) (b : Byte) (s : State) :
    receiveChar (cleanChar b) (under .check u s) = rxCheck u b (under .check u s) := rfl

theorem hunting_of_under (rx : RxState) (u : FrameUnderReception) (s : State) :
    { under rx u s with link := (under rx u s).link.hunting } = { s with link := s.link.hunting } := rfl

/-- The frame under reception after its start byte, a length of at most 256, its kind and its tag. -/
def headed (lo hi kind tag : Byte) : FrameUnderReception :=
  { lengthLow := some lo, length := lo.toNat + 256 * hi.toNat, kind := some kind, tag := some tag, body := [],
    check := crc [lo, hi, kind, tag], checkLow := none }

/-- The receiver's state while body bytes are still to come, or when the check comes next (R4). -/
def bodyState (u : FrameUnderReception) : RxState := if u.body.length < u.length then .body else .check

/-- The frame under reception with more of its body. -/
def FrameUnderReception.with (u : FrameUnderReception) (l : List Byte) : FrameUnderReception :=
  { u with body := u.body ++ l, check := l.foldl crcByte u.check }

/-- The frame under reception after the low byte of its length, and after both bytes of it (R3). -/
def lowRead (lo : Byte) : FrameUnderReception := { FrameUnderReception.start with lengthLow := some lo, check := crcByte 0xFFFF#16 lo }
def lengthRead (lo hi : Byte) : FrameUnderReception :=
  { lowRead lo with length := lo.toNat + 256 * hi.toNat, check := crcByte (lowRead lo).check hi }

theorem receive_low (lo : Byte) (s : State) :
    receiveChar (cleanChar lo) (under .length .start s) = under .length (lowRead lo) s := rfl
theorem receive_high (lo hi : Byte) (s : State) (small : lo.toNat + 256 * hi.toNat ≤ 256) :
    receiveChar (cleanChar hi) (under .length (lowRead lo) s) = under .body (lengthRead lo hi) s := if_neg (Nat.not_lt.mpr small)
theorem receive_high_long (lo hi : Byte) (s : State) (long : 256 < lo.toNat + 256 * hi.toNat) :
    receiveChar (cleanChar hi) (under .length (lowRead lo) s) = discardFrame 3 s := if_pos long

/-- The start byte, the length, the kind and the tag (R2 to R4). -/
theorem receive_head (lo hi kind tag : Byte) (s : State) (h : s.link.rx = .hunt) (small : lo.toNat + 256 * hi.toNat ≤ 256) :
    forEach ([0xA5, lo, hi, kind, tag].map cleanChar) receiveChar s =
      under (bodyState (headed lo hi kind tag)) (headed lo hi kind tag) s := by
  have last : (if lo.toNat + 256 * hi.toNat = 0 then RxState.check else .body) = bodyState (headed lo hi kind tag) := by
    unfold bodyState headed
    rcases Nat.eq_zero_or_pos (lo.toNat + 256 * hi.toNat) with empty | some
    · rw [if_pos empty, if_neg (by simp [empty])]
    · rw [if_neg (by omega), if_pos (by exact some)]
  simp only [List.map_cons, List.map_nil, forEach_cons, forEach_nil, receive_start s h, receive_low, receive_high lo hi s small]
  exact congrArg (fun rx => under rx (headed lo hi kind tag) s) last

/-- The body bytes, one after another, up to the number that the length gave (R4). -/
theorem receive_rest (u : FrameUnderReception) (k t : Byte) (hk : u.kind = some k) (ht : u.tag = some t) (rest : List Byte) (s : State)
    (h : u.body.length + rest.length = u.length) :
    forEach (rest.map cleanChar) receiveChar (under (bodyState u) u s) = under .check (u.with rest) s := by
  induction rest generalizing u with
  | nil =>
    have done : bodyState u = .check := if_neg (by simp at h; omega)
    simp [done, FrameUnderReception.with]
  | cons b rest ih =>
    have more : bodyState u = .body := if_pos (by simp at h; omega)
    have taken : rxBody u b (under .body u s) = under (bodyState (u.with [b])) (u.with [b]) s := by
      cases u
      subst hk ht
      rfl
    rw [List.map_cons, forEach_cons, more, receive_body, taken, ih (u.with [b]) hk ht (by simp [FrameUnderReception.with] at h ⊢; omega)]
    simp [FrameUnderReception.with]

/-- The two bytes of the check: the frame is good or is discarded (R5). -/
theorem receive_check_bytes (u : FrameUnderReception) (hu : u.checkLow = none) (lo hi : Byte) (s : State) :
    forEach ([lo, hi].map cleanChar) receiveChar (under .check u s) =
      if u.check.toNat = lo.toNat + 256 * hi.toNat then
        placeGoodFrame { kind := u.kind.getD 0, tag := u.tag.getD 0, body := u.body } { s with link := s.link.hunting }
      else discardFrame 1 s := by
  have low : rxCheck u lo (under .check u s) = under .check { u with checkLow := some lo } s := by
    cases u
    subst hu
    rfl
  simp only [List.map_cons, List.map_nil, forEach_cons, forEach_nil, receive_check, low]
  rfl

/-- A whole frame in HUNT, with any two bytes in the place of its check (R2 to R5). -/
theorem receive_frame (f : Frame) (lo hi : Byte) (s : State) (small : f.body.length ≤ 256) (h : s.link.rx = .hunt) :
    forEach ((0xA5#8 :: f.covered ++ [lo, hi]).map cleanChar) receiveChar s =
      if (crc f.covered).toNat = lo.toNat + 256 * hi.toNat then placeGoodFrame f { s with link := s.link.hunting }
      else discardFrame 1 s := by
  let l := BitVec.ofNat 8 f.body.length
  let g := BitVec.ofNat 8 (f.body.length / 256)
  have value : l.toNat + 256 * g.toNat = f.body.length := le16_value _ (by omega)
  have split : (0xA5#8 :: f.covered ++ [lo, hi]).map cleanChar =
      [0xA5, l, g, f.kind, f.tag].map cleanChar ++ (f.body.map cleanChar ++ [lo, hi].map cleanChar) := by
    simp [Frame.covered, le16, l, g]
  have check : ((headed l g f.kind f.tag).with f.body).check = crc f.covered := by
    simp [headed, FrameUnderReception.with, crc, Frame.covered, le16, l, g]
  rw [split, forEach_append, forEach_append, receive_head l g f.kind f.tag s h (by omega),
    receive_rest (headed l g f.kind f.tag) f.kind f.tag rfl rfl f.body s (by simpa [headed] using value.symm),
    receive_check_bytes _ rfl, check]
  simp [headed, FrameUnderReception.with]

/-- A frame as it is sent takes its place (R5, R8). -/
theorem receive_chars (f : Frame) (s : State) (small : f.body.length ≤ 256) (h : s.link.rx = .hunt) :
    exec (.frameReceive f.chars) s = .next (placeGoodFrame f { s with link := s.link.hunting }) := by
  have good := receive_frame f (BitVec.ofNat 8 (crc f.covered).toNat) (BitVec.ofNat 8 ((crc f.covered).toNat / 256)) s small h
  rw [if_pos (le16_value _ (crc f.covered).isLt).symm] at good
  exact congrArg Host.Outcome.next good

/-! ## Discards -/

/-- A block's raise is what the claims call reported (R164). -/
theorem raiseKind_eq_reported (k : EventId) (o : Nat) (d : BitVec 32) (s : State) : raiseKind k o d false s = reported k o d s := by
  rw [raiseKind_eq]
  unfold reported raiseNotice raiseRecord
  dsimp only
  by_cases noticed : (s.events[k]).raw = false ∧ (s.events[k]).enable = true ∧ s.link.resetPending = false ∧ s.link.outbound.length < 24
  · rw [if_pos noticed, if_pos noticed]
    rfl
  · rw [if_neg noticed, if_neg noticed, List.append_nil]
    rfl

theorem discardFrame_eq (cause : Nat) (s : State) :
    discardFrame cause s = reported 0 0 (BitVec.ofNat 32 cause) { s with link := s.link.hunting } := raiseKind_eq_reported _ _ _ _

/-- A framing error outside HUNT (R1, R6). -/
theorem receive_framing_error (b : Byte) (s : State) (busy : s.link.rx ≠ .hunt) (some : s.link.under ≠ none) :
    receiveChar { byte := b, framingError := true } s = discardFrame 4 s := by
  obtain ⟨u, hu⟩ := Option.ne_none_iff_exists'.mp some
  unfold receiveChar
  rw [hu]
  cases hx : s.link.rx
  case hunt => exact absurd hx busy
  all_goals rfl

/-- Settles O11: reception of the whole frame, then the four places of a good frame. -/
theorem goodFrameTakesItsPlace : Obligations.GoodFrameTakesItsPlace := by
  intro f s small hunt
  rw [receive_chars f s small hunt]
  refine ⟨fun pending => ?_, fun free room => ?_, fun free full room => ?_, fun free full none => ?_⟩
  · rw [placeGoodFrame_pending_reset _ _ (by exact pending)]
  · rw [placeGoodFrame_queued _ _ (by exact free) (by exact room)]
    rfl
  · rw [placeGoodFrame_busy _ _ (by exact free) (by exact full) (by exact room)]
  · rw [placeGoodFrame_overflow _ _ (by exact free) (by exact full) (by exact none)]
    exact congrArg Host.Outcome.next (raiseKind_eq_reported _ _ _ _)

/-- Settles O12: each cause ends in the one discard, and a discard is a raise of LINK_FRAME_BAD in HUNT. -/
theorem discardedFrameRaisesItsCause : Obligations.DiscardedFrameRaisesItsCause := by
  intro s
  refine ⟨fun f lo hi hunt small wrong => ?_, fun running => ?_, fun lo hi hunt long => ?_, fun b busy some => ?_, fun b e hunt noise => ?_⟩
  · have covered : f.bytes.take (5 + f.body.length) = 0xA5#8 :: f.covered := by
      rw [Frame.bytes_eq, List.take_append_of_le_length (by simp [Frame.covered_length]; omega), List.take_of_length_le]
      simp [Frame.covered_length]; omega
    rw [covered] at wrong ⊢
    have bad : ¬(crc f.covered).toNat = lo.toNat + 256 * hi.toNat := by
      intro same
      rw [Frame.bytes_eq, same, le16_of_value] at wrong
      exact wrong rfl
    have received := receive_frame f lo hi s small hunt
    rw [if_neg bad, discardFrame_eq] at received
    exact congrArg Host.Outcome.next received
  · have discarded : (if s.link.gapTimer then discardFrame 2 s else s) = discardFrame 2 s := if_pos running
    exact congrArg Host.Outcome.next (discarded.trans (discardFrame_eq 2 s))
  · have received : forEach ([0xA5, lo, hi].map cleanChar) receiveChar s = discardFrame 3 s := by
      simp only [List.map_cons, List.map_nil, forEach_cons, forEach_nil, receive_start s hunt, receive_low,
        receive_high_long lo hi s long]
    exact congrArg Host.Outcome.next (received.trans (discardFrame_eq 3 s))
  · exact congrArg Host.Outcome.next ((receive_framing_error b s busy some).trans (discardFrame_eq 4 s))
  · have received : receiveChar { byte := b, framingError := e } s = s := by
      unfold receiveChar
      rw [hunt]
      exact if_neg (fun start => noise.elim (fun h => h start.2) (fun h => by simp [h] at start))
    exact congrArg Host.Outcome.next received

end Sys2Proof.Machine
end

