-- ==== Sys2Proof/Proofs/Requests.lean ====
section
/-! PROOF. Host requests in general: their service does not see the other requests, so a request's command, its frame with the service
that follows, and the service of a waiting request are one work. Then the requests of the link controller itself. -/

namespace Sys2Proof.Machine

/-! ## The service and the request queue -/

/-- A service does not look at the request queue and leaves it as it is. -/
theorem serveWith_withRequests {own : State → Answer} (h : Owns own) (kind tag : Byte) (r : List Frame) (s : State) :
    serveWith kind tag own (s.withRequests r) = (serveWith kind tag own s).withRequests r := by
  have commuted := h (.requests r) s.pending (s.addOutbound .reserved)
  rw [← show (s.withRequests r).addOutbound .reserved = (s.addOutbound .reserved).via (.requests r) s.pending from rfl] at commuted
  have kept : (own (s.addOutbound .reserved)).1.pending = s.pending := pending_of_passes (passes_of_owns h) _
  unfold serveWith State.withRequests
  dsimp only
  rw [show own (({ s with link := { s.link with requests := r } } : State).addOutbound .reserved) = _ from commuted, ← kept]
  rfl

/-- What becomes of a request in service, by its kind (R9). -/
theorem answerFrame_assigned (f : Frame) (k : RequestKind) (h : f.kind = k.code) :
    answerFrame f = judged k.lengthOk k.take f.body := by
  funext s
  unfold answerFrame
  rw [h, requestKindOf_code]

theorem answerFrame_not_assigned (f : Frame) (h : f.kind ∉ allRequestKinds.map RequestKind.code) :
    answerFrame f = fun s => refuse s .badKind := by
  funext s
  have none : requestKindOf f.kind = none := by
    unfold requestKindOf
    rw [List.find?_eq_none]
    intro k hk same
    exact h (List.mem_map.mpr ⟨k, hk, (decide_eq_true_iff.mp same)⟩)
  unfold answerFrame
  rw [none]

theorem judged_refused (k : RequestKind) (body : List Byte) (h : k.lengthOk body = false) :
    judged k.lengthOk k.take body = fun s => refuse s .badLength := by
  funext s
  unfold judged
  rw [h]
  rfl

theorem judged_taken (k : RequestKind) (body : List Byte) (h : k.lengthOk body = true) :
    judged k.lengthOk k.take body = k.take body := by
  funext s
  exact if_pos h

/-- A refusal is its reply and nothing else. -/
theorem serveWith_refuse (kind tag : Byte) (r : Status) (s : State) (h : OutEntry.reserved ∉ s.link.outbound) :
    serveWith kind tag (fun s => refuse s r) s = replied kind tag r.code [] s := by
  rw [serveWith_eq]
  exact filled_reserved kind tag (.bare r) s h

/-- Where the link serves at once, a request's command is its service. -/
theorem exec_command_now (k : RequestKind) (tag : Byte) (body : List Byte) (s : State) (h : ServesNow s) :
    exec (k.command tag body) s = .next (serveWith k.code tag (judged k.lengthOk k.take body) s) := by
  rw [exec_command, submit_now _ _ _ _ _ _ h]

/-- The same, the owner's work taken behind the reply that it gives. -/
theorem exec_command_behind_reply (k : RequestKind) (tag : Byte) (body : List Byte) (s : State) (h : ServesNow s)
    (len : k.lengthOk body = true) (r : Reply) (hr : (k.take body (s.addOutbound .reserved)).2 = r) :
    exec (k.command tag body) s = .next (k.take body (replied k.code tag r.status.code r.fields s)).1 := by
  obtain ⟨-, -, -, free⟩ := id h
  have owns := owns_judged k body
  rw [judged_taken k body len] at owns
  rw [exec_command_now k tag body s h, judged_taken k body len, serveWith_behind_reply owns _ _ s free r hr]

/-- A request that is refused. -/
theorem exec_command_refused (k : RequestKind) (tag : Byte) (body : List Byte) (s : State) (h : ServesNow s)
    (len : k.lengthOk body = true) (r : Status) (hr : k.take body = fun s => refuse s r) :
    exec (k.command tag body) s = .next (replied k.code tag r.code [] s) := by
  obtain ⟨-, -, -, free⟩ := id h
  rw [exec_command_now k tag body s h, judged_taken k body len, hr, serveWith_refuse _ _ _ _ free]

/-- A request with a length that its description does not allow. -/
theorem exec_command_badLength (k : RequestKind) (tag : Byte) (body : List Byte) (s : State) (h : ServesNow s)
    (len : k.lengthOk body = false) : exec (k.command tag body) s = .next (replied k.code tag 0x04 [] s) := by
  obtain ⟨-, -, -, free⟩ := id h
  rw [exec_command_now k tag body s h, judged_refused k body len, serveWith_refuse _ _ _ _ free]
  rfl

/-! ## The claims about requests in general -/

/-- Settles O19: the length is judged before the owner sees the request. -/
theorem disallowedLengthIsRefused : Obligations.DisallowedLengthIsRefused := by
  intro q hq tag body s h len
  obtain ⟨k, rfl⟩ := mem_requestTable hq
  exact exec_command_badLength k tag body s h len

/-- A sound link in HUNT holds nothing of the receiver's to discard. -/
theorem hunting_of_sound {l : Link} (h : LinkSound l) (hunt : l.rx = .hunt) : l.hunting = l := by
  obtain ⟨-, -, -, under, gap⟩ := h
  have stopped : l.gapTimer = false := by
    cases running : l.gapTimer
    · rfl
    · exact absurd hunt (gap.mp running)
  unfold Link.hunting
  rw [← hunt, ← under.mp hunt, ← stopped]

/-- Settles O18: the frame joins the empty queue, and its service does not see the queue. -/
theorem requestCommandIsItsFrame : Obligations.RequestCommandIsItsFrame := by
  intro q hq tag body s small sound hunt
  obtain ⟨k, rfl⟩ := mem_requestTable hq
  intro f
  have arrives : exec (.frameReceive f.chars) s = .next (placeGoodFrame f s) := by
    rw [receive_chars f s small hunt, hunting_of_sound sound hunt]
  refine ⟨fun now => ?_, fun later => ?_⟩
  · obtain ⟨empty, room, free, -⟩ := id now
    have queued : placeGoodFrame f s = s.withRequests [f] := by
      rw [placeGoodFrame_queued f s free (by simp [empty]), empty]
      rfl
    have served := requestService_serves f [] (s.withRequests [f]) rfl room free
    rw [answerFrame_assigned f k rfl, serveWith_withRequests (owns_judged k body)] at served
    refine ⟨_, arrives, ?_⟩
    have kept : (serveWith k.code tag (judged k.lengthOk k.take body) s).withRequests [] =
        serveWith k.code tag (judged k.lengthOk k.take body) s := by
      rw [← serveWith_withRequests (owns_judged k body)]
      exact congrArg _ (show s.withRequests [] = s by unfold State.withRequests; rw [← empty])
    rw [queued, served, exec_command_now k tag body s now]
    exact congrArg Host.Outcome.next kept.symm
  · rw [arrives, exec_command]
    rcases submit_cases k tag body s with ⟨empty, room, free, -⟩ | ⟨-, h⟩
    · exact absurd ⟨empty, room, free, sound.2.2.1⟩ later
    · rw [h]

/-! ## Fields of a body -/

theorem toIndex_val {n : Nat} (k : Fin n) : toIndex n k.val = some k := dif_pos k.isLt
theorem toIndex_none {n x : Nat} (h : n ≤ x) : toIndex n x = none := dif_neg (by omega)

/-- The first field of a body that begins with an object's number. -/
theorem field8_head (n : Nat) (h : n < 256) (l : List Byte) : field8 (le8 n ++ l) 0 = n := by
  simp [field8, le8, Nat.mod_eq_of_lt h]

/-- SOURCE_MUTE with a source and a flag (R70). -/
theorem takeSourceMute_eq (k : SourceId) (b : Bool) (s : State) :
    takeSourceMute [BitVec.ofNat 8 k.val, if b then 1 else 0] s =
      (s.setSource k { s.sources[k] with muted := b }, .okWith [BitVec.ofNat 8 k.val, if b then 1 else 0]) := by
  have source : field8 [BitVec.ofNat 8 k.val, if b then 1 else 0] 0 = k.val := field8_head k.val (by omega) _
  unfold takeSourceMute
  rw [source, toIndex_val]
  cases b <;> rfl

/-- Settles O13: the service of the head is the service of its command on the queue's rest. -/
theorem requestServiceServesTheHead : Obligations.RequestServiceServesTheHead := by
  intro f rest s hq
  refine ⟨requestService_waits s, fun room free settled => ?_⟩
  have served := requestService_serves f rest s hq room free
  refine ⟨fun unassigned => ?_, fun q hq kind => ?_, fun k b kind body => ?_⟩
  · rw [served, answerFrame_not_assigned f unassigned, serveWith_refuse _ _ _ _ settled]
    rfl
  · obtain ⟨j, rfl⟩ := mem_requestTable hq
    rw [served, answerFrame_assigned f j kind]
    refine ⟨fun len => ?_, _, exec_command_now j f.tag f.body (s.withRequests []) ⟨rfl, room, free, settled⟩, ?_⟩
    · rw [judged_refused j f.body len, serveWith_refuse _ _ _ _ settled]
      rfl
    · rw [serveWith_withRequests (owns_judged j f.body), show f.kind = j.code from kind]
      rfl
  · have owns := owns_judged .sourceMute f.body
    have taken : judged RequestKind.sourceMute.lengthOk RequestKind.sourceMute.take f.body = takeSourceMute f.body :=
      judged_taken .sourceMute f.body (by rw [body]; rfl)
    rw [taken] at owns
    rw [served, answerFrame_assigned f .sourceMute kind, taken, body,
      serveWith_behind_reply (body ▸ owns) _ _ s settled _ (congrArg Prod.snd (takeSourceMute_eq k b _)), takeSourceMute_eq]
    rfl

/-! ## The requests of the link controller -/

/-- Settles O15: IDENTIFY only reads. -/
theorem identifyAnswersTheFixedFields : Obligations.IdentifyAnswersTheFixedFields := by
  intro tag s now
  refine ⟨?_, fun body some => ?_⟩
  · refine (exec_command_behind_reply .identify tag [] s now rfl _ rfl).trans ?_
    cases h : s.link.rate <;> simp [RequestKind.take, takeIdentify, h] <;> rfl
  · exact exec_command_badLength .identify tag body s now (by simpa [RequestKind.lengthOk, exactly] using some)

/-- A raise with a reset pending adds no notice (R11). -/
theorem raiseKind_link_pending (k : EventId) (o : Nat) (d : BitVec 32) (b : Bool) (s : State) (h : s.link.resetPending = true) :
    (raiseKind k o d b s).link = s.link := by
  have none : raiseNotice k (raiseRecord o d b s) s = [] := if_neg (by simp [h])
  rw [raiseKind_link, none, List.append_nil]

/-- Settles O16: the reply of SOFT_RESET stands before the flag that it sets; with the flag set the link is closed. -/
theorem softResetWaitsForItsReply : Obligations.SoftResetWaitsForItsReply := by
  refine ⟨fun tag s now => ⟨?_, fun body some => ?_⟩, fun s pending => ⟨?_, fun tag body => ?_, ?_, fun busy => ?_⟩⟩
  · exact exec_command_behind_reply .softReset tag [] s now rfl _ rfl
  · exact exec_command_badLength .softReset tag body s now (by simpa [RequestKind.lengthOk, exactly] using some)
  · exact requestService_waits s (.inr pending)
  · rw [show Instr.airStart tag body = RequestKind.airStart.command tag body from rfl, exec_command]
    rcases submit_cases .airStart tag body s with ⟨-, -, free, -⟩ | ⟨-, h⟩
    · rw [pending] at free
      contradiction
    · rw [h, placeGoodFrame_pending_reset _ s pending]
  · exact fun k o d b => raiseKind_link_pending k o d b s pending
  · exact congrArg Host.Outcome.next (if_neg (fun h => busy h.2))

/-- Settles O14: by the head of the outbound queue; the bytes of a frame are its start byte, what its check covers, and the check. -/
theorem transmittedFrameLeavesTheQueue : Obligations.TransmittedFrameLeavesTheQueue := by
  intro s
  refine ⟨fun f rest out => ⟨?_, ?_, rfl⟩, fun rest out => ?_⟩
  · change execFrameTransmitted s = _
    unfold execFrameTransmitted
    rw [out]
  · rw [Frame.bytes_eq, List.length_append, List.length_cons, Frame.covered_length]
    rfl
  · change execFrameTransmitted s = _
    unfold execFrameTransmitted
    rw [out]

end Sys2Proof.Machine
end

