-- ==== Sys2Proof/Proofs/Resets.lean ====
section
/-! PROOF. The two resets: what the blocks hold after them, the SCANs of the kept windows, and that every law holds after a hard reset. -/

namespace Sys2Proof.Machine

/-! ## The SCANs after a soft reset -/

/-- A SCAN joins a queue of fewer than 64 exchanges at its tail (R116). -/
theorem ask_scan (r : RackId) (s : State) (room : (s.bus.queues[(0 : Fin 6)]).length < 64) :
    ask (.scan r) s = s.setQueue 0 (s.bus.queues[(0 : Fin 6)] ++ [.scan r]) := by
  rcases request_cases (.scan r) s with ⟨no, -⟩ | ⟨-, no, -⟩ | ⟨-, -, full, -⟩ | ⟨-, -, -, h⟩
  · cases no
  · cases no
  · exact absurd full (Nat.not_le.mpr room)
  · exact congrArg Prod.snd h

/-- SCANs of a list of racks, as far as the queue has room for them all. -/
theorem ask_scans (l : List RackId) (s : State) (room : (s.bus.queues[(0 : Fin 6)]).length + l.length ≤ 64) :
    forEach l (fun r => ask (.scan r)) s = s.setQueue 0 (s.bus.queues[(0 : Fin 6)] ++ l.map Exchange.scan) := by
  induction l generalizing s with
  | nil => simp [State.setQueue]
  | cons r l ih =>
    rw [List.length_cons] at room
    have grown : (s.setQueue 0 (s.bus.queues[(0 : Fin 6)] ++ [.scan r])).bus.queues[(0 : Fin 6)] =
        s.bus.queues[(0 : Fin 6)] ++ [.scan r] := get_set_same _ _ _
    rw [forEach_cons, ask_scan r s (by omega), ih, grown]
    · simp [State.setQueue]
    · rw [grown, List.length_append, List.length_singleton]
      omega

theorem definedRacks_length (s : State) : s.definedRacks.length ≤ 8 :=
  (List.length_filter_le _ _).trans (by simp)

theorem initial_freeList : Pool.initial.freeList = List.finRange 512 := by
  simp only [Pool.initial]

/-- The state of a soft reset before its SCANs. -/
def softResetBlocks (s : State) : State :=
  { s with
    link := s.link.softReset, air := airSoftReset s.pins.readyLine, pool := .initial, sources := mapAll Source.softReset s.sources,
    channels := mapAll Channel.softReset s.channels, sched := { Scheduler.initial with lateLimit := s.sched.lateLimit },
    racks := mapAll (Option.map RackWindow.softReset) s.racks, slots := mapAll (Option.map (fun _ => Slot.initial)) s.slots,
    bus := .idle s.bus.number, devices := s.devices.map Device.softReset, groups := mapAll Group.softReset s.groups, ops := [],
    roster := mapAll RosterEntry.softReset s.roster, events := mapAll EventKindState.softReset s.events,
    pins := { s.pins with frameStrobe := false, dataOut := [] } }

theorem idle_queue (n : Byte) (q : Fin 6) : (Bus.idle n).queues[q] = [] := by simp [Bus.idle]

theorem definedRacks_softReset (s : State) :
    (softResetBlocks s).definedRacks = (List.finRange 8).filter (fun r => (s.racks[r]).isSome) := by
  refine List.filter_congr (fun r _ => ?_)
  rw [show (softResetBlocks s).racks[r] = Option.map RackWindow.softReset s.racks[r] from mapAll_get _ _ r, Option.isSome_map]

theorem slot_softReset (s : State) (a : SlotAddr) : (softResetBlocks s).slots[a] = (s.slots[a]).map (fun _ => Slot.initial) := by
  dsimp only [softResetBlocks]
  exact mapAll_get _ s.slots a

/-- A soft reset is its blocks' values with the SCANs of the kept windows queued (R129). -/
theorem softReset_eq (s : State) :
    softReset s = (softResetBlocks s).setQueue 0 (((List.finRange 8).filter (fun r => (s.racks[r]).isSome)).map Exchange.scan) := by
  have empty : (softResetBlocks s).bus.queues[(0 : Fin 6)] = [] := idle_queue s.bus.number 0
  change scanAll (softResetBlocks s) = _
  unfold scanAll
  rw [ask_scans, empty, List.nil_append, definedRacks_softReset]
  rw [empty]
  have := definedRacks_length (softResetBlocks s)
  simp only [List.length_nil]
  omega

/-- SOFT_RESET_PERFORM at its moment (R15). -/
theorem exec_softResetPerform (s : State) (pending : s.link.resetPending = true) (sent : s.link.outbound = []) :
    exec .softResetPerform s = .next (softReset s) := congrArg Host.Outcome.next (if_pos ⟨pending, sent⟩)

/-- Settles O24: each block's reset is applied to every object of the block. -/
theorem softResetValues : Obligations.SoftResetValues := by
  intro s pending sent
  refine ⟨_, exec_softResetPerform s pending sent, softReset_pending s, ?_⟩
  rw [softReset_eq]
  refine ⟨⟨rfl, rfl, rfl, rfl, rfl, rfl, fun i => by simp [softResetBlocks, airSoftReset, imageEmpty, State.setQueue]⟩,
    ⟨?_, ?_⟩, fun k => mapAll_get _ _ k, fun c => mapAll_get _ _ c, rfl, fun r => mapAll_get _ _ r, fun a => ?_,
    ⟨?_, fun q hq => ?_, rfl, rfl⟩, rfl, rfl, fun g => mapAll_get _ _ g, rfl, fun k => ?_, fun k => mapAll_get _ _ k⟩
  · exact .of_eq initial_freeList
  · rfl
  · dsimp only [State.setQueue]
    exact slot_softReset s a
  · exact get_set_same _ _ _
  · exact (get_set_other _ _ _ _ hq).trans (idle_queue s.bus.number q)
  · have entry : (mapAll RosterEntry.softReset s.roster)[k] = (s.roster[k]).softReset := mapAll_get _ _ k
    change (∀ id, _ → (mapAll RosterEntry.softReset s.roster)[k] = _) ∧ (_ → (mapAll RosterEntry.softReset s.roster)[k] = _)
    rw [entry]
    cases h : s.roster[k] with
    | free => exact ⟨fun id bound => (by cases bound), fun _ => rfl⟩
    | held n => exact ⟨fun id bound => (by cases bound), fun _ => rfl⟩
    | bound d => exact ⟨fun id bound => bound, fun none => absurd rfl (none d)⟩

/-- Settles O17: the link of either reset is written out by the model. -/
theorem linkAfterEitherReset : Obligations.LinkAfterEitherReset := by
  refine ⟨fun rate1 rate0 ready s => ⟨_, rfl, ?_, rfl⟩, fun s pending sent => ⟨_, exec_softResetPerform s pending sent, softReset_link s⟩⟩
  cases rate1 <;> cases rate0 <;> rfl

/-! ## Every law holds after a hard reset -/

/-- Each of the fourteen sources starts at its initial values, in the rate mode its number gives (R73). -/
theorem source_initial (k : SourceId) : ∃ mode, sourcesInitial[k] = .initial mode := by
  simp only [sourcesInitial, Fin.getElem_fin, Vector.getElem_set, Vector.getElem_replicate]
  split
  · exact ⟨.fixed, rfl⟩
  split
  · exact ⟨.fixed, rfl⟩
  · exact ⟨.auto, rfl⟩

theorem initial_source_sound (mode : RateMode) : SourceSound (.initial mode) := by
  simp [SourceSound, NumbersSound, SettingsSound, BufferSound, Within, Source.initial, SourceSettings.default, Buffer.empty]

theorem hardReset_sourcesSound (rate : LineRate) (ready : Bool) : SourcesSound (State.hardReset rate ready) := fun k => by
  obtain ⟨mode, h⟩ := source_initial k
  exact h.symm ▸ initial_source_sound mode

/-- After a hard reset every cell is on the free list. -/
theorem hardReset_cells (rate : LineRate) (ready : Bool) : allCells (State.hardReset rate ready) = List.finRange 512 := by
  have buffers : ((List.finRange 14).flatMap fun k : SourceId => sourcesInitial[k].buffer.chain) = [] :=
    List.flatMap_eq_nil_iff.mpr fun k _ => by
      obtain ⟨mode, h⟩ := source_initial k
      rw [h]
      rfl
  dsimp only [allCells, State.hardReset]
  rw [buffers, initial_freeList]
  simp only [Scheduler.initial, List.flatMap_nil, List.append_nil]

theorem hardReset_channelsSound (rate : LineRate) (ready : Bool) : ChannelsSound (State.hardReset rate ready) := by
  simp [ChannelsSound, ChannelSound, State.hardReset, Channel.initial]

theorem hardReset_bindingsSound (rate : LineRate) (ready : Bool) : BindingsSound (State.hardReset rate ready) := by
  simp [BindingsSound, groupsOn, State.hardReset, Channel.initial, Group.initial]

theorem hardReset_windowsSound (rate : LineRate) (ready : Bool) : WindowsSound (State.hardReset rate ready) := by
  simp [WindowsSound, State.hardReset, Bus.idle]

theorem hardReset_issuesSound (rate : LineRate) (ready : Bool) : IssuesSound (State.hardReset rate ready) := by
  simp [IssuesSound, State.hardReset, Group.initial]

/-- With no rack, no slot, no device and no operation, the laws of racks, charging and fleet ask for nothing. -/
theorem hardReset_dockSound (rate : LineRate) (ready : Bool) : DockSound (State.hardReset rate ready) := by
  refine ⟨⟨hardReset_windowsSound rate ready, ?_, hardReset_issuesSound rate ready⟩, ?_, ?_, ?_, ?_, ?_, ?_, ?_⟩
  · simp [DevicesSound, State.hardReset]
  · simp [AccountsSound, State.hardReset]
  · simp [SlotsSound, State.hardReset]
  · simp [NamesSound, namedAt, State.hardReset]
  · simp [OutCountsSound, outOf, State.hardReset, Group.initial]
  · simp [RosterSound, State.hardReset]
  · simp [CandidatesSound, State.hardReset]
  · simp [ExchangesSound, liveInFlight, State.hardReset, Bus.idle]

/-- Settles O10: law by law, over the blocks' hard-reset values. -/
theorem soundAfterHardReset : Obligations.SoundAfterHardReset := by
  intro rate ready
  have dock := hardReset_dockSound rate ready
  obtain ⟨windows, devices, issues⟩ := dock.1
  refine ⟨hardReset_sound rate ready, hardReset_sourcesSound rate ready, .of_eq (hardReset_cells rate ready), ?_,
    hardReset_channelsSound rate ready, hardReset_bindingsSound rate ready, ?_, ?_, windows, devices, issues, ?_, dock⟩
  · simp [NoticesSound, State.hardReset, Scheduler.initial]
  · simp [EventsSound, State.hardReset, EventKindState.initial]
  · simp [AirSound, State.hardReset]
  · simp [BudgetsRespected, State.hardReset]

end Sys2Proof.Machine
end

