-- ==== Sys2Proof/Proofs/Events.lean ====
section
/-! PROOF. The requests of the event unit that raise a kind, enable and disable: each acts on the state behind its reply. -/

namespace Sys2Proof.Machine

/-! ## Fields of an event's record -/

theorem le32_value (n : Nat) (h : n < 2 ^ 32) : (BitVec.ofNat 8 n).toNat + 256 * (BitVec.ofNat 8 (n / 256)).toNat +
    65536 * ((BitVec.ofNat 8 (n / 65536)).toNat + 256 * (BitVec.ofNat 8 (n / 16777216)).toNat) = n := by
  simp only [BitVec.toNat_ofNat]
  omega

theorem field16_second (k o : Nat) (h : o < 65536) (l : List Byte) : field16 (le8 k ++ (le16 o ++ l)) 1 = o := le16_value o h

theorem field32_fourth (k o d : Nat) (h : d < 2 ^ 32) : field32 (le8 k ++ (le16 o ++ le32 d)) 3 = d := le32_value d h

/-! ## EVENT_SET -/

/-- EVENT_SET's body: the kind, with the object and the detail or, short, without them (R169). -/
def eventSetBody (k : EventId) (long : Bool) (o d : Nat) : List Byte := le8 k.val ++ (if long then le16 o ++ le32 d else [])

/-- EVENT_SET is a raise by request; the short body's object and detail are 0 (R169). -/
theorem takeEventSet_eq (k : EventId) (long : Bool) (o d : Nat) (ho : o < 65536) (hd : d < 2 ^ 32) (short : long = false → o = 0 ∧ d = 0)
    (s : State) : takeEventSet (eventSetBody k long o d) s = (raiseKind k o (BitVec.ofNat 32 d) true s,
      .okWith (le8 k.val ++ le8 ((s.events[k]).raised (raiseRecord o (BitVec.ofNat 32 d) true s)).repeats)) := by
  have kind : field8 (eventSetBody k long o d) 0 = k.val := field8_head k.val (by omega) _
  have object : field16 (eventSetBody k long o d) 1 = o := by
    cases long with
    | true => exact field16_second k.val o ho _
    | false => exact (short rfl).1.symm
  have detail : field32 (eventSetBody k long o d) 3 = d := by
    cases long with
    | true => exact field32_fourth k.val o d hd
    | false => exact (short rfl).2.symm
  unfold takeEventSet
  rw [kind, toIndex_val, object, detail]
  simp only [raiseKind_events, get_set_same]

/-- A request whose first field names no event kind (10.3). -/
theorem takeEventSet_noObject (body : List Byte) (h : 24 < (body.getD 0 0).toNat) :
    takeEventSet body = fun s => refuse s .noObject := by
  funext s
  unfold takeEventSet
  rw [toIndex_none (show 25 ≤ field8 body 0 from h)]

/-- The notice of a raise behind a reply, which takes one of the places (R11). -/
theorem raiseNotice_behind_reply (k : EventId) (l : LatestRecord) (kind tag status : Byte) (fields : List Byte) (s : State)
    (free : s.link.resetPending = false) : raiseNotice k l (replied kind tag status fields s) =
      if (s.events[k]).raw = false ∧ (s.events[k]).enable = true ∧ s.link.outbound.length < 23
        then [.frame (eventNotice k l)] else [] := by
  have room : (replied kind tag status fields s).link.outbound.length < 24 ↔ s.link.outbound.length < 23 := by
    simp only [replied, List.length_append, List.length_singleton]
    omega
  exact if_congr (and_congr_right' (and_congr_right' ((and_iff_right free).trans room))) rfl rfl

theorem eventNotice_by_request (k : EventId) (o d : Nat) (s : State) (hd : d < 2 ^ 32) :
    eventNotice k (raiseRecord o (BitVec.ofNat 32 d) true s) =
      { kind := 0xE0, tag := 0, body := le8 k.val ++ le16 o ++ le32 d ++ le32 s.air.count.toNat ++ [1] } := by
  simp only [eventNotice, raiseRecord, BitVec.toNat_ofNat, Nat.mod_eq_of_lt hd, leFlag, if_true]

/-- Settles O20: the raise of R164 behind the reply. -/
theorem eventSetRaisesItsKind : Obligations.EventSetRaisesItsKind := by
  intro tag s now
  refine ⟨fun k long o d ho hd short => ?_, fun body len high => ?_⟩
  · have length : eventSetLength (eventSetBody k long o d) = true := by cases long <;> rfl
    have taken := takeEventSet_eq k long o d ho hd short
    refine (exec_command_behind_reply .eventSet tag (eventSetBody k long o d) s now length _ (congrArg Prod.snd (taken _))).trans ?_
    change Host.Outcome.next (takeEventSet (eventSetBody k long o d) _).1 = _
    obtain ⟨-, -, free, -⟩ := now
    rw [taken, raiseKind_eq, raiseNotice_behind_reply _ _ _ _ _ _ s free, eventNotice_by_request _ _ _ _ hd]
    dsimp only
    split
    next => rfl
    next => rw [List.append_nil]; rfl
  · exact exec_command_refused .eventSet tag body s now (decide_eq_true len) .noObject (takeEventSet_noObject body high)

/-! ## The kinds a request names -/

theorem namedKinds_one (k : EventId) : namedKinds (field8 (le8 k.val) 0) = some [k] := by
  have kind : field8 (le8 k.val) 0 = k.val := field8_head k.val (by omega) []
  rw [kind, namedKinds, if_neg (by omega), toIndex_val]
  rfl

theorem namedKinds_all : namedKinds (field8 [255] 0) = some (List.finRange 25) := rfl

theorem namedKinds_none (b : Byte) (high : 24 < b.toNat) (other : b ≠ 255) : namedKinds (field8 [b] 0) = none := by
  have differs : b.toNat ≠ 255 := fun same => other (BitVec.eq_of_toNat_eq same)
  rw [show field8 [b] 0 = b.toNat from rfl, namedKinds, if_neg differs, toIndex_none high]
  rfl

/-- The flags of kinds that have all been given one value (R167). -/
theorem enableFlags_all (s : State) (h : ∀ k : EventId, (s.events[k]).enable = true) : enableFlags s = 2 ^ 25 - 1 := by
  unfold enableFlags flagSum
  rw [List.filter_eq_self.mpr fun k _ => h k]
  rfl

theorem enableFlags_none (s : State) (h : ∀ k : EventId, (s.events[k]).enable = false) : enableFlags s = 0 := by
  unfold enableFlags flagSum
  rw [List.filter_eq_nil_iff.mpr fun k _ => by rw [h k]; exact Bool.false_ne_true]
  rfl

/-! ## Enabling and disabling -/

/-- Every kind with this enable flag, where the list names it. -/
def enabling (b : Bool) (l : List EventId) (v : Vector EventKindState 25) : Vector EventKindState 25 :=
  l.foldl (fun (v : Vector EventKindState 25) (k : EventId) => v.set k { v[k] with enable := b }) v

theorem enabling_all (b : Bool) (v : Vector EventKindState 25) (k : EventId) :
    (enabling b (List.finRange 25) v)[k] = { v[k] with enable := b } :=
  mapAll_get (fun e : EventKindState => { e with enable := b }) v k

/-- The notice that a newly enabled kind whose raw is set offers (R166). -/
def enabledNotice (v : Vector EventKindState 25) (k : EventId) : Option OutEntry :=
  if (v[k]).enable = false ∧ (v[k]).raw = true then ((v[k]).latest).map (fun l => .frame (eventNotice k l)) else none

/-- New event kinds, with these notices at the tail of the outbound queue. -/
def State.noticing (v : Vector EventKindState 25) (l : List OutEntry) (s : State) : State :=
  { s with events := v, link := { s.link with outbound := s.link.outbound ++ l } }

theorem State.noticing_nothing (s : State) : s.noticing s.events [] = s := by simp [State.noticing]

/-- A notice is added while fewer than 24 entries stand and no reset is pending (R7, R11). -/
theorem addNotice_noticing (f : Frame) (s : State) (free : s.link.resetPending = false) :
    addNotice f s = s.noticing s.events ([OutEntry.frame f].take (24 - s.link.outbound.length)) := by
  unfold addNotice
  by_cases room : s.link.outbound.length < 24
  · rw [if_pos ⟨free, room⟩, List.take_of_length_le (by simp only [List.length_singleton]; omega)]
    rfl
  · have full : 24 - s.link.outbound.length = 0 := by omega
    rw [if_neg fun h => room h.2, full, List.take_zero, State.noticing_nothing]

/-- An offer adds the notice of the latest record, if there is one (R166). -/
theorem offerNotice_eq (k : EventId) (s : State) (free : s.link.resetPending = false) :
    offerNotice k s = s.noticing s.events
      ((((s.events[k]).latest).map (fun l => OutEntry.frame (eventNotice k l))).toList.take (24 - s.link.outbound.length)) := by
  unfold offerNotice
  cases (s.events[k]).latest with
  | none =>
    rw [Option.map_none, Option.toList_none, List.take_nil, State.noticing_nothing]
  | some l => exact addNotice_noticing (eventNotice k l) s free

theorem enableKind_enabled (k : EventId) (s : State) (enabled : (s.events[k]).enable = true) : enableKind k s = s := if_pos enabled

theorem enableKind_clear (k : EventId) (s : State) (off : (s.events[k]).enable = false) (clear : (s.events[k]).raw = false) :
    enableKind k s = s.setEvent k { s.events[k] with enable := true } := by
  dsimp only [enableKind]
  rw [if_neg (by rw [off]; exact Bool.false_ne_true), if_neg (by rw [clear]; exact Bool.false_ne_true)]

theorem enableKind_raised (k : EventId) (s : State) (off : (s.events[k]).enable = false) (raw : (s.events[k]).raw = true) :
    enableKind k s = offerNotice k (s.setEvent k { s.events[k] with enable := true }) := by
  dsimp only [enableKind]
  rw [if_neg (by rw [off]; exact Bool.false_ne_true), if_pos raw]

/-- Enabling one kind sets its flag and offers the notice if the kind is newly enabled and raised (R170). -/
theorem enableKind_eq (k : EventId) (s : State) (free : s.link.resetPending = false) :
    enableKind k s = s.noticing (enabling true [k] s.events)
      ((enabledNotice s.events k).toList.take (24 - s.link.outbound.length)) := by
  cases enable : (s.events[k]).enable with
  | true =>
    have same : enabling true [k] s.events = s.events := by
      change s.events.set k { s.events[k] with enable := true } = s.events
      rw [← enable]
      exact Vector.set_getElem_self k.isLt
    rw [enableKind_enabled k s enable, same, enabledNotice, if_neg (by rw [enable]; simp), Option.toList_none, List.take_nil]
    exact (State.noticing_nothing s).symm
  | false =>
    cases raw : (s.events[k]).raw with
    | false =>
      rw [enableKind_clear k s enable raw, enabledNotice, if_neg (by rw [raw]; simp), Option.toList_none, List.take_nil]
      exact (State.noticing_nothing (s.setEvent k _)).symm
    | true =>
      rw [enableKind_raised k s enable raw, offerNotice_eq k _ (by exact free), enabledNotice, if_pos ⟨enable, raw⟩,
        State.setEvent_events, get_set_same]
      rfl

/-- Entries offered one after another, as far as there is room, are those of the two lists together. -/
theorem take_append_room {α : Type} (a b : List α) (room : Nat) :
    (a ++ b).take room = a.take room ++ b.take (room - (a.take room).length) := by
  rw [List.take_append, List.length_take]
  congr 2
  omega

/-- Enabling kinds one after another: their flags, and the notices of the newly enabled raised ones as far as there is room (R170). -/
theorem forEach_enableKind (l : List EventId) (distinct : l.Nodup) (s : State) (free : s.link.resetPending = false) :
    forEach l enableKind s = s.noticing (enabling true l s.events)
      ((l.filterMap (enabledNotice s.events)).take (24 - s.link.outbound.length)) := by
  induction l generalizing s with
  | nil => simp [State.noticing, enabling]
  | cons k l ih =>
    obtain ⟨fresh, distinct⟩ := List.nodup_cons.mp distinct
    have untouched : l.filterMap (enabledNotice (enabling true [k] s.events)) = l.filterMap (enabledNotice s.events) := by
      refine List.filterMap_congr fun j hj => ?_
      have kept : (enabling true [k] s.events)[j] = s.events[j] := get_set_other _ _ _ _ fun same => fresh (same ▸ hj)
      unfold enabledNotice
      rw [kept]
    have offers : (k :: l).filterMap (enabledNotice s.events) =
        (enabledNotice s.events k).toList ++ l.filterMap (enabledNotice s.events) := by
      cases h : enabledNotice s.events k <;> simp [h]
    rw [forEach_cons, enableKind_eq k s free, ih distinct _ (by exact free), offers, take_append_room]
    dsimp only [State.noticing]
    rw [untouched, List.length_append, List.append_assoc, ← Nat.sub_sub]
    rfl

theorem forEach_disableKind (l : List EventId) (s : State) :
    forEach l disableKind s = { s with events := enabling false l s.events } := by
  induction l generalizing s with
  | nil => rfl
  | cons k l ih => rw [forEach_cons, ih]; rfl

/-! ## EVENT_DISABLE and EVENT_ENABLE -/

theorem takeEventDisable_one (k : EventId) (s : State) :
    takeEventDisable (le8 k.val) s = (disableKind k s, .okWith (le8 k.val)) := by
  unfold takeEventDisable
  rw [namedKinds_one]
  rfl

theorem takeEventDisable_all (s : State) :
    takeEventDisable [255] s = ({ s with events := enabling false (List.finRange 25) s.events }, .okWith (le32 0)) := by
  have none : enableFlags { s with events := enabling false (List.finRange 25) s.events } = 0 :=
    enableFlags_none _ fun k => by dsimp only; rw [enabling_all]
  unfold takeEventDisable
  rw [namedKinds_all]
  dsimp only
  rw [forEach_disableKind, ← none]
  rfl

theorem takeEventDisable_noObject (b : Byte) (high : 24 < b.toNat) (other : b ≠ 255) :
    takeEventDisable [b] = fun s => refuse s .noObject := by
  funext s
  unfold takeEventDisable
  rw [namedKinds_none b high other]

theorem takeEventEnable_one (k : EventId) (s : State) (free : s.link.resetPending = false) : takeEventEnable (le8 k.val) s =
    (s.noticing (enabling true [k] s.events) ((enabledNotice s.events k).toList.take (24 - s.link.outbound.length)),
      .okWith (le8 k.val ++ leFlag (s.events[k]).raw)) := by
  have kept : (enabling true [k] s.events)[k] = { s.events[k] with enable := true } := get_set_same _ _ _
  unfold takeEventEnable
  rw [namedKinds_one]
  dsimp only
  rw [forEach_cons, forEach_nil, enableKind_eq k s free]
  dsimp only [State.noticing]
  rw [kept]

theorem takeEventEnable_all (s : State) (free : s.link.resetPending = false) : takeEventEnable [255] s =
    (s.noticing (enabling true (List.finRange 25) s.events)
      (((List.finRange 25).filterMap (enabledNotice s.events)).take (24 - s.link.outbound.length)), .okWith (le32 (2 ^ 25 - 1))) := by
  have flags : ∀ l, enableFlags (s.noticing (enabling true (List.finRange 25) s.events) l) = 2 ^ 25 - 1 := fun l =>
    enableFlags_all _ fun k => by dsimp only [State.noticing]; rw [enabling_all]
  unfold takeEventEnable
  rw [namedKinds_all]
  dsimp only
  rw [forEach_enableKind _ (List.nodup_finRange 25) s free, ← flags]
  rfl

theorem takeEventEnable_noObject (b : Byte) (high : 24 < b.toNat) (other : b ≠ 255) :
    takeEventEnable [b] = fun s => refuse s .noObject := by
  funext s
  unfold takeEventEnable
  rw [namedKinds_none b high other]

/-- The room for notices behind a reply (R11). -/
theorem room_behind_reply (kind tag status : Byte) (fields : List Byte) (s : State) :
    24 - (replied kind tag status fields s).link.outbound.length = 23 - s.link.outbound.length := by
  simp only [replied, List.length_append, List.length_singleton]
  omega

/-- A request's command with its answer known and the state that its work leaves behind the reply. -/
theorem exec_command_taken (k : RequestKind) (tag : Byte) (body : List Byte) (s t : State) (now : ServesNow s)
    (len : k.lengthOk body = true) (r : Reply) (answer : (k.take body (s.addOutbound .reserved)).2 = r)
    (work : (k.take body (replied k.code tag r.status.code r.fields s)).1 = t) : exec (k.command tag body) s = .next t :=
  (exec_command_behind_reply k tag body s now len r answer).trans (congrArg Host.Outcome.next work)

theorem exec_eventDisable_one (tag : Byte) (k : EventId) (s : State) (now : ServesNow s) : exec (.eventDisable tag (le8 k.val)) s =
    .next (replied 0x4C tag 0x00 (le8 k.val) { s with events := enabling false [k] s.events }) := by
  refine exec_command_taken .eventDisable tag _ s _ now rfl (.okWith (le8 k.val)) ?_ ?_
  · exact congrArg Prod.snd (takeEventDisable_one k _)
  · exact congrArg Prod.fst (takeEventDisable_one k _)

theorem exec_eventDisable_all (tag : Byte) (s : State) (now : ServesNow s) : exec (.eventDisable tag [255]) s =
    .next (replied 0x4C tag 0x00 (le32 0) { s with events := enabling false (List.finRange 25) s.events }) := by
  refine exec_command_taken .eventDisable tag _ s _ now rfl (.okWith (le32 0)) ?_ ?_
  · exact congrArg Prod.snd (takeEventDisable_all _)
  · exact congrArg Prod.fst (takeEventDisable_all _)

theorem exec_eventEnable_one (tag : Byte) (k : EventId) (s : State) (now : ServesNow s) : exec (.eventEnable tag (le8 k.val)) s =
    .next ((replied 0x4B tag 0x00 (le8 k.val ++ leFlag (s.events[k]).raw) s).noticing (enabling true [k] s.events)
      ((enabledNotice s.events k).toList.take (23 - s.link.outbound.length))) := by
  obtain ⟨-, -, free, -⟩ := id now
  refine exec_command_taken .eventEnable tag _ s _ now rfl (.okWith (le8 k.val ++ leFlag (s.events[k]).raw)) ?_ ?_
  · exact congrArg Prod.snd (takeEventEnable_one k _ (by exact free))
  · rw [← room_behind_reply 0x4B tag 0x00 (le8 k.val ++ leFlag (s.events[k]).raw)]
    exact congrArg Prod.fst (takeEventEnable_one k _ (by exact free))

theorem exec_eventEnable_all (tag : Byte) (s : State) (now : ServesNow s) : exec (.eventEnable tag [255]) s =
    .next ((replied 0x4B tag 0x00 (le32 (2 ^ 25 - 1)) s).noticing (enabling true (List.finRange 25) s.events)
      (((List.finRange 25).filterMap (enabledNotice s.events)).take (23 - s.link.outbound.length))) := by
  obtain ⟨-, -, free, -⟩ := id now
  refine exec_command_taken .eventEnable tag _ s _ now rfl (.okWith (le32 (2 ^ 25 - 1))) ?_ ?_
  · exact congrArg Prod.snd (takeEventEnable_all _ (by exact free))
  · rw [← room_behind_reply 0x4B tag 0x00 (le32 (2 ^ 25 - 1))]
    exact congrArg Prod.fst (takeEventEnable_all _ (by exact free))

/-- Settles O22: the flags are set kind by kind, and the notices offered meet the room that is left behind the reply. -/
theorem eventEnableAndDisable : Obligations.EventEnableAndDisable := by
  intro tag s now
  refine ⟨fun k => exec_eventDisable_one tag k s now, ⟨_, exec_eventDisable_all tag s now, ?_⟩, fun b high other => ?_,
    fun k => exec_eventEnable_one tag k s now, ⟨_, exec_eventEnable_all tag s now, ?_⟩, fun b high other => ?_⟩
  · exact ⟨fun k => enabling_all false s.events k, rfl⟩
  · exact exec_command_refused .eventDisable tag [b] s now rfl .noObject (takeEventDisable_noObject b high other)
  · refine ⟨fun k => enabling_all true s.events k, ?_⟩
    dsimp only [State.noticing, replied]
    rfl
  · exact exec_command_refused .eventEnable tag [b] s now rfl .noObject (takeEventEnable_noObject b high other)

end Sys2Proof.Machine
end

section
/-! PROOF. The hard reset's values, and the air timer: AIR_STOP and AIR_STATUS, the superframe and its downlink slots. -/

namespace Sys2Proof.Machine

/-! ## The hard reset -/

/-- The uplink sources start in AUTO and the line sources in FIXED (R73). -/
theorem sourcesInitial_get (k : SourceId) : sourcesInitial[k] = .initial (if k.val < 12 then .auto else .fixed) := by
  simp only [sourcesInitial, Fin.getElem_fin, Vector.getElem_set, Vector.getElem_replicate]
  by_cases last : k.val = 13
  · rw [if_pos last.symm, if_neg (by omega)]
  · rw [if_neg (Ne.symm last)]
    by_cases line : k.val = 12
    · rw [if_pos line.symm, if_neg (by omega)]
    · rw [if_neg (Ne.symm line), if_pos (by omega)]

/-- Settles O23: the hard-reset state holds each block's values, and only the waiting commands are carried over. -/
theorem hardResetValues : Obligations.HardResetValues := by
  intro rate1 rate0 ready s
  refine ⟨_, rfl, rfl, ⟨rfl, rfl, rfl, rfl, rfl, rfl, fun i => ?_⟩, ⟨.of_eq initial_freeList, rfl⟩, fun k => ?_, fun c => ?_, rfl,
    ⟨fun r => ?_, fun a => ?_, fun q => idle_queue 0 q, rfl, rfl⟩, rfl, ⟨rfl, rfl, fun k => ?_, fun g => ?_⟩, fun k => ?_⟩
  · exact Vector.getElem_replicate _
  · exact sourcesInitial_get k
  all_goals exact Vector.getElem_replicate _

/-! ## Work off the link -/

/-- A request whose owner neither reads nor writes the link: its work, and its reply behind what the queue holds (R9). -/
theorem exec_command_off_link (k : RequestKind) (tag : Byte) (body : List Byte) (s t : State) (r : Reply) (now : ServesNow s)
    (len : k.lengthOk body = true) (same : t.link = s.link)
    (work : ∀ l : Link, k.take body { s with link := l } = ({ t with link := l }, r)) :
    exec (k.command tag body) s = .next (replied k.code tag r.status.code r.fields t) := by
  refine exec_command_taken k tag body s _ now len r (congrArg Prod.snd (work _)) ((congrArg Prod.fst (work _)).trans ?_)
  rw [replied, same]

/-! ## AIR_STOP and AIR_STATUS -/

/-- The count that AIR_STOP names while the air runs and no stop is pending (R26). -/
def stopCount (a : Air) : Count := if a.due ≤ 38 then a.count else a.count + 1

theorem takeAirStop_stopped (b : List Byte) (s : State) (stopped : s.air.running = false) :
    takeAirStop b s = (s, .okWith (le32 s.air.count.toNat)) := if_pos stopped

theorem takeAirStop_pending (b : List Byte) (s : State) (runs : s.air.running = true) (pending : s.air.stopPending = true) :
    takeAirStop b s = (s, .okWith (le32 s.air.stopAt.toNat)) := by
  simp only [takeAirStop, runs, pending, Bool.true_eq_false, if_false, if_true]

theorem takeAirStop_running (b : List Byte) (s : State) (runs : s.air.running = true) (fresh : s.air.stopPending = false) :
    takeAirStop b s = ({ s with air := { s.air with stopPending := true, stopAt := stopCount s.air } },
      .okWith (le32 (stopCount s.air).toNat)) := by
  rw [takeAirStop, if_neg (by simp [runs]), if_neg (by simp [fresh])]
  rfl

/-- The fields of AIR_STATUS's reply, in the order of R28. -/
def airFields (a : Air) : List Byte :=
  leFlag a.running ++ leFlag a.stopPending ++ leFlag a.ready ++ le32 a.count.toNat ++
    ([match a.lastStop with | .none => 0 | .request => 1 | .readyLost => 2 | .softReset => 3] : List Byte) ++
    (match a.lastBuild with
      | none => ([0, 0, 0, 0, 0, 0, 0] : List Byte)
      | some b => [1] ++ le32 b.count.toNat ++ le8 b.capacity ++ le8 b.placed)

theorem takeAirStatus_eq (b : List Byte) (s : State) : takeAirStatus b s = (s, .okWith (airFields s.air)) := by
  have code : le8 s.air.lastStop.code =
      [match s.air.lastStop with | .none => 0 | .request => 1 | .readyLost => 2 | .softReset => 3] := by
    cases s.air.lastStop <;> rfl
  unfold takeAirStatus airFields
  rw [code]
  cases build : s.air.lastBuild with
  | none => rfl
  | some x => simp only [Option.isSome_some, Option.getD_some, leFlag, if_true, List.append_assoc]

/-- Settles O26: the three cases of AIR_STOP, and a status that only reads. -/
theorem airStopNamesItsSuperframe : Obligations.AirStopNamesItsSuperframe := by
  intro tag s now
  refine ⟨fun stopped => ?_, fun runs pending => ?_, fun runs fresh => ?_, ?_⟩
  · exact exec_command_off_link .airStop tag [] s s (.okWith (le32 s.air.count.toNat)) now rfl rfl
      fun l => takeAirStop_stopped [] { s with link := l } stopped
  · exact exec_command_off_link .airStop tag [] s s (.okWith (le32 s.air.stopAt.toNat)) now rfl rfl
      fun l => takeAirStop_pending [] { s with link := l } runs pending
  · exact exec_command_off_link .airStop tag [] s { s with air := { s.air with stopPending := true, stopAt := stopCount s.air } }
      (.okWith (le32 (stopCount s.air).toNat)) now rfl rfl fun l => takeAirStop_running [] { s with link := l } runs fresh
  · exact exec_command_off_link .airStatus tag [] s s (.okWith (airFields s.air)) now rfl rfl
      fun l => takeAirStatus_eq [] { s with link := l }

/-! ## Superframes and downlink slots -/

theorem exec_superframeStart (s : State) :
    exec .superframeStart s = .next (if s.air.running = true ∧ s.air.due = 39 then startSuperframe s else s) := rfl

/-- The state after a downlink slot that has carried these bytes (R17). -/
def slotSent (i : Fin 24) (bytes : List Byte) (s : State) : State :=
  { s with air := { s.air with due := i.val + 1 }, pins := { s.pins with frameStrobe := false, dataOut := bytes } }

theorem exec_downlinkSlot (i : Fin 24) (s : State) : exec (.downlinkSlot i) s =
    if s.air.running = true ∧ s.air.due ≤ i.val then .next (slotSent i (slotBytes i s.air.image[i]) s) else .next s := rfl

/-- The bytes of an image entry, written out field by field (R175; low byte first by assumption 26). -/
theorem slotBytes_eq (i : Fin 24) (e : SlotEntry) : slotBytes i e = match e with
    | .empty => []
    | .beacon low lines => le8 i.val ++ [0, 255, 1] ++ le16 low.toNat ++ lines.flatMap (fun l =>
        leFlag l.isOpen ++ [l.language.first, l.language.second, l.language.third])
    | .voice c xs => le8 i.val ++ [1] ++ le8 c.val ++ [5] ++ xs.flatMap (fun x => le16 x.toNat)
    | .silence c => le8 i.val ++ [2] ++ le8 c.val ++ [1] ++ List.replicate 64 0
    | .notice n => le8 i.val ++ [3, 255, 1] ++ le16 n.handle ++
        [match n.kind with | .text => 0 | .call => 1 | .retune => 2,
         match n.targetType with | .all => 0 | .channel => 1 | .group => 2 | .device => 3] ++
        le32 n.targetValue.toNat ++ le8 ((n.retuneChannel.map Fin.val).getD 0) ++ le8 n.cellIndex ++ le8 n.cellTotal ++
        le8 n.payloadLength ++ le8 n.transmission ++ n.content := by
  cases e with
  | empty => rfl
  | beacon low lines => rfl
  | voice c xs => rfl
  | silence c => rfl
  | notice n =>
    have kind : le8 n.kind.code = [match n.kind with | .text => 0 | .call => 1 | .retune => 2] := by cases n.kind <;> rfl
    have target : le8 n.targetType.code =
        [match n.targetType with | .all => 0 | .channel => 1 | .group => 2 | .device => 3] := by cases n.targetType <;> rfl
    simp only [slotBytes, NoticeCell.bytes, kind, target, List.append_assoc, List.cons_append, List.nil_append]

/-- Settles O27: a superframe and a slot each in their place, and neither out of it. -/
theorem superframesAndSlots : Obligations.SuperframesAndSlots := by
  intro s
  refine ⟨fun runs due => ?_, fun out => ?_, fun i => ⟨fun runs due => ?_, fun out => ?_⟩⟩
  · rw [exec_superframeStart, if_pos ⟨runs, due⟩]
    rfl
  · rw [exec_superframeStart, if_neg fun ⟨runs, due⟩ => out.elim (by simp [runs]) (absurd due)]
  · exact (if_pos ⟨runs, due⟩).trans (congrArg (fun bytes => Host.Outcome.next (slotSent i bytes s)) (slotBytes_eq i _))
  · rw [exec_downlinkSlot, if_neg fun ⟨runs, due⟩ => out.elim (by simp [runs]) (by omega)]

end Sys2Proof.Machine
end

section
/-! PROOF. The downlink image, read slot by slot, and the first superframe of AIR_START. -/

namespace Sys2Proof.Machine

/-! ## Filling an image -/

theorem fillImage_append (l m : List (Fin 24 × SlotEntry)) (image : Vector SlotEntry 24) :
    fillImage (l ++ m) image = fillImage m (fillImage l image) := List.foldl_append ..

/-- A slot that no entry names keeps its content. -/
theorem fillImage_get_other (l : List (Fin 24 × SlotEntry)) (image : Vector SlotEntry 24) (i : Fin 24) (h : i ∉ l.map Prod.fst) :
    (fillImage l image)[i] = image[i] := by
  induction l generalizing image with
  | nil => rfl
  | cons p l ih =>
    simp only [List.map_cons, List.mem_cons, not_or] at h
    exact (ih _ h.2).trans (get_set_other _ _ _ _ h.1)

/-- A slot that one entry names holds it. -/
theorem fillImage_get_mem (l : List (Fin 24 × SlotEntry)) (once : (l.map Prod.fst).Nodup) (image : Vector SlotEntry 24) (i : Fin 24)
    (e : SlotEntry) (h : (i, e) ∈ l) : (fillImage l image)[i] = e := by
  induction l generalizing image with
  | nil => exact absurd h (List.not_mem_nil)
  | cons p l ih =>
    obtain ⟨fresh, rest⟩ := List.nodup_cons.mp once
    rcases List.mem_cons.mp h with rfl | h
    · exact (fillImage_get_other l _ i fresh).trans (get_set_same _ _ _)
    · exact ih rest _ h

/-! ## The beacon and the voice slots -/

theorem beaconLine_eq (s : State) (c : ChannelId) : beaconLine s c = beaconOf s c := by
  dsimp only [beaconLine, beaconOf]
  generalize s.channels[c] = ch
  obtain ⟨state, live, -⟩ := ch
  cases state <;> cases live <;> rfl

theorem beaconFor_eq (count : Count) (s : State) :
    beaconFor count s = .beacon (count.truncate 16) ((List.finRange 16).map (beaconOf s)) := by
  rw [beaconFor, funext (beaconLine_eq s)]

theorem eq_voiceSlot {c : ChannelId} {i : Fin 24} (h : i.val = c.val + 1) : i = voiceSlot c := Fin.ext h

theorem voiceSlot_injective : Function.Injective voiceSlot := fun a b h => Fin.ext (by simpa [voiceSlot] using h)

/-- The entries of slots 0 to 16: the beacon, and for each channel its voice slot's. -/
def frameEntries (beacon : SlotEntry) (voice : ChannelId → SlotEntry) : List (Fin 24 × SlotEntry) :=
  (0, beacon) :: (List.finRange 16).map (fun c => (voiceSlot c, voice c))

theorem mem_frameEntries_slots {beacon : SlotEntry} {voice : ChannelId → SlotEntry} {i : Fin 24} :
    i ∈ (frameEntries beacon voice).map Prod.fst ↔ i.val ≤ 16 := by
  simp only [frameEntries, List.map_cons, List.map_map, List.mem_cons, List.mem_map, List.mem_finRange, true_and, Function.comp_apply]
  constructor
  · rintro (rfl | ⟨c, rfl⟩)
    · decide
    · exact c.isLt
  · intro h
    by_cases zero : i.val = 0
    · exact .inl (Fin.ext zero)
    · exact .inr ⟨⟨i.val - 1, by omega⟩, Fin.ext (by simp only [voiceSlot]; omega)⟩

theorem frameEntries_once (beacon : SlotEntry) (voice : ChannelId → SlotEntry) : ((frameEntries beacon voice).map Prod.fst).Nodup := by
  simp only [frameEntries, List.map_cons, List.map_map, List.nodup_cons, List.mem_map, List.mem_finRange, true_and, Function.comp_def]
  refine ⟨fun ⟨c, h⟩ => ?_, (List.nodup_finRange 16).map voiceSlot_injective⟩
  exact absurd (congrArg Fin.val h) (Nat.succ_ne_zero c.val)

/-- An image with the beacon and the voice slots filled, and every other slot EMPTY. -/
def frameImage (beacon : SlotEntry) (voice : ChannelId → SlotEntry) : Vector SlotEntry 24 :=
  fillImage (frameEntries beacon voice) imageEmpty

theorem frameImage_beacon (beacon : SlotEntry) (voice : ChannelId → SlotEntry) : (frameImage beacon voice)[(0 : Fin 24)] = beacon :=
  fillImage_get_mem _ (frameEntries_once ..) _ _ _ (List.mem_cons_self ..)

theorem frameImage_voice (beacon : SlotEntry) (voice : ChannelId → SlotEntry) (c : ChannelId) :
    (frameImage beacon voice)[voiceSlot c] = voice c :=
  fillImage_get_mem _ (frameEntries_once ..) _ _ _ (List.mem_cons_of_mem _ (List.mem_map_of_mem (List.mem_finRange c)))

theorem frameImage_rest (beacon : SlotEntry) (voice : ChannelId → SlotEntry) (i : Fin 24) (h : 17 ≤ i.val) :
    (frameImage beacon voice)[i] = .empty :=
  (fillImage_get_other _ _ _ fun mem => absurd (mem_frameEntries_slots.mp mem) (by omega)).trans (Vector.getElem_replicate _)

/-! ## Changing every object named in a list -/

/-- The records of a vector after the same change of each one that a list names. -/
def changing {α : Type} {n : Nat} (f : α → α) (l : List (Fin n)) (v : Vector α n) : Vector α n :=
  l.foldl (fun (w : Vector α n) (i : Fin n) => w.set i (f w[i])) v

theorem changing_get {α : Type} {n : Nat} (f : α → α) (l : List (Fin n)) (once : l.Nodup) (v : Vector α n) (j : Fin n) :
    (changing f l v)[j] = if j ∈ l then f v[j] else v[j] := fold_set_get f v l once v (fun _ _ => rfl) j

/-- Work on each object of a list that changes one field's record of that object alone. -/
theorem forEach_changing {α : Type} {n : Nat} (field : State → Vector α n) (f : α → α) (work : Fin n → State → State)
    (step : ∀ k s, field (work k s) = (field s).set k (f (field s)[k])) (l : List (Fin n)) (s : State) :
    field (forEach l work s) = changing f l (field s) := by
  induction l generalizing s with
  | nil => rfl
  | cons k l ih => rw [forEach_cons, ih, step]; rfl

/-! ## The sources at AIR_START -/

/-- A source called in: WAITING if it was OFF (R50). -/
def Source.calledIn (x : Source) : Source := if x.state = .off then x.rested .waiting else x

theorem sourceWaiting_sources (k : SourceId) (s : State) :
    (sourceWaiting k s).sources = s.sources.set k s.sources[k].calledIn := by
  unfold sourceWaiting Source.calledIn
  split
  · rfl
  · exact (Vector.set_getElem_self _).symm

/-- No source holds a cell in OFF (R46, R49). -/
def OffHoldsNothing (s : State) : Prop := ∀ k : SourceId, s.sources[k].state = .off → s.sources[k].buffer.chain = []

theorem offHoldsNothing_of_sound {s : State} (h : SourcesSound s) : OffHoldsNothing s := fun k off => by
  obtain ⟨-, -, rest⟩ := h k
  obtain ⟨empty, -, -⟩ := rest (.inl off)
  rw [empty]
  rfl

/-- Calling a source in writes the sources alone, since no cell comes back from a source in OFF. -/
theorem sourceWaiting_frame (k : SourceId) (s : State) (h : OffHoldsNothing s) :
    sourceWaiting k s = { s with sources := (sourceWaiting k s).sources } := by
  unfold sourceWaiting
  split
  · next off => simp only [enterRest, returnCells, h k off, List.append_nil]; rfl
  · rfl

theorem sourceWaiting_offHoldsNothing (k : SourceId) (s : State) (h : OffHoldsNothing s) : OffHoldsNothing (sourceWaiting k s) := by
  intro j off
  rw [sourceWaiting_sources, get_set_cases] at off ⊢
  split at off
  · next same =>
    rw [if_pos same]
    unfold Source.calledIn at off ⊢
    split
    · rfl
    · next on => rw [if_neg on] at off; exact absurd off on
  · next other => rw [if_neg other]; exact h j off

theorem forEach_sourceWaiting_frame (l : List SourceId) (s : State) (h : OffHoldsNothing s) :
    forEach l sourceWaiting s = { s with sources := (forEach l sourceWaiting s).sources } := by
  refine (forEach_keeps (fun t => t = { s with sources := t.sources } ∧ OffHoldsNothing t) _ ?_ l s ⟨rfl, h⟩).1
  rintro k t ⟨frame, empty⟩
  refine ⟨(sourceWaiting_frame k t empty).trans ?_, sourceWaiting_offHoldsNothing k t empty⟩
  rw [frame]

/-- The sources that AIR_START sends to WAITING are the ones called in (R25, R50). -/
theorem startsWaiting_iff (s : State) (k : SourceId) : startsWaiting s k = true ↔ CalledIn s k := by
  unfold startsWaiting isLineSource CalledIn
  by_cases line : 12 ≤ k.val
  · have none : ¬∃ e : RosterId, e.val = k.val ∧ (s.roster[e]).isBound = true := fun ⟨e, h, _⟩ => by omega
    simp only [line, decide_true, if_true, true_and, none, or_false]
  · have index : toIndex 12 k.val = some ⟨k.val, by omega⟩ := dif_pos _
    have entry : (∃ e : RosterId, e.val = k.val ∧ (s.roster[e]).isBound = true) ↔ (s.roster[(⟨k.val, by omega⟩ : RosterId)]).isBound = true :=
      ⟨fun ⟨e, h, bound⟩ => by rwa [show e = ⟨k.val, by omega⟩ from Fin.ext h] at bound, fun bound => ⟨_, rfl, bound⟩⟩
    rw [entry]
    simp only [line, decide_false, Bool.false_eq_true, if_false, false_and, false_or, index]
    cases s.roster[(⟨k.val, by omega⟩ : RosterId)] <;> simp [RosterEntry.isBound]

/-! ## AIR_START -/

/-- The sources after AIR_START (R25). -/
def sourcesCalledIn (s : State) : Vector Source 14 :=
  changing Source.calledIn ((List.finRange 14).filter (startsWaiting s)) s.sources

theorem sourcesCalledIn_get (s : State) (k : SourceId) : (sourcesCalledIn s)[k] =
    if s.sources[k].state = .off ∧ CalledIn s k then s.sources[k].rested .waiting else s.sources[k] := by
  have member : k ∈ (List.finRange 14).filter (startsWaiting s) ↔ CalledIn s k := by
    rw [List.mem_filter, startsWaiting_iff]
    exact and_iff_right (List.mem_finRange k)
  rw [sourcesCalledIn, changing_get _ _ ((List.nodup_finRange 14).filter _), Source.calledIn]
  by_cases off : s.sources[k].state = .off <;> by_cases called : CalledIn s k <;> simp only [member, off, called, and_self, and_true,
    and_false, if_true, if_false]

/-- The state of the first superframe (R25). -/
def airStarted (s : State) : State :=
  { s with
    air := { s.air with running := true, count := s.air.count + 1, image := firstImage (s.air.count + 1) s, due := 0,
                        lineTaken0 := false, lineTaken1 := false },
    sources := sourcesCalledIn s, pins := { s.pins with frameStrobe := true, dataOut := [] } }

theorem takeAirStart_refused (b : List Byte) (s : State) (h : s.air.running = true ∨ s.air.ready = false) :
    takeAirStart b s = refuse s .wrongState := by
  unfold takeAirStart
  rcases h with runs | notReady
  · exact if_pos runs
  · rw [if_pos notReady, ite_self]

theorem takeAirStart_starts (b : List Byte) (s : State) (stopped : s.air.running = false) (ready : s.air.ready = true)
    (empty : OffHoldsNothing s) : takeAirStart b s = (airStarted s, .okWith (le32 (s.air.count + 1).toNat)) := by
  have sources : (forEach ((List.finRange 14).filter (startsWaiting s)) sourceWaiting
      { s with air := { s.air with running := true } }).sources = sourcesCalledIn s :=
    forEach_changing State.sources Source.calledIn sourceWaiting sourceWaiting_sources _ _
  rw [takeAirStart, if_neg (by simp [stopped]), if_neg (by simp [ready])]
  dsimp only
  rw [forEach_sourceWaiting_frame _ _ (by exact empty), sources]
  rfl

theorem firstImage_eq (count : Count) (s : State) : firstImage count s =
    frameImage (beaconFor count s) (fun c => if s.channels[c].state = .closed then .empty else .silence c) := rfl

/-- Settles O25: the first image slot by slot, and the sources called in one by one. -/
theorem airStartFormsTheFirstSuperframe : Obligations.AirStartFormsTheFirstSuperframe := by
  intro tag s now sound
  have empty := offHoldsNothing_of_sound sound
  refine ⟨fun h => ?_, fun stopped ready => ⟨replied 0x08 tag 0x00 (le32 (s.air.count + 1).toNat) (airStarted s), ?_, rfl, rfl, ?_,
    fun c i slot => ?_, fun i high => ?_, sourcesCalledIn_get s⟩⟩
  · exact exec_command_off_link .airStart tag [] s s (.bare .wrongState) now rfl rfl
      fun l => takeAirStart_refused [] { s with link := l } h
  · exact exec_command_off_link .airStart tag [] s (airStarted s) (.okWith (le32 (s.air.count + 1).toNat)) now rfl rfl
      fun l => takeAirStart_starts [] { s with link := l } stopped ready empty
  all_goals change (firstImage (s.air.count + 1) s)[_] = _
  · rw [firstImage_eq, frameImage_beacon, beaconFor_eq]
  · obtain rfl := eq_voiceSlot slot
    rw [firstImage_eq, frameImage_voice]
  · rw [firstImage_eq, frameImage_rest _ _ i high]

end Sys2Proof.Machine
end

section
/-! PROOF. The BUILD mark: what the scheduler's placement leaves unchanged, that it fits the capacity, and the image it fills. -/

namespace Sys2Proof.Machine

/-! ## Raises of one kind -/

/-- The air timer stands as it was, the link gains EVENT notices at most, and no kind's record changes but this one's. -/
def RaisesOnly (e : EventId) (s t : State) : Prop :=
  NoticesAdded s t ∧ t.air = s.air ∧ ∀ k : EventId, k ≠ e → t.events[k] = s.events[k]

theorem RaisesOnly.refl (e : EventId) (s : State) : RaisesOnly e s s := ⟨.refl s, rfl, fun _ _ => rfl⟩

theorem RaisesOnly.trans {e : EventId} {s t u : State} (h : RaisesOnly e s t) (g : RaisesOnly e t u) : RaisesOnly e s u := by
  obtain ⟨notices, air, others⟩ := h
  obtain ⟨notices', air', others'⟩ := g
  exact ⟨notices.trans notices' (by rw [air]), air'.trans air, fun k hk => (others' k hk).trans (others k hk)⟩

theorem raise_events (k : EventKind) (o d : Nat) (s : State) : (raise k o d s).events =
    s.events.set k.num ((s.events[k.num]).raised (raiseRecord o (BitVec.ofNat 32 d) false s)) := raiseKind_events ..

theorem raisesOnly_raise (k : EventKind) (o d : Nat) (s : State) : RaisesOnly k.num s (raise k o d s) := by
  refine ⟨noticesAdded_raiseKind .., raise_air .., fun j other => ?_⟩
  rw [raise_events]
  exact get_set_other _ _ _ _ other

/-! ## Expiry -/

theorem expireOne_cases (m : Count) (h : Nat) (s : State) : expireOne m h s = s ∨
    ∃ n : NoticeRecord, expireOne m h s = raise .noticeExpired h n.transmissions (removeNotice n s) := by
  unfold expireOne
  split
  · next n _ =>
    split
    · exact .inr ⟨n, rfl⟩
    · exact .inl rfl
  · exact .inl rfl

/-- An expiry raises NOTICE_EXPIRED alone (R103). -/
theorem expireNotices_raisesOnly (m : Count) (s : State) : RaisesOnly 15 s (expireNotices m s) := by
  refine forEach_keeps (RaisesOnly 15 s) _ (fun h t ht => ht.trans ?_) _ s (.refl 15 s)
  rcases expireOne_cases m h t with same | ⟨n, expired⟩
  · rw [same]
    exact .refl 15 t
  · rw [expired]
    exact raisesOnly_raise .noticeExpired h n.transmissions (removeNotice n t)

/-! ## The scans -/

theorem afterPlacement_frame (m : Count) (n : NoticeRecord) (s : State) :
    afterPlacement m n s = { s with sched := (afterPlacement m n s).sched, pool := (afterPlacement m n s).pool } := by
  unfold afterPlacement
  split <;> rfl

/-- What becomes of a handle in a scan: it is passed over, or its record is placed, with room for its cells (R105). -/
theorem scanOne_cases (m : Count) (cls : NoticeClass) (p : Placement) (h : Nat) :
    ((scanOne m cls p h).state = p.state ∧ (scanOne m cls p h).room = p.room ∧ (scanOne m cls p h).cells = p.cells) ∨
      ∃ n : NoticeRecord, n.cells.length ≤ p.room ∧ (scanOne m cls p h).state = afterPlacement m n p.state ∧
        (scanOne m cls p h).room = p.room - n.cells.length ∧ (scanOne m cls p h).cells = p.cells ++ n.placed := by
  unfold scanOne
  split
  · exact .inl ⟨rfl, rfl, rfl⟩
  · next n _ =>
    split
    · exact .inl ⟨rfl, rfl, rfl⟩
    · dsimp only
      split
      · exact .inl ⟨rfl, rfl, rfl⟩
      · next fits => exact .inr ⟨n, Nat.le_of_not_lt fits, rfl, rfl, rfl⟩

/-- What each scanned handle keeps, the two scans keep. -/
theorem scans_keeps (P : Placement → Prop) (m : Count) (step : ∀ cls p h, P p → P (scanOne m cls p h)) (capacity : Nat) (s : State)
    (start : P { state := { s with sched := { s.sched with lateFlag := false } }, room := capacity, cells := [],
                 routineEligible := false, routinePlaced := false }) : P (scans m capacity s) := by
  have queue : ∀ cls p, P p → P (scanQueue m cls p) := fun cls p hp => by
    unfold scanQueue
    generalize p.state.sched.queue cls = l
    induction l generalizing p with
    | nil => exact hp
    | cons h l ih => exact ih _ (step cls p h hp)
  unfold scans
  split
  · exact queue _ _ (queue _ _ start)
  · exact queue _ _ (queue _ _ start)

/-- After the expiry a placement changes the notice table and the cell store alone (6.5). -/
theorem placeNotices_frame (m : Count) (capacity : Nat) (s : State) : (placeNotices m capacity s).1 =
    { expireNotices m s with sched := (placeNotices m capacity s).1.sched, pool := (placeNotices m capacity s).1.pool } := by
  have placed := scans_keeps (fun p => p.state = { expireNotices m s with sched := p.state.sched, pool := p.state.pool }) m
    (fun cls p h hp => ?_) capacity (expireNotices m s) rfl
  · rw [placeNotices_eq]
    unfold updateLate
    dsimp only
    split
    all_goals
      rw [placed]
  · rcases scanOne_cases m cls p h with ⟨state, -, -⟩ | ⟨n, -, state, -, -⟩
    · rw [state]
      exact hp
    · rw [state, afterPlacement_frame, hp]

/-- The cells that come back fit the capacity (R105). -/
theorem placeNotices_fit (m : Count) (capacity : Nat) (s : State) : (placeNotices m capacity s).2.length ≤ capacity := by
  have room := scans_keeps (fun p => p.cells.length + p.room = capacity) m (fun cls p h hp => ?_) capacity (expireNotices m s)
    (Nat.zero_add capacity)
  · rw [placeNotices_eq]
    exact Nat.le.intro room
  · rcases scanOne_cases m cls p h with ⟨-, room, cells⟩ | ⟨n, fits, -, room, cells⟩
    · rw [room, cells, hp]
    · have placed : n.placed.length = n.cells.length := by simp [NoticeRecord.placed]
      rw [room, cells, List.length_append, placed]
      omega

theorem placeNotices_raisesOnly (m : Count) (capacity : Nat) (s : State) : RaisesOnly 15 s (placeNotices m capacity s).1 := by
  rw [placeNotices_frame]
  exact expireNotices_raisesOnly m s

theorem eq_of_offNotices {s t : State} (h : t.offNotices = s.offNotices) :
    t = { s with sched := t.sched, pool := t.pool, events := t.events, link := t.link } := by
  obtain ⟨⟩ := s
  obtain ⟨⟩ := t
  simp only [State.offNotices, State.offEvents, State.mk.injEq] at h ⊢
  simp only [h, and_self]

/-! ## The notice cells in the image -/

/-- Entries put into places that are all different: the n-th place holds the n-th entry, or its content where the entries end. -/
theorem fillImage_zip_get (places : List (Fin 24)) (once : places.Nodup) (entries : List SlotEntry) (image : Vector SlotEntry 24)
    (n : Nat) (i : Fin 24) (h : places[n]? = some i) : (fillImage (places.zip entries) image)[i] = (entries[n]?).getD image[i] := by
  induction places generalizing entries image n with
  | nil => cases h
  | cons a places ih =>
    obtain ⟨fresh, rest⟩ := List.nodup_cons.mp once
    cases entries with
    | nil => rfl
    | cons e entries =>
      change (fillImage (places.zip entries) (image.set a e))[i] = _
      cases n with
      | zero =>
        obtain rfl : a = i := Option.some.inj h
        refine (fillImage_get_other _ _ a fun mem => fresh ?_).trans (get_set_same _ _ _)
        obtain ⟨p, pmem, rfl⟩ := List.mem_map.mp mem
        exact (List.of_mem_zip pmem).1
      | succ n =>
        have other : i ≠ a := fun e => fresh (e ▸ List.mem_of_getElem? h)
        rw [ih rest entries (image.set a e) n h, get_set_other _ _ _ _ other]
        rfl

theorem mem_closedChannels {s : State} {c : ChannelId} : c ∈ closedChannels s ↔ s.channels[c].state = .closed := by
  simp [closedChannels]

theorem mem_noticePositions {s : State} {i : Fin 24} :
    i ∈ noticePositions s ↔ 17 ≤ i.val ∨ ∃ c, s.channels[c].state = .closed ∧ voiceSlot c = i := by
  have high : ∀ i : Fin 24, i ∈ noticeSlots ↔ 17 ≤ i.val := by decide
  simp only [noticePositions, List.mem_append, high, List.mem_map, mem_closedChannels]

theorem noticePositions_once (s : State) : (noticePositions s).Nodup := by
  refine List.nodup_append.mpr ⟨by decide, ((List.nodup_finRange 16).filter _).map voiceSlot_injective, ?_⟩
  rintro a high b lent rfl
  obtain ⟨c, -, rfl⟩ := List.mem_map.mp lent
  have below : ∀ c, voiceSlot c ∉ noticeSlots := by decide
  exact below c high

theorem imageFor_eq (count : Count) (cells : List NoticeCell) (s : State) : imageFor count cells s =
    fillImage ((noticePositions s).zip (cells.map SlotEntry.notice)) (frameImage (beaconFor count s) (voiceEntry s)) :=
  fillImage_append ..

/-- A slot that is no notice cell's place. -/
theorem imageFor_get_other (count : Count) (cells : List NoticeCell) (s : State) (i : Fin 24) (h : i ∉ noticePositions s) :
    (imageFor count cells s)[i] = (frameImage (beaconFor count s) (voiceEntry s))[i] := by
  rw [imageFor_eq]
  refine fillImage_get_other _ _ i fun mem => h ?_
  obtain ⟨p, pmem, rfl⟩ := List.mem_map.mp mem
  exact (List.of_mem_zip pmem).1

theorem voiceEntry_closed (s : State) (c : ChannelId) (h : s.channels[c].state = .closed) : voiceEntry s c = .empty := by
  simp only [voiceEntry, h]

theorem voiceEntry_voice (s : State) (c : ChannelId) (k : SourceId) (xs : List Sample) (p : Nat) (isOpen : s.channels[c].state ≠ .closed)
    (heard : s.channels[c].state ≠ .silent) (active : s.channels[c].activeSource = some k) (block : s.sources[k].block = .samples xs p) :
    voiceEntry s c = .voice c xs := by
  cases state : s.channels[c].state <;> simp_all [voiceEntry]

theorem voiceEntry_silence (s : State) (c : ChannelId) (isOpen : s.channels[c].state ≠ .closed)
    (h : s.channels[c].state = .silent ∨ s.channels[c].activeSource = none ∨
      ∃ k, s.channels[c].activeSource = some k ∧ (s.sources[k].block = .none ∨ s.sources[k].block = .silence)) :
    voiceEntry s c = .silence c := by
  rcases h with silent | none | ⟨k, active, none | silence⟩
  · simp only [voiceEntry, silent]
  all_goals cases state : s.channels[c].state <;> simp_all [voiceEntry]

/-- The n-th place of the notice cells holds the n-th cell, or nothing (R22). -/
theorem imageFor_notice (count : Count) (cells : List NoticeCell) (s : State) (n : Nat) (i : Fin 24)
    (h : (noticePositions s)[n]? = some i) :
    (imageFor count cells s)[i] = match cells[n]? with | some x => .notice x | none => .empty := by
  have empty : (frameImage (beaconFor count s) (voiceEntry s))[i] = .empty := by
    rcases mem_noticePositions.mp (List.mem_of_getElem? h) with high | ⟨c, closed, rfl⟩
    · exact frameImage_rest _ _ i high
    · rw [frameImage_voice, voiceEntry_closed s c closed]
  rw [imageFor_eq, fillImage_zip_get _ (noticePositions_once s) _ _ n i h, empty, List.getElem?_map]
  cases cells[n]? <;> rfl

theorem imageFor_beacon (count : Count) (cells : List NoticeCell) (s : State) : (imageFor count cells s)[(0 : Fin 24)] =
    .beacon (count.truncate 16) ((List.finRange 16).map (beaconOf s)) := by
  have apart : (0 : Fin 24) ∉ noticePositions s := fun mem => by
    rcases mem_noticePositions.mp mem with high | ⟨c, -, slot⟩
    · exact absurd high (by decide)
    · exact absurd (congrArg Fin.val slot) (Nat.succ_ne_zero c.val)
  rw [imageFor_get_other _ _ _ _ apart, frameImage_beacon, beaconFor_eq]

theorem imageFor_voice (count : Count) (cells : List NoticeCell) (s : State) (c : ChannelId) (isOpen : s.channels[c].state ≠ .closed) :
    (imageFor count cells s)[voiceSlot c] = voiceEntry s c := by
  have apart : voiceSlot c ∉ noticePositions s := fun mem => by
    rcases mem_noticePositions.mp mem with high | ⟨d, closed, slot⟩
    · have := c.isLt
      simp only [voiceSlot] at high
      omega
    · exact isOpen (voiceSlot_injective slot ▸ closed)
  rw [imageFor_get_other _ _ _ _ apart, frameImage_voice]

/-! ## The BUILD mark -/

theorem exec_buildMark (order : List ChannelId) (s : State) : exec (.buildMark order) s =
    if s.air.running = true ∧ s.air.due = 38 then
      .next (if s.air.stopPending then stopAir .request order s else buildImage s)
    else .next s := rfl

/-- A build writes the air timer's record and what the placement writes. -/
theorem buildImage_frame (s : State) : buildImage s = { s with
    air := (buildImage s).air, sched := (buildImage s).sched, pool := (buildImage s).pool, events := (buildImage s).events,
    link := (buildImage s).link } := by
  unfold buildImage
  dsimp only
  rw [eq_of_offNotices (placeNotices_offNotices (s.air.count + 1) (noticeCapacity s) s)]

theorem buildImage_image (s : State) : (buildImage s).air.image =
    imageFor (s.air.count + 1) (placeNotices (s.air.count + 1) (noticeCapacity s) s).2 s := by
  simp only [buildImage]

/-- A build keeps the air timer's record but for the image, last_build and the place (R20). -/
theorem buildImage_air (s : State) : (buildImage s).air = { s.air with
    image := (buildImage s).air.image, due := 39,
    lastBuild := some { count := s.air.count + 1, capacity := noticeCapacity s,
                        placed := (placeNotices (s.air.count + 1) (noticeCapacity s) s).2.length } } := by
  obtain ⟨-, air, -⟩ := placeNotices_raisesOnly (s.air.count + 1) (noticeCapacity s) s
  rw [buildImage_image, buildImage]
  dsimp only
  rw [air]
  rfl

/-- The places of the claim are the scheduler's positions. -/
theorem noticePositions_vals (s : State) : (noticePositions s).map Fin.val = [17, 18, 19, 20, 21, 22, 23] ++
    ((List.finRange 16).filter (fun c => decide (s.channels[c].state = .closed))).map (fun c => c.val + 1) := by
  rw [noticePositions, List.map_append, List.map_map]
  rfl

/-- Settles O28: the placement as it is, its cells within the capacity, and the image slot by slot. -/
theorem buildFillsTheImage : Obligations.BuildFillsTheImage := by
  intro order s
  refine ⟨fun out => ?_, fun runs due fresh => ?_⟩
  · rw [exec_buildMark, if_neg fun ⟨runs, due⟩ => out.elim (by simp [runs]) (absurd due)]
  obtain ⟨notices, -, others⟩ := placeNotices_raisesOnly (s.air.count + 1) (noticeCapacity s) s
  refine ⟨buildImage s, ?_, buildImage_frame s, buildImage_air s, rfl, rfl, rfl, rfl, notices, placeNotices_fit .., others, ?_,
    fun c i slot isOpen => ?_, fun n i place => ?_⟩
  · rw [exec_buildMark, if_pos ⟨runs, due⟩, fresh]
    rfl
  all_goals rw [buildImage_image]
  · exact imageFor_beacon ..
  · obtain rfl := eq_voiceSlot slot
    rw [imageFor_voice _ _ _ _ isOpen]
    exact ⟨fun k xs p heard active block => voiceEntry_voice s c k xs p isOpen heard active block, voiceEntry_silence s c isOpen⟩
  · refine imageFor_notice _ _ _ n i ?_
    rw [← noticePositions_vals, List.getElem?_map] at place
    obtain ⟨j, at_, same⟩ := Option.map_eq_some_iff.mp place
    rwa [Fin.ext same] at at_

end Sys2Proof.Machine
end

section
/-! PROOF. A stop of the air: the sources go OFF and their cells come back, the channels take their steps, and what is raised. -/

namespace Sys2Proof.Machine

/-- Work that raises nothing and adds nothing to the link. -/
theorem NoticesAdded.of_same {s t : State} (events : t.events = s.events) (link : t.link = s.link) : NoticesAdded s t := by
  unfold NoticesAdded
  rw [events, link]
  exact NoticesAdded.refl s

/-! ## The cells of the elastic buffers -/

/-- Writing a source's record changes the buffers' cells by that record's. -/
theorem bufferCells_setSource (k : SourceId) (x : Source) (s : State) :
    bufferCells (s.setSource k x) + s.sources[k].buffer.chain.length = bufferCells s + x.buffer.chain.length := by
  have others : ∑ j ∈ Finset.univ.erase k, (s.setSource k x).sources[j].buffer.chain.length =
      ∑ j ∈ Finset.univ.erase k, s.sources[j].buffer.chain.length :=
    Finset.sum_congr rfl fun j mem => by rw [State.setSource_sources, get_set_other _ _ _ _ (Finset.ne_of_mem_erase mem)]
  have written : (s.setSource k x).sources[k] = x := get_set_same _ _ _
  unfold bufferCells
  rw [← Finset.sum_erase_add _ _ (Finset.mem_univ k), ← Finset.sum_erase_add _ _ (Finset.mem_univ k), others, written]
  omega

/-- Work on neither the cell store nor the sources. -/
theorem CellsReturned.of_same {s t : State} (pool : t.pool = s.pool) (sources : t.sources = s.sources) : CellsReturned s t := by
  unfold CellsReturned bufferCells
  rw [pool, sources]
  exact ⟨rfl, rfl⟩

theorem CellsReturned.trans {s t u : State} (h : CellsReturned s t) (g : CellsReturned t u) : CellsReturned s u :=
  ⟨g.1.trans h.1, g.2.trans h.2⟩

/-- A source that comes to rest gives its cells back (R39, R46). -/
theorem cellsReturned_enterRest (st : SourceState) (k : SourceId) (s : State) : CellsReturned s (enterRest st k s) := by
  refine ⟨rfl, ?_⟩
  have moved := bufferCells_setSource k (s.sources[k].rested st) s
  have flushed : (s.sources[k].rested st).buffer.chain.length = 0 := rfl
  have same : bufferCells (enterRest st k s) = bufferCells (s.setSource k (s.sources[k].rested st)) := rfl
  rw [enterRest_freeList, List.length_append, same]
  omega

/-! ## The sources at a stop -/

/-- A source at a stop of the air: OFF (R50). -/
def Source.switchedOff (x : Source) : Source := if x.state = .off then x else x.rested .off

theorem sourceOff_sources (k : SourceId) (s : State) : (sourceOff k s).sources = s.sources.set k s.sources[k].switchedOff := by
  unfold sourceOff Source.switchedOff
  split
  · exact (Vector.set_getElem_self _).symm
  · rfl

theorem sourceOff_frame (k : SourceId) (s : State) :
    sourceOff k s = { s with sources := (sourceOff k s).sources, pool := (sourceOff k s).pool } := by
  unfold sourceOff
  split <;> rfl

theorem cellsReturned_sourceOff (k : SourceId) (s : State) : CellsReturned s (sourceOff k s) := by
  unfold sourceOff
  split
  · exact .of_same rfl rfl
  · exact cellsReturned_enterRest .off k s

/-- All sources switched off, one after another (R24). -/
def sourcesOff (s : State) : State := forEach (List.finRange 14) sourceOff s

theorem sourcesOff_frame (s : State) : sourcesOff s = { s with sources := (sourcesOff s).sources, pool := (sourcesOff s).pool } := by
  refine forEach_keeps (fun t => t = { s with sources := t.sources, pool := t.pool }) _ (fun k t ht => ?_) _ s rfl
  rw [sourceOff_frame k t, ht]

theorem sourcesOff_air (s : State) : (sourcesOff s).air = s.air := by rw [sourcesOff_frame]
theorem sourcesOff_channels (s : State) : (sourcesOff s).channels = s.channels := by rw [sourcesOff_frame]
theorem sourcesOff_events (s : State) : (sourcesOff s).events = s.events := by rw [sourcesOff_frame]
theorem sourcesOff_link (s : State) : (sourcesOff s).link = s.link := by rw [sourcesOff_frame]

theorem sourcesOff_get (s : State) (k : SourceId) : (sourcesOff s).sources[k] = s.sources[k].switchedOff := by
  have sources : (sourcesOff s).sources = changing Source.switchedOff (List.finRange 14) s.sources :=
    forEach_changing State.sources Source.switchedOff sourceOff sourceOff_sources _ s
  rw [sources, changing_get _ _ (List.nodup_finRange 14), if_pos (List.mem_finRange k)]

theorem cellsReturned_sourcesOff (s : State) : CellsReturned s (sourcesOff s) :=
  forEach_keeps (CellsReturned s) _ (fun k t ht => ht.trans (cellsReturned_sourceOff k t)) _ s (.of_same rfl rfl)

/-! ## A channel at a stop -/

/-- A channel after the apply of its staged plan (R77 steps 1 to 4). -/
def Channel.applied (ch : Channel) : Channel :=
  match ch.stagedPlan with
  | none => { ch with applyPending := false }
  | some p => { ch with state := if ch.state = .closed then .silent else ch.state, livePlan := some p, stagedPlan := none,
                        applyPending := false, bridgeCount := 0, revertCandidate := none, revertCount := 0 }

/-- A channel that produces nothing any more: LIVE and BRIDGING become SILENT (R90). -/
def Channel.hushed (ch : Channel) : Channel := if ch.state = .live ∨ ch.state = .bridging then ch.silenced else ch

/-- A channel after its part in a stop of the air (R90). -/
def Channel.stopped (ch : Channel) : Channel := (if ch.applyPending then ch.applied else ch).hushed

/-- A stop of the air applies a plan of this channel (R90). -/
abbrev Channel.Applies (ch : Channel) : Prop := ch.applyPending = true ∧ ch.stagedPlan ≠ none

theorem raise_setChannel (k : EventKind) (o d : Nat) (c : ChannelId) (x : Channel) (s : State) :
    raise k o d (s.setChannel c x) = (raise k o d s).setChannel c x := by
  simp only [raise, raiseKind_eq]
  rfl

theorem setChannel_setChannel (c : ChannelId) (x y : Channel) (s : State) : (s.setChannel c x).setChannel c y = s.setChannel c y := by
  simp only [State.setChannel, Vector.set_set]

theorem setChannel_self (c : ChannelId) (s : State) : s.setChannel c s.channels[c] = s := by
  simp only [State.setChannel, Fin.getElem_fin, Vector.set_getElem_self]

/-- An apply reports its plan, if one is staged (R77, R83). -/
theorem applyPlan_eq (c : ChannelId) (d : Nat) (s : State) : applyPlan c d s =
    (if s.channels[c].stagedPlan = none then s else raise .planApplied c.val d s).setChannel c s.channels[c].applied := by
  dsimp only [applyPlan, Channel.applied]
  cases s.channels[c].stagedPlan with
  | none => rw [if_pos rfl]
  | some p => rw [if_neg (Option.some_ne_none p)]; exact raise_setChannel ..

theorem hush_eq (c : ChannelId) (s : State) :
    (if s.channels[c].state = .live ∨ s.channels[c].state = .bridging then s.setChannel c s.channels[c].silenced else s) =
      s.setChannel c s.channels[c].hushed := by
  rw [Channel.hushed, apply_ite (s.setChannel c), setChannel_self]

/-- A channel's part in a stop: its record, and PLAN_APPLIED with detail 3 if it applies a plan (R83, R90). -/
theorem stopChannel_eq (c : ChannelId) (s : State) : stopChannel c s =
    (if s.channels[c].Applies then raise .planApplied c.val 3 s else s).setChannel c s.channels[c].stopped := by
  dsimp only [stopChannel, Channel.stopped]
  rw [hush_eq]
  by_cases pending : s.channels[c].applyPending = true
  · simp only [Channel.Applies, pending, if_true, applyPlan_eq, setChannel_setChannel, State.setChannel_channels, get_set_same,
      true_and, ne_eq, ite_not]
  · simp only [Channel.Applies, pending, false_and, if_false, Bool.false_eq_true]

theorem stopChannel_channels (c : ChannelId) (s : State) :
    (stopChannel c s).channels = s.channels.set c s.channels[c].stopped := by
  rw [stopChannel_eq]
  split
  · rw [State.setChannel_channels, raise_channels]
  · rfl

theorem stopChannel_raisesOnly (c : ChannelId) (s : State) : RaisesOnly 14 s (stopChannel c s) := by
  rw [stopChannel_eq]
  split
  · exact raisesOnly_raise .planApplied c.val 3 s
  · exact .refl 14 s

/-- A channel's record after a stop, case by case (R90). -/
theorem stopped_cases (ch : Channel) :
    let quiet := { ch with state := .silent, activeSource := none, bridgeCount := 0, revertCandidate := none, revertCount := 0 }
    (ch.applyPending = false → ch.state = .closed ∨ ch.state = .silent → ch.stopped = ch) ∧
    (ch.applyPending = false → ch.state = .live ∨ ch.state = .bridging → ch.stopped = quiet) ∧
    (∀ p, ch.applyPending = true → ch.stagedPlan = some p → ch.state = .closed ∨ ch.state = .silent → ch.stopped =
      { ch with state := .silent, livePlan := some p, stagedPlan := none, applyPending := false, bridgeCount := 0,
                revertCandidate := none, revertCount := 0 }) ∧
    (∀ p, ch.applyPending = true → ch.stagedPlan = some p → ch.state = .live ∨ ch.state = .bridging → ch.stopped =
      { quiet with livePlan := some p, stagedPlan := none, applyPending := false }) := by
  refine ⟨fun idle state => ?_, fun idle state => ?_, fun p pending staged state => ?_, fun p pending staged state => ?_⟩
  all_goals rcases state with state | state
  all_goals simp_all [Channel.stopped, Channel.hushed, Channel.applied, Channel.silenced]

/-! ## The channels at a stop -/

/-- All channels stopped, one after another in an order of all (R90). -/
def channelsStopped (order : List ChannelId) (s : State) : State := forEach (fullOrder order) stopChannel s

theorem channelsStopped_get (order : List ChannelId) (s : State) (c : ChannelId) :
    (channelsStopped order s).channels[c] = s.channels[c].stopped := by
  have channels : (channelsStopped order s).channels = changing Channel.stopped (fullOrder order) s.channels :=
    forEach_changing State.channels Channel.stopped stopChannel stopChannel_channels _ s
  have all := fullOrder_perm order
  rw [channels, changing_get _ _ (all.nodup_iff.mpr (List.nodup_finRange 16)), if_pos (all.mem_iff.mpr (List.mem_finRange c))]

theorem channelsStopped_raisesOnly (order : List ChannelId) (s : State) : RaisesOnly 14 s (channelsStopped order s) :=
  forEach_keeps (RaisesOnly 14 s) _ (fun c t ht => ht.trans (stopChannel_raisesOnly c t)) _ s (.refl 14 s)

theorem eq_of_offChannels {s t : State} (h : t.offChannels = s.offChannels) :
    t = { s with channels := t.channels, events := t.events, link := t.link } := by
  obtain ⟨⟩ := s
  obtain ⟨⟩ := t
  simp only [State.offChannels, State.offEvents, State.mk.injEq] at h ⊢
  simp only [h, and_self]

theorem channelsStopped_frame (order : List ChannelId) (s : State) : channelsStopped order s =
    { s with channels := (channelsStopped order s).channels, events := (channelsStopped order s).events,
             link := (channelsStopped order s).link } :=
  eq_of_offChannels (forEach_same State.offChannels _ (fun c t => stopChannel_offChannels c t) _ s)

theorem channelsStopped_pool (order : List ChannelId) (s : State) : (channelsStopped order s).pool = s.pool := by
  rw [channelsStopped_frame]
theorem channelsStopped_sources (order : List ChannelId) (s : State) : (channelsStopped order s).sources = s.sources := by
  rw [channelsStopped_frame]

/-- PLAN_APPLIED is set, and its latest raise was made by a stop (R83, R90). -/
def ReportsStopApply (s : State) : Prop :=
  (s.events[(14 : EventId)]).raw = true ∧ (s.events[(14 : EventId)]).latest.map LatestRecord.detail = some 3

theorem reportsStopApply_raise (c : ChannelId) (s : State) : ReportsStopApply (raise .planApplied c.val 3 s) := by
  have record : (raise .planApplied c.val 3 s).events[(14 : EventId)] =
      (s.events[(14 : EventId)]).raised (raiseRecord c.val 3 false s) := by
    rw [raise_events]
    exact get_set_same _ _ _
  unfold ReportsStopApply
  rw [record]
  exact ⟨rfl, rfl⟩

theorem stopChannel_keeps_report (c : ChannelId) (s : State) (h : ReportsStopApply s) : ReportsStopApply (stopChannel c s) := by
  rw [stopChannel_eq]
  split
  · exact reportsStopApply_raise c s
  · exact h

/-- If one of the channels applies a plan, the last report stands (R166 leaves their order open). -/
theorem forEach_stopChannel_reports (l : List ChannelId) (s : State) (c : ChannelId) (mem : c ∈ l) (applies : s.channels[c].Applies) :
    ReportsStopApply (forEach l stopChannel s) := by
  induction l generalizing s with
  | nil => exact absurd mem List.not_mem_nil
  | cons a l ih =>
    by_cases same : c = a
    · subst same
      refine forEach_keeps ReportsStopApply stopChannel stopChannel_keeps_report l _ ?_
      change ReportsStopApply (stopChannel c s)
      rw [stopChannel_eq, if_pos applies]
      exact reportsStopApply_raise c s
    · refine ih _ (List.mem_of_ne_of_mem same mem) ?_
      rwa [stopChannel_channels, get_set_other _ _ _ _ same]

theorem channelsStopped_reports (order : List ChannelId) (s : State) (c : ChannelId) (applies : s.channels[c].Applies) :
    ReportsStopApply (channelsStopped order s) :=
  forEach_stopChannel_reports _ s c ((fullOrder_perm order).mem_iff.mpr (List.mem_finRange c)) applies

/-! ## A stop of the air -/

/-- What a stop of the air writes itself, before the sources and the channels take their part (R24). -/
def airStopped (reason : StopReason) (s : State) : State :=
  { s with
    air := { s.air with running := false, stopPending := false, lastStop := reason, image := imageEmpty, due := 0,
                        lineTaken0 := false, lineTaken1 := false },
    pins := { s.pins with frameStrobe := false, dataOut := [] } }

theorem stopAir_eq (reason : StopReason) (order : List ChannelId) (s : State) :
    stopAir reason order s = channelsStopped order (sourcesOff (airStopped reason s)) := rfl

/-- A stop writes the air timer, the pins, the sources with the cell store, the channels, and what raises write. -/
theorem stopAir_frame (reason : StopReason) (order : List ChannelId) (s : State) : stopAir reason order s =
    { airStopped reason s with
      sources := (stopAir reason order s).sources, pool := (stopAir reason order s).pool,
      channels := (stopAir reason order s).channels, events := (stopAir reason order s).events,
      link := (stopAir reason order s).link } := by
  rw [stopAir_eq, channelsStopped_frame, sourcesOff_frame]

theorem stopAir_air (reason : StopReason) (order : List ChannelId) (s : State) :
    (stopAir reason order s).air = (airStopped reason s).air := by rw [stopAir_frame]

theorem stopAir_pins (reason : StopReason) (order : List ChannelId) (s : State) :
    (stopAir reason order s).pins = (airStopped reason s).pins := by rw [stopAir_frame]

/-- Every source goes OFF (R24, R50). -/
theorem stopAir_source (reason : StopReason) (order : List ChannelId) (s : State) (k : SourceId) :
    (stopAir reason order s).sources[k] = s.sources[k].switchedOff := by
  rw [stopAir_eq, channelsStopped_sources, sourcesOff_get]
  rfl

/-- The buffers' cells are free again (R46). -/
theorem stopAir_cellsReturned (reason : StopReason) (order : List ChannelId) (s : State) : CellsReturned s (stopAir reason order s) := by
  have begun : CellsReturned s (airStopped reason s) := .of_same rfl rfl
  rw [stopAir_eq]
  exact (begun.trans (cellsReturned_sourcesOff _)).trans (.of_same (channelsStopped_pool ..) (channelsStopped_sources ..))

/-- Every channel takes its steps of R90. -/
theorem stopAir_channel (reason : StopReason) (order : List ChannelId) (s : State) (c : ChannelId) :
    (stopAir reason order s).channels[c] = s.channels[c].stopped := by
  rw [stopAir_eq, channelsStopped_get, sourcesOff_channels]
  rfl

/-- A stop raises PLAN_APPLIED alone (R90). -/
theorem stopAir_events (reason : StopReason) (order : List ChannelId) (s : State) (k : EventId) (other : k ≠ 14) :
    (stopAir reason order s).events[k] = s.events[k] := by
  obtain ⟨-, -, others⟩ := channelsStopped_raisesOnly order (sourcesOff (airStopped reason s))
  rw [stopAir_eq, others k other, sourcesOff_events]
  rfl

theorem stopAir_noticesAdded (reason : StopReason) (order : List ChannelId) (s : State) : NoticesAdded s (stopAir reason order s) := by
  obtain ⟨notices, -, -⟩ := channelsStopped_raisesOnly order (sourcesOff (airStopped reason s))
  have quiet : NoticesAdded s (sourcesOff (airStopped reason s)) := .of_same (sourcesOff_events _) (sourcesOff_link _)
  rw [stopAir_eq]
  exact quiet.trans notices (by rw [sourcesOff_air]; rfl)

theorem stopAir_reports (reason : StopReason) (order : List ChannelId) (s : State)
    (h : ∃ c : ChannelId, s.channels[c].applyPending = true ∧ s.channels[c].stagedPlan ≠ none) :
    ReportsStopApply (stopAir reason order s) := by
  obtain ⟨c, applies⟩ := h
  rw [stopAir_eq]
  refine channelsStopped_reports order _ c ?_
  rw [sourcesOff_channels]
  exact applies

/-! ## The ready line -/

/-- The ready line has fallen, and nothing else is done yet (R27). -/
def fallen (s : State) : State :=
  { s with air := { s.air with ready := false }, pins := { s.pins with readyLine := false } }

theorem exec_readyLineFall (order : List ChannelId) (s : State) : exec (.readyLineFall order) s =
    .next (if s.air.running then raise .radioDown 0 0 (stopAir .readyLost order (fallen s)) else fallen s) := rfl

theorem raise_frame (k : EventKind) (o d : Nat) (s : State) :
    raise k o d s = { s with events := (raise k o d s).events, link := (raise k o d s).link } := by
  rw [raise, raiseKind_eq]

/-- RADIO_DOWN leaves the other kinds' records (R27). -/
theorem radioDown_events (s : State) (k : EventId) (other : k ≠ 1) : (raise .radioDown 0 0 s).events[k] = s.events[k] := by
  obtain ⟨-, -, others⟩ := raisesOnly_raise .radioDown 0 0 s
  exact others k other

theorem radioDown_record (s : State) : (raise .radioDown 0 0 s).events[(1 : EventId)] =
    (s.events[(1 : EventId)]).raised (raiseRecord 0 0 false s) := by
  rw [raise_events]
  exact get_set_same _ _ _

/-- Settles O29: the stop part by part, the ready line's with RADIO_DOWN after it. -/
theorem stopOfTheAir : Obligations.StopOfTheAir := by
  intro order s
  refine ⟨fun c why runs cause => ?_, fun stopped => ?_, rfl⟩
  · rcases cause with ⟨rfl, rfl, due, pending⟩ | ⟨rfl, rfl⟩
    · have command : exec (.buildMark order) s = .next (stopAir .request order s) := by
        rw [exec_buildMark, if_pos ⟨runs, due⟩, pending]
        rfl
      refine ⟨_, command, ?_, ?_, stopAir_noticesAdded .request order s, stopAir_cellsReturned .request order s, fun i => ?_,
        stopAir_pins .request order s, stopAir_source .request order s, fun j => ?_,
        fun k _ other => stopAir_events .request order s k other, stopAir_reports .request order s,
        fun _ => stopAir_events .request order s 1 (by decide), fun other => absurd other (by decide)⟩
      · rw [stopAir_frame]
        rfl
      · rw [stopAir_air]
        rfl
      · rw [stopAir_air]
        exact Vector.getElem_replicate _
      · rw [stopAir_channel]
        exact stopped_cases _
    · have command : exec (.readyLineFall order) s = .next (raise .radioDown 0 0 (stopAir .readyLost order (fallen s))) := by
        rw [exec_readyLineFall, if_pos runs]
      have notices : NoticesAdded s (stopAir .readyLost order (fallen s)) := stopAir_noticesAdded .readyLost order (fallen s)
      have air := stopAir_air .readyLost order (fallen s)
      refine ⟨_, command, ?_, ?_, notices.trans (noticesAdded_raiseKind ..) ?_, ?_, fun i => ?_, ?_, fun k => ?_, fun j => ?_,
        fun k radio plan => ?_, fun applies => ?_, fun other => absurd other (by decide), fun _ => ?_⟩
      · rw [raise_frame, stopAir_frame]
        rfl
      · rw [raise_air, air]
        rfl
      · rw [air]
        rfl
      · rw [raise_frame]
        exact stopAir_cellsReturned .readyLost order (fallen s)
      · rw [raise_air, air]
        exact Vector.getElem_replicate _
      · rw [raise_pins]
        exact stopAir_pins ..
      · rw [raise_sources]
        exact stopAir_source .readyLost order (fallen s) k
      · rw [raise_channels, stopAir_channel]
        exact stopped_cases s.channels[j]
      · rw [radioDown_events _ k radio]
        exact stopAir_events .readyLost order (fallen s) k plan
      · rw [radioDown_events _ 14 (by decide)]
        exact stopAir_reports .readyLost order (fallen s) applies
      · rw [radioDown_record, raiseRecord, air]
        exact ⟨rfl, rfl⟩
  · rw [exec_readyLineFall, stopped]
    rfl

end Sys2Proof.Machine
end

section
/-! PROOF. The requests on the cell store and on a source's rate: POOL_STATUS and SOURCE_MODE; and the count of the cells. -/

namespace Sys2Proof.Machine

/-! ## Counting the cells -/

/-- The cells of the elastic buffers, as the claims and as POOL_STATUS count them (R47). -/
theorem elasticHeld_eq_bufferCells (s : State) : elasticHeld s = bufferCells s := (Fin.sum_univ_def _).symm

/-- Settles O6: the owners' cells are the 512 cells in another order, so they are as many. -/
theorem cellCountsAddUp : Obligations.CellCountsAddUp := by
  intro s owned
  have count : (allCells s).length = 512 := owned.length_eq.trans (List.length_finRange ..)
  simp only [allCells, List.length_append, List.length_flatMap] at count
  exact count

/-! ## POOL_STATUS -/

/-- The fields of POOL_STATUS's reply, in the order of R47. -/
def poolFields (s : State) : List Byte :=
  le16 s.pool.freeList.length ++ le16 (bufferCells s) ++ le8 (s.sched.records.map (fun n => n.cells.length)).sum ++ [64] ++
    le16 s.pool.lowWater ++ (List.finRange 14).flatMap (fun k => le8 s.sources[k].buffer.chain.length)

theorem takePoolStatus_reads (body : List Byte) (s : State) (h : field8 body 0 = 0) :
    takePoolStatus body s = (s, .okWith (poolFields s)) := by
  unfold takePoolStatus poolFields
  rw [h, elasticHeld_eq_bufferCells]
  rfl

theorem takePoolStatus_restarts (body : List Byte) (s : State) (h : field8 body 0 = 1) : takePoolStatus body s =
    ({ s with pool := { s.pool with lowWater := s.pool.freeList.length } }, .okWith (poolFields s)) := by
  unfold takePoolStatus poolFields
  rw [h, elasticHeld_eq_bufferCells]
  rfl

theorem takePoolStatus_refused (body : List Byte) (h : 1 < field8 body 0) : takePoolStatus body = fun s => refuse s .badValue := by
  funext s
  exact if_pos h

/-- Settles O38: the counts are those of the state before the restart. -/
theorem poolStatusReports : Obligations.PoolStatusReports := by
  intro tag s now
  have reads (body : List Byte) (len : poolStatusLength body = true) (h : field8 body 0 = 0) :
      exec (.poolStatus tag body) s = .next (replied 0x25 tag 0x00 (poolFields s) s) :=
    exec_command_off_link .poolStatus tag body s s (.okWith (poolFields s)) now len rfl
      fun l => takePoolStatus_reads body { s with link := l } h
  refine ⟨reads [] rfl rfl, reads [0] rfl rfl, ?_, fun b high => ?_⟩
  · exact exec_command_off_link .poolStatus tag [1] s { s with pool := { s.pool with lowWater := s.pool.freeList.length } }
      (.okWith (poolFields s)) now rfl rfl fun l => takePoolStatus_restarts [1] { s with link := l } rfl
  · exact exec_command_refused .poolStatus tag [b] s now rfl .badValue (takePoolStatus_refused [b] high)

/-! ## SOURCE_MODE -/

/-- The change of R69, in the terms of the claims. -/
theorem withRate_eq_rated (x : Source) (m : RateMode) (f : Int) : x.withRate m f = rated x m f := by
  unfold Source.withRate rated
  cases x.state <;> cases m <;> rfl

/-- No change of the rate starts or stops a source (R69). -/
theorem rated_state_off (x : Source) (m : RateMode) (f : Int) : (rated x m f).state = .off ↔ x.state = .off := by
  unfold rated
  cases x.state <;> cases m <;> simp

theorem rated_buffer (x : Source) (m : RateMode) (f : Int) : (rated x m f).buffer = x.buffer := by
  unfold rated
  cases x.state <;> cases m <;> rfl

theorem rated_mode (x : Source) (m : RateMode) (f : Int) : (rated x m f).mode = m := by
  unfold rated
  cases x.state <;> cases m <;> rfl

theorem rated_fFixed (x : Source) (m : RateMode) (f : Int) : (rated x m f).fFixed = f := by
  unfold rated
  cases x.state <;> cases m <;> rfl

/-- A line source after its line input has been switched, with the air running or stopped (R50, R68). -/
def Source.switched (on running : Bool) (x : Source) : Source :=
  if on then (if x.state = .off ∧ running = true then { x.rested .waiting with line := true } else { x with line := true })
  else (if x.state = .off then { x with line := false } else { x.rested .off with line := false })

/-- Switching a line input writes the source, and gives the cells back of a source that it takes to OFF (R50, R46). -/
theorem setLine_eq (k : SourceId) (on : Bool) (s : State) (empty : s.sources[k].state = .off → s.sources[k].buffer.chain = []) :
    setLine k on s = { s with
      sources := s.sources.set k (s.sources[k].switched on s.air.running),
      pool := { s.pool with freeList := s.pool.freeList ++
        if (s.sources[k].switched on s.air.running).state = .off then s.sources[k].buffer.chain else [] } } := by
  cases on <;> by_cases off : s.sources[k].state = .off <;> cases runs : s.air.running <;>
    simp [setLine, sourceWaiting, sourceOff, Source.switched, off, runs, enterRest, returnCells, State.setSource, Source.rested, empty,
      -Fin.getElem_fin]

/-- A body of SOURCE_MODE (R68). -/
def sourceModeBody (k : SourceId) (mode line : Byte) (rate : BitVec 16) : List Byte := le8 k.val ++ [mode] ++ le16 rate.toNat ++ [line]

theorem sourceModeBody_source (k : SourceId) (mode line : Byte) (rate : BitVec 16) :
    toIndex 14 (field8 (sourceModeBody k mode line rate) 0) = some k := by
  have source : field8 (sourceModeBody k mode line rate) 0 = k.val := field8_head k.val (by omega) _
  rw [source, toIndex_val]

theorem sourceModeBody_rate (k : SourceId) (mode line : Byte) (rate : BitVec 16) :
    fieldInt16 (sourceModeBody k mode line rate) 2 = rate.toInt := by
  have value : field16 (sourceModeBody k mode line rate) 2 = rate.toNat := le16_value rate.toNat rate.isLt
  rw [fieldInt16, value, BitVec.ofNat_toNat, BitVec.setWidth_eq]

/-- The rate mode that a mode byte of 0 or 1 names (R68). -/
def modeOf (mode : Byte) : RateMode := if mode = 0 then .auto else .fixed

/-- A source after SOURCE_MODE (R68, R69, R50). -/
def Source.remoded (k : SourceId) (mode line : Byte) (rate : BitVec 16) (running : Bool) (x : Source) : Source :=
  let y := rated x (modeOf mode) (band 8192 rate.toInt)
  if k.val < 12 then y else y.switched (decide (line = 1)) running

theorem byte_eq_zero_iff (b : Byte) : b = 0 ↔ b.toNat = 0 := ⟨fun h => by rw [h]; rfl, fun h => BitVec.eq_of_toNat_eq h⟩
theorem byte_eq_one_iff (b : Byte) : b = 1 ↔ b.toNat = 1 := ⟨fun h => by rw [h]; rfl, fun h => BitVec.eq_of_toNat_eq h⟩

theorem modeOf_code (mode : Byte) (h : mode.toNat ≤ 1) : le8 (modeOf mode).code = [mode] := by
  rcases Nat.le_one_iff_eq_zero_or_eq_one.mp h with zero | one
  · rw [(byte_eq_zero_iff mode).mpr zero]
    rfl
  · rw [(byte_eq_one_iff mode).mpr one]
    rfl

theorem takeSourceMode_badValue (k : SourceId) (mode line : Byte) (rate : BitVec 16)
    (h : 1 < mode.toNat ∨ 1 < line.toNat ∨ (12 ≤ k.val ∧ mode = 0)) :
    takeSourceMode (sourceModeBody k mode line rate) = fun s => refuse s .badValue := by
  funext s
  unfold takeSourceMode
  rw [sourceModeBody_source]
  dsimp only
  by_cases range : 1 < mode.toNat ∨ 1 < line.toNat
  · exact if_pos range
  · obtain ⟨lineSource, auto⟩ : 12 ≤ k.val ∧ mode = 0 := by tauto
    refine (if_neg range).trans (if_pos ⟨decide_eq_true lineSource, (byte_eq_zero_iff mode).mp auto⟩)

theorem takeSourceMode_noObject (body : List Byte) (h : 13 < (body.getD 0 0).toNat) :
    takeSourceMode body = fun s => refuse s .noObject := by
  funext s
  unfold takeSourceMode
  rw [toIndex_none (show 14 ≤ field8 body 0 from h)]

/-- A source after SOURCE_MODE keeps the mode and the rate that were stored, whatever becomes of it (R49, R68). -/
theorem remoded_stored (k : SourceId) (mode line : Byte) (rate : BitVec 16) (running : Bool) (x : Source) :
    (x.remoded k mode line rate running).mode = modeOf mode ∧
      (x.remoded k mode line rate running).fFixed = band 8192 rate.toInt := by
  have stored (y : Source) (on : Bool) : (y.switched on running).mode = y.mode ∧ (y.switched on running).fFixed = y.fFixed := by
    unfold Source.switched
    (repeat' split) <;> exact ⟨rfl, rfl⟩
  unfold Source.remoded
  dsimp only
  split
  · exact ⟨rated_mode .., rated_fFixed ..⟩
  · exact ⟨(stored _ _).1.trans (rated_mode ..), (stored _ _).2.trans (rated_fFixed ..)⟩

/-- The state after SOURCE_MODE: the source's record, and the cells of a source taken to OFF at the tail of the free list. -/
def sourceRemoded (k : SourceId) (mode line : Byte) (rate : BitVec 16) (s : State) : State :=
  let z := s.sources[k].remoded k mode line rate s.air.running
  { s with
    sources := s.sources.set k z,
    pool := { s.pool with freeList := s.pool.freeList ++ if z.state = .off then s.sources[k].buffer.chain else [] } }

/-- Storing the mode and the rate, and switching the line input of a line source, is that change. -/
theorem sourceRemoded_eq (k : SourceId) (mode line : Byte) (rate : BitVec 16) (s : State) (empty : OffHoldsNothing s) :
    (if isLineSource k then
        setLine k (decide (line = 1)) (s.setSource k (rated s.sources[k] (modeOf mode) (band 8192 rate.toInt)))
      else s.setSource k (rated s.sources[k] (modeOf mode) (band 8192 rate.toInt))) = sourceRemoded k mode line rate s := by
  unfold sourceRemoded Source.remoded
  by_cases low : k.val < 12
  · have none : (if (rated s.sources[k] (modeOf mode) (band 8192 rate.toInt)).state = .off then s.sources[k].buffer.chain else []) = [] :=
      ite_eq_right_iff.mpr fun off => empty k ((rated_state_off ..).mp off)
    rw [if_neg (by simp [isLineSource, low]), if_pos low]
    dsimp only
    rw [none, List.append_nil]
    rfl
  · rw [if_pos (by simpa [isLineSource] using low), if_neg low, setLine_eq]
    · simp only [State.setSource_sources, get_set_same, Vector.set_set, rated_buffer]
      rfl
    · simp only [State.setSource_sources, get_set_same, rated_buffer, rated_state_off]
      exact empty k

/-- The fields of SOURCE_MODE's reply (R68). -/
def sourceModeFields (k : SourceId) (mode : Byte) (rate : BitVec 16) (z : Source) : List Byte :=
  le8 k.val ++ [mode] ++ leInt16 (band 8192 rate.toInt) ++ leFlag z.line ++
    le8 (match z.state with | .off => 0 | .waiting => 1 | .acquire => 2 | .track => 3 | .holdover => 4 | .fixed => 5)

theorem takeSourceMode_eq (k : SourceId) (mode line : Byte) (rate : BitVec 16) (s : State) (empty : OffHoldsNothing s)
    (hm : mode.toNat ≤ 1) (hl : line.toNat ≤ 1) (uplink : k.val < 12 ∨ mode = 1) :
    takeSourceMode (sourceModeBody k mode line rate) s = (sourceRemoded k mode line rate s,
      .okWith (sourceModeFields k mode rate (s.sources[k].remoded k mode line rate s.air.running))) := by
  have modeByte : field8 (sourceModeBody k mode line rate) 1 = mode.toNat := rfl
  have lineByte : field8 (sourceModeBody k mode line rate) 4 = line.toNat := rfl
  have named : (if mode.toNat = 0 then RateMode.auto else .fixed) = modeOf mode := if_congr (byte_eq_zero_iff mode).symm rfl rfl
  have on : decide (line.toNat = 1) = decide (line = 1) := decide_eq_decide.mpr (byte_eq_one_iff line).symm
  have noAuto : ¬(isLineSource k = true ∧ mode.toNat = 0) := fun ⟨isLine, auto⟩ => by
    have high : 12 ≤ k.val := of_decide_eq_true isLine
    rcases uplink with low | one
    · omega
    · have := (byte_eq_one_iff mode).mp one
      omega
  unfold takeSourceMode
  rw [sourceModeBody_source]
  dsimp only
  rw [modeByte, lineByte, if_neg (by omega), if_neg noAuto, sourceModeBody_rate, named, on, withRate_eq_rated, clampInt_eq_band,
    sourceRemoded_eq k mode line rate s empty]
  have written : (sourceRemoded k mode line rate s).sources[k] = s.sources[k].remoded k mode line rate s.air.running := get_set_same _ _ _
  obtain ⟨mode_, fixed⟩ := remoded_stored k mode line rate s.air.running s.sources[k]
  rw [written, mode_, fixed, modeOf_code mode hm, sourceModeFields]
  cases (s.sources[k].remoded k mode line rate s.air.running).state <;> rfl

/-- The record after SOURCE_MODE, case by case. -/
theorem remoded_cases (k : SourceId) (mode line : Byte) (rate : BitVec 16) (running : Bool) (x : Source) :
    let y := rated x (modeOf mode) (band 8192 rate.toInt)
    x.remoded k mode line rate running = if k.val < 12 then y
      else if line = 1 then
        (if x.state = .off ∧ running = true then { y.rested .waiting with line := true } else { y with line := true })
      else (if x.state = .off then { y with line := false } else { y.rested .off with line := false }) := by
  dsimp only [Source.remoded, Source.switched]
  simp only [rated_state_off, decide_eq_true_eq]

/-- Settles O40: the source is judged first, then the values; then the record is written, and the line input switched. -/
theorem sourceModeChangesTheRate : Obligations.SourceModeChangesTheRate := by
  intro tag s now sound
  have empty := offHoldsNothing_of_sound sound
  refine ⟨fun k mode line rate => ⟨fun bad => ?_, fun hm hl uplink => ?_⟩, fun body len high => ?_⟩
  · exact exec_command_refused .sourceMode tag (sourceModeBody k mode line rate) s now rfl .badValue
      (takeSourceMode_badValue k mode line rate bad)
  · have command := exec_command_off_link .sourceMode tag (sourceModeBody k mode line rate) s (sourceRemoded k mode line rate s)
      (.okWith (sourceModeFields k mode rate (s.sources[k].remoded k mode line rate s.air.running))) now rfl rfl
      fun l => takeSourceMode_eq k mode line rate { s with link := l } (by exact empty) hm hl uplink
    have record := remoded_cases k mode line rate s.air.running s.sources[k]
    dsimp only at record ⊢
    unfold modeOf at record
    rw [← record]
    exact ⟨_, command, rfl, rfl, rfl⟩
  · exact exec_command_refused .sourceMode tag body s now (decide_eq_true len) .noObject (takeSourceMode_noObject body high)

end Sys2Proof.Machine
end

section
/-! PROOF. What a piece of work reports to the event unit, kind by kind, and what two pieces of work report together. -/

namespace Sys2Proof.Machine

/-- Of each event kind the object and the detail of the last raise that a piece of work makes; none where it makes none. -/
abbrev Report := EventId → Option (Nat × BitVec 32)

/-- No raise. -/
def Report.nothing : Report := fun _ => none

/-- One raise of kind e. -/
def Report.one (e : EventId) (object : Nat) (detail : BitVec 32) : Report := fun i => if i = e then some (object, detail) else none

/-- What the later work raises hides what the earlier work raised of the same kind. -/
def Report.andThen (r q : Report) : Report := fun e => (q e).or (r e)

/-- A report that is made under a condition. -/
def Report.when (c : Prop) [Decidable c] (r : Report) : Report := if c then r else .nothing

/-- Kind e stands after the work as the report says. -/
def Reported (e : EventId) (r : Option (Nat × BitVec 32)) (s t : State) : Prop :=
  match r with
  | none => t.events[e] = s.events[e]
  | some d => Raised e d.1 d.2 s t

/-- The work leaves the air timer alone, offers EVENT notices and makes these reports. -/
def Reports (r : Report) (s t : State) : Prop := NoticesAdded s t ∧ t.air = s.air ∧ ∀ e : EventId, Reported e (r e) s t

/-- The work touches neither the event unit nor the link nor the air timer. -/
def Quiet (s t : State) : Prop := t.events = s.events ∧ t.link = s.link ∧ t.air = s.air

theorem Quiet.setSource (k : SourceId) (x : Source) (s : State) : Quiet s (s.setSource k x) := ⟨rfl, rfl, rfl⟩

/-! ## Reports -/

@[simp] theorem Report.nothing_andThen (r : Report) : Report.nothing.andThen r = r := funext fun _ => Option.or_none
@[simp] theorem Report.andThen_nothing (r : Report) : r.andThen .nothing = r := rfl

theorem Report.one_same (e : EventId) (o : Nat) (d : BitVec 32) : Report.one e o d e = some (o, d) := if_pos rfl
theorem Report.one_other {e i : EventId} (o : Nat) (d : BitVec 32) (h : i ≠ e) : Report.one e o d i = none := if_neg h

theorem Report.when_apply (c : Prop) [Decidable c] (r : Report) (e : EventId) : r.when c e = if c then r e else none := by
  unfold Report.when
  split <;> rfl

theorem Report.when_none {r : Report} {e : EventId} (c : Prop) [Decidable c] (h : r e = none) : r.when c e = none := by
  rw [Report.when_apply, h, ite_self]

theorem Report.andThen_none {r q : Report} {e : EventId} (h : r e = none) (g : q e = none) : r.andThen q e = none := by
  rw [Report.andThen, h, g]
  rfl

/-- The same raise at two places, each under its condition. -/
theorem Report.one_when_or (e : EventId) (o : Nat) (d : BitVec 32) (a b : Prop) [Decidable a] [Decidable b] :
    ((Report.one e o d).when a).andThen ((Report.one e o d).when b) = (Report.one e o d).when (a ∨ b) := by
  funext i
  simp only [Report.andThen, Report.when_apply]
  by_cases ha : a <;> by_cases hb : b <;> simp [ha, hb]

theorem Report.when_congr {c c' : Prop} [Decidable c] [Decidable c'] (r : Report) (h : c ↔ c') : r.when c = r.when c' :=
  if_congr h rfl rfl

/-- A kind that is raised under a condition. -/
theorem reported_ite (e : EventId) (c : Prop) [Decidable c] (o : Nat) (d : BitVec 32) (s t : State) :
    Reported e (if c then some (o, d) else none) s t ↔ if c then Raised e o d s t else t.events[e] = s.events[e] := by
  split <;> rfl

theorem Reports.of_quiet {s t : State} (h : Quiet s t) : Reports .nothing s t := by
  obtain ⟨events, link, air⟩ := h
  refine ⟨.of_same events link, air, fun e => ?_⟩
  change t.events[e] = s.events[e]
  rw [events]

theorem Reports.refl (s : State) : Reports .nothing s s := .of_quiet ⟨rfl, rfl, rfl⟩

/-- Two pieces of work, one after the other. -/
theorem Reports.trans {r q : Report} {s t u : State} (h : Reports r s t) (g : Reports q t u) : Reports (r.andThen q) s u := by
  obtain ⟨notices, air, kinds⟩ := h
  obtain ⟨notices', air', kinds'⟩ := g
  refine ⟨notices.trans notices' (by rw [air]), air'.trans air, fun e => ?_⟩
  have before := kinds e
  have after := kinds' e
  unfold Report.andThen Reported at *
  cases hq : q e with
  | none =>
    rw [hq] at after
    dsimp only at after
    cases hr : r e with
    | none =>
      rw [hr] at before
      exact after.trans before
    | some d =>
      rw [hr] at before
      dsimp only [Option.or] at before ⊢
      unfold Raised at *
      rwa [after]
  | some d =>
    rw [hq] at after
    dsimp only [Option.or] at after ⊢
    unfold Raised at *
    rwa [← air]

theorem Reports.then_quiet {r : Report} {s t u : State} (h : Reports r s t) (g : Quiet t u) : Reports r s u :=
  h.trans (.of_quiet g)

theorem Reports.after_quiet {r : Report} {s t u : State} (h : Quiet s t) (g : Reports r t u) : Reports r s u := by
  have both := (Reports.of_quiet h).trans g
  rwa [Report.nothing_andThen] at both

/-- A block's raise is the report of one kind (R164). -/
theorem reports_raiseKind (e : EventId) (o : Nat) (d : BitVec 32) (s : State) :
    Reports (.one e o d) s (raiseKind e o d false s) := by
  refine ⟨noticesAdded_raiseKind .., raiseKind_air .., fun i => ?_⟩
  unfold Reported Raised
  rw [raiseKind_events, get_set_cases]
  by_cases same : i = e
  · rw [same, Report.one_same, if_pos rfl]
    exact ⟨rfl, rfl⟩
  · rw [Report.one_other o d same, if_neg same]

theorem reports_raise (k : EventKind) (o d : Nat) (s : State) :
    Reports (.one k.num o (BitVec.ofNat 32 d)) s (raise k o d s) := reports_raiseKind ..

theorem reports_raiseInt (k : EventKind) (o : Nat) (d : Int) (s : State) :
    Reports (.one k.num o (BitVec.ofInt 32 d)) s (raiseInt k o d s) := reports_raiseKind ..

/-- Work that reports under a condition. -/
theorem Reports.ite {r : Report} {s t u : State} (c : Prop) [Decidable c] (h : Reports r s t) (g : Quiet s u) :
    Reports (r.when c) s (if c then t else u) := by
  unfold Report.when
  split
  · exact h
  · exact .of_quiet g

end Sys2Proof.Machine
end

section
/-! PROOF. The append of a block's samples to an elastic buffer: what an overrun takes away, what the writing adds, the cells lent, and
what is reported. -/

namespace Sys2Proof.Machine

/-! ## Buffers -/

/-- A buffer with these cells and samples added at its tail (R43). -/
def Buffer.grown (b : Buffer) (cells : List CellId) (xs : List Sample) : Buffer :=
  { b with chain := b.chain ++ cells, samples := b.samples ++ xs }

theorem Buffer.grown_nothing (b : Buffer) : b.grown [] [] = b := by
  simp [Buffer.grown]

theorem Buffer.grown_grown (b : Buffer) (cells more : List CellId) (xs ys : List Sample) :
    (b.grown cells xs).grown more ys = b.grown (cells ++ more) (xs ++ ys) := by
  simp [Buffer.grown]

theorem Buffer.room_eq (b : Buffer) : b.room = 32 * b.chain.length - (b.readOffset + b.samples.length) := rfl

theorem without_of_le {b : Buffer} {n : Nat} (h : b.samples.length ≤ n) : b.without n = .empty := if_pos h

theorem without_of_lt {b : Buffer} {n : Nat} (h : n < b.samples.length) : b.without n =
    { chain := b.chain.drop ((b.readOffset + n) / 32), readOffset := (b.readOffset + n) % 32, samples := b.samples.drop n } :=
  if_neg (Nat.not_le.mpr h)

/-- The cells that the reading of n samples empties are those that leave the head of the chain (R39, R45). -/
theorem emptied_append_without (b : Buffer) (n : Nat) : b.chain.take (b.emptied n) ++ (b.without n).chain = b.chain := by
  rcases Nat.lt_or_ge n b.samples.length with some | all
  · have cells : b.emptied n = (b.readOffset + n) / 32 := if_neg (Nat.not_le.mpr some)
    rw [without_of_lt some, cells]
    exact List.take_append_drop ..
  · have cells : b.emptied n = b.chain.length := if_pos all
    rw [without_of_le all, cells, List.take_length]
    exact List.append_nil _

theorem without_samples_length (b : Buffer) (n : Nat) : (b.without n).samples.length = b.samples.length - n := by
  rcases Nat.lt_or_ge n b.samples.length with some | all
  · rw [without_of_lt some, List.length_drop]
  · rw [without_of_le all, Nat.sub_eq_zero_of_le all]
    rfl

theorem bufferSound_empty : BufferSound .empty := ⟨Nat.zero_le _, Nat.zero_le _, rfl, fun _ => rfl⟩

/-- What is left of a buffer is laid out as R42 says. -/
theorem bufferSound_without {b : Buffer} (h : BufferSound b) (n : Nat) : BufferSound (b.without n) := by
  rcases Nat.lt_or_ge n b.samples.length with some | all
  · obtain ⟨few, offset, cells, -⟩ := h
    rw [without_of_lt some]
    refine ⟨?_, ?_, ?_, fun none => ?_⟩
    · rw [List.length_drop]
      omega
    · exact Nat.le_of_lt_succ (Nat.mod_lt _ (by decide))
    · rw [List.length_drop, List.length_drop, cells]
      dsimp only
      omega
    · have := List.length_drop (l := b.samples) (i := n)
      rw [show b.samples.drop n = [] from none, List.length_nil] at this
      omega
  · rw [without_of_le all]
    exact bufferSound_empty

/-- Taking nothing from a buffer leaves it as it was. -/
theorem without_zero {b : Buffer} (h : BufferSound b) : b.without 0 = b := by
  obtain ⟨-, offset, cells, start⟩ := h
  obtain ⟨chain, readOffset, samples⟩ := b
  cases samples with
  | nil =>
    obtain rfl := start rfl
    obtain rfl : chain = [] := List.length_eq_zero_iff.mp (by simpa using cells)
    rfl
  | cons x xs =>
    rw [without_of_lt (Nat.succ_pos _)]
    simp only [Nat.add_zero, Nat.div_eq_of_lt (Nat.lt_succ_of_le offset), Nat.mod_eq_of_lt (Nat.lt_succ_of_le offset), List.drop_zero]

/-! ## Lending -/

/-- The store lends its first free cell, and reports POOL_LOW when 63 are left (R37, R40, R41). -/
theorem lendElastic_cons (c : CellId) (rest : List CellId) (s : State) (h : s.pool.freeList = c :: rest) :
    ∃ t, lendElastic s = some (c, t) ∧ t.pool = s.pool.lent rest ∧ t.sources = s.sources ∧
      Reports ((Report.one 11 0 63).when (rest.length = 63)) s t := by
  unfold lendElastic
  rw [h]
  refine ⟨_, rfl, ?_⟩
  have low : (voiceReserve ≤ s.pool.free ∧ rest.length < voiceReserve) ↔ rest.length = 63 := by
    rw [Pool.free, h, List.length_cons, voiceReserve]
    omega
  rw [if_congr low rfl rfl]
  refine ⟨?_, ?_, ?_⟩
  · split
    · exact raise_pool ..
    · rfl
  · split
    · exact raise_sources ..
    · rfl
  · by_cases last : rest.length = 63
    · have raised := (reports_raise .poolLow 0 rest.length { s with pool := s.pool.lent rest }).after_quiet (s := s) ⟨rfl, rfl, rfl⟩
      rw [if_pos last, Report.when, if_pos last]
      rw [last] at raised ⊢
      exact raised
    · rw [if_neg last, Report.when, if_neg last]
      exact .of_quiet ⟨rfl, rfl, rfl⟩

/-- Source k's buffer has grown by the first m free cells and by these samples (R43, R37), and nothing else of the sources and of the
cell store has changed; low_water and POOL_LOW follow the cells lent (R40, R41). -/
structure Grown (k : SourceId) (m : Nat) (xs : List Sample) (s t : State) : Prop where
  enough : m ≤ s.pool.freeList.length
  sources : t.sources = s.sources.set k { s.sources[k] with
    buffer := s.sources[k].buffer.grown (s.pool.freeList.take m) xs }
  freeList : t.pool.freeList = s.pool.freeList.drop m
  lowWater : t.pool.lowWater = if 0 < m then min s.pool.lowWater (s.pool.freeList.length - m) else s.pool.lowWater
  reports : Reports ((Report.one 11 0 63).when (64 ≤ s.pool.freeList.length ∧ s.pool.freeList.length - m < 64)) s t

/-- Samples written into the tail cell lend no cell. -/
theorem grown_inPlace (k : SourceId) (xs : List Sample) (s : State) :
    Grown k 0 xs s (setBuffer k { s.sources[k].buffer with samples := s.sources[k].buffer.samples ++ xs } s) where
  enough := Nat.zero_le _
  sources := by rw [List.take_zero, Buffer.grown, List.append_nil]; rfl
  freeList := rfl
  lowWater := rfl
  reports := by
    rw [Report.when, if_neg (by omega)]
    exact .of_quiet (Quiet.setSource k _ s)

theorem grown_nothing (k : SourceId) (s : State) : Grown k 0 [] s s where
  enough := Nat.zero_le _
  sources := by
    rw [List.take_zero, Buffer.grown_nothing]
    exact (Vector.set_getElem_self k.isLt).symm
  freeList := rfl
  lowWater := rfl
  reports := by
    rw [Report.when, if_neg (by omega)]
    exact .refl s

theorem Grown.free {k : SourceId} {m : Nat} {xs : List Sample} {s t : State} (h : Grown k m xs s t) :
    t.pool.freeList.length = s.pool.freeList.length - m := by rw [h.freeList, List.length_drop]

theorem Grown.trans {k : SourceId} {m n : Nat} {xs ys : List Sample} {s t u : State} (h : Grown k m xs s t) (g : Grown k n ys t u) :
    Grown k (m + n) (xs ++ ys) s u where
  enough := by
    have := h.enough
    have := g.enough
    have := h.free
    omega
  sources := by
    rw [g.sources, h.sources, h.freeList]
    simp only [get_set_same, Vector.set_set, Buffer.grown_grown, List.take_add]
  freeList := by rw [g.freeList, h.freeList, List.drop_drop]
  lowWater := by
    have := h.lowWater
    have := h.free
    have := g.lowWater
    split_ifs at * <;> omega
  reports := by
    have both := h.reports.trans g.reports
    have free := h.free
    have enough := h.enough
    rw [Report.one_when_or, free] at both
    rwa [Report.when_congr _ (show _ ↔ 64 ≤ s.pool.freeList.length ∧ s.pool.freeList.length - (m + n) < 64 by omega)] at both

/-- One cell lent and written (R43). -/
theorem grown_lent (k : SourceId) (xs : List Sample) (c : CellId) (rest : List CellId) (s : State) (h : s.pool.freeList = c :: rest) :
    ∃ t, lendElastic s = some (c, t) ∧ Grown k 1 xs s (setBuffer k
      { t.sources[k].buffer with chain := t.sources[k].buffer.chain ++ [c], samples := t.sources[k].buffer.samples ++ xs } t) := by
  obtain ⟨t, lent, pool, sources, reports⟩ := lendElastic_cons c rest s h
  have length : s.pool.freeList.length = rest.length + 1 := by rw [h, List.length_cons]
  refine ⟨t, lent, ⟨by omega, ?_, ?_, ?_, ?_⟩⟩
  · rw [h, ← sources]
    rfl
  · change t.pool.freeList = _
    rw [pool, h]
    rfl
  · change t.pool.lowWater = _
    rw [pool, if_pos Nat.one_pos, length]
    rfl
  · rw [Report.when_congr _ (show _ ↔ rest.length = 63 by omega)]
    exact reports.then_quiet (Quiet.setSource k _ t)

/-- The writing in new cells takes a cell for every 32 samples begun, as far as there are free ones (R43, R44). -/
theorem growBuffer_grown (n : Nat) (k : SourceId) (xs : List Sample) (s : State) (bound : xs.length ≤ n) :
    let m := min s.pool.freeList.length ((xs.length + 31) / 32)
    (growBuffer n k xs s).1 = xs.drop (32 * m) ∧ Grown k m (xs.take (32 * m)) s (growBuffer n k xs s).2 := by
  induction n generalizing xs s with
  | zero =>
    obtain rfl : xs = [] := List.length_eq_zero_iff.mp (by omega)
    rw [List.length_nil, Nat.min_eq_right (by simp)]
    exact ⟨rfl, grown_nothing k s⟩
  | succ n ih =>
    cases xs with
    | nil =>
      rw [List.length_nil, Nat.min_eq_right (by simp)]
      exact ⟨rfl, grown_nothing k s⟩
    | cons x xs =>
      cases free : s.pool.freeList with
      | nil =>
        have none : lendElastic s = none := by unfold lendElastic; rw [free]
        rw [growBuffer, none, List.length_nil, Nat.zero_min]
        exact ⟨rfl, grown_nothing k s⟩
      | cons c rest =>
        obtain ⟨t, lent, one⟩ := grown_lent k ((x :: xs).take 32) c rest s free
        have left := one.free
        rw [growBuffer, lent]
        dsimp only
        generalize setBuffer k _ t = u at one left ⊢
        obtain ⟨unwritten, more⟩ := ih ((x :: xs).drop 32) u (by rw [List.length_drop, List.length_cons] at *; omega)
        have cells : min (c :: rest).length (((x :: xs).length + 31) / 32) =
            1 + min u.pool.freeList.length ((((x :: xs).drop 32).length + 31) / 32) := by
          rw [left, free, List.length_drop, List.length_cons, List.length_cons]
          omega
        rw [cells, Nat.mul_add, Nat.mul_one, List.take_add, ← List.drop_drop]
        exact ⟨unwritten, one.trans more⟩

/-! ## The append -/

/-- The number of samples by which n more would pass 1024 (R43). -/
def Buffer.excess (b : Buffer) (n : Nat) : Nat := b.samples.length + n - 1024

/-- A buffer that an overrun has made room in for n samples more (R43). -/
def Buffer.trimmed (b : Buffer) (n : Nat) : Buffer := if b.excess n = 0 then b else b.without (b.excess n)

theorem trimmed_of_fits {b : Buffer} {n : Nat} (h : b.excess n = 0) : b.trimmed n = b := if_pos h
theorem trimmed_of_excess {b : Buffer} {n : Nat} (h : 0 < b.excess n) : b.trimmed n = b.without (b.excess n) := if_neg (Nat.ne_of_gt h)

/-- Of a buffer that is laid out as R42 says nothing is taken where nothing is too much. -/
theorem trimmed_eq_without {b : Buffer} (h : BufferSound b) (n : Nat) : b.trimmed n = b.without (b.excess n) := by
  rcases Nat.eq_zero_or_pos (b.excess n) with none | some
  · rw [trimmed_of_fits none, none, without_zero h]
  · exact trimmed_of_excess some

/-- An overrun discards the oldest samples and reports how many (R43). -/
theorem overrun_cases (k : SourceId) (n : Nat) (s : State) :
    (s.sources[k].buffer.excess n = 0 ∧ overrun k n s = s) ∨
      (0 < s.sources[k].buffer.excess n ∧ overrun k n s =
        raise .elasticOverrun k.val (s.sources[k].buffer.excess n) (consume k (s.sources[k].buffer.excess n) s)) := by
  unfold overrun
  rcases Nat.eq_zero_or_pos (s.sources[k].buffer.excess n) with none | some
  · exact .inl ⟨none, if_pos none⟩
  · exact .inr ⟨some, if_neg (Nat.ne_of_gt some)⟩

theorem overrun_sources (k : SourceId) (n : Nat) (s : State) : (overrun k n s).sources =
    s.sources.set k { s.sources[k] with buffer := s.sources[k].buffer.trimmed n } := by
  rcases overrun_cases k n s with ⟨none, same⟩ | ⟨some, overran⟩
  · rw [same, trimmed_of_fits none]
    exact (Vector.set_getElem_self k.isLt).symm
  · rw [overran, raise_sources, consume_sources, trimmed_of_excess some]

theorem overrun_reports (k : SourceId) (n : Nat) (s : State) :
    Reports ((Report.one 7 k.val (BitVec.ofNat 32 (s.sources[k].buffer.excess n))).when (0 < s.sources[k].buffer.excess n)) s
      (overrun k n s) := by
  rcases overrun_cases k n s with ⟨none, same⟩ | ⟨some, overran⟩
  · rw [same, Report.when, if_neg (by omega)]
    exact .refl s
  · rw [overran, Report.when, if_pos some]
    exact (reports_raise ..).after_quiet ⟨rfl, rfl, rfl⟩

theorem overrun_lowWater (k : SourceId) (n : Nat) (s : State) : (overrun k n s).pool.lowWater = s.pool.lowWater := by
  rcases overrun_cases k n s with ⟨-, same⟩ | ⟨-, overran⟩
  · rw [same]
  · rw [overran, raise_pool]
    rfl

/-- The cells that an overrun empties are free again (R39). -/
theorem overrun_cells (k : SourceId) (n : Nat) (s : State) :
    ((overrun k n s).pool.freeList ++ (s.sources[k].buffer.trimmed n).chain).Perm (s.pool.freeList ++ s.sources[k].buffer.chain) := by
  rcases overrun_cases k n s with ⟨none, same⟩ | ⟨some, overran⟩
  · rw [same, trimmed_of_fits none]
  · rw [overran, raise_pool, consume_freeList, trimmed_of_excess some, List.append_assoc, emptied_append_without]

/-- The number of these samples that a buffer takes with so many free cells (R43, R44). -/
def Buffer.takes (b : Buffer) (xs : List Sample) (free : Nat) : Nat := min xs.length (b.room + 32 * free)

/-- The number of cells that the writing of these samples is lent (R43, R44). -/
def Buffer.borrows (b : Buffer) (xs : List Sample) (free : Nat) : Nat := min free ((xs.length - b.room + 31) / 32)

/-- The writing part of an append: the tail cell and new cells take what they can, and the rest is reported (R43, R44). -/
theorem writeSamples_grown (k : SourceId) (xs : List Sample) (s : State) :
    let b := s.sources[k].buffer
    let written := b.takes xs s.pool.freeList.length
    ∃ t, Grown k (b.borrows xs s.pool.freeList.length) (xs.take written) s t ∧
      writeSamples k xs s = if written < xs.length then raise .poolExhausted k.val (xs.length - written) t else t := by
  intro b written
  let s1 := setBuffer k { b with samples := b.samples ++ xs.take b.room } s
  have first : Grown k 0 (xs.take b.room) s s1 := grown_inPlace k (xs.take b.room) s
  obtain ⟨unwritten, more⟩ := growBuffer_grown xs.length k (xs.drop b.room) s1 (by rw [List.length_drop]; omega)
  have cells : min s1.pool.freeList.length (((xs.drop b.room).length + 31) / 32) = b.borrows xs s.pool.freeList.length := by
    rw [List.length_drop]
    rfl
  have few : xs.drop (b.room + 32 * b.borrows xs s.pool.freeList.length) = xs.drop written :=
    List.drop_eq_drop_iff.mpr (by dsimp only [written, Buffer.takes, Buffer.borrows]; omega)
  have many : xs.take (b.room + 32 * b.borrows xs s.pool.freeList.length) = xs.take written :=
    List.take_eq_take_iff.mpr (by dsimp only [written, Buffer.takes, Buffer.borrows]; omega)
  rw [cells, List.drop_drop, few] at unwritten
  have whole := first.trans more
  rw [cells, Nat.zero_add, ← List.take_add, many] at whole
  refine ⟨_, whole, ?_⟩
  have rest : writeSamples k xs s = (let w := growBuffer xs.length k (xs.drop b.room) s1
      if w.1 = [] then w.2 else raise .poolExhausted k.val w.1.length w.2) := rfl
  rw [rest]
  dsimp only
  rw [unwritten, List.length_drop]
  by_cases all : written < xs.length
  · rw [if_pos all, if_neg (by rw [List.drop_eq_nil_iff]; omega)]
  · rw [if_neg all, if_pos (by rw [List.drop_eq_nil_iff]; omega)]

/-- A buffer that has taken what it can is laid out as R42 says. -/
theorem bufferSound_grown {b : Buffer} (h : BufferSound b) (xs : List Sample) (free : Nat) (cells : List CellId)
    (borrowed : cells.length = b.borrows xs free) (fits : b.samples.length + xs.length ≤ 1024) :
    BufferSound (b.grown cells (xs.take (b.takes xs free))) := by
  obtain ⟨-, offset, chain, start⟩ := h
  have taken : (xs.take (b.takes xs free)).length = b.takes xs free := by
    rw [List.length_take]
    exact Nat.min_eq_left (Nat.min_le_left ..)
  have room := b.room_eq
  refine ⟨?_, offset, ?_, fun none => start (List.append_eq_nil_iff.mp none).1⟩
  · change (b.samples ++ _).length ≤ 1024
    rw [List.length_append, List.length_take]
    omega
  · change (b.chain ++ cells).length = (b.readOffset + (b.samples ++ _).length + 31) / 32
    rw [List.length_append, List.length_append, taken, borrowed]
    unfold Buffer.takes Buffer.borrows
    omega

/-- What an append reports: the samples that an overrun discards, a fall of the free cells below 64, and the samples that found no cell
(R40, R43, R44). -/
def appendReport (k : SourceId) (excess : Nat) (low : Prop) [Decidable low] (refused : Nat) : Report :=
  (((Report.one 7 k.val (BitVec.ofNat 32 excess)).when (0 < excess)).andThen ((Report.one 11 0 63).when low)).andThen
    ((Report.one 10 k.val (BitVec.ofNat 32 refused)).when (0 < refused))

section
variable (k : SourceId) (excess : Nat) (low : Prop) [Decidable low] (refused : Nat)

theorem appendReport_overrun : appendReport k excess low refused 7 = if 0 < excess then some (k.val, BitVec.ofNat 32 excess) else none := by
  simp [appendReport, Report.andThen, Report.when_apply, Report.one_same, Report.one_other]

theorem appendReport_low : appendReport k excess low refused 11 = if low then some (0, 63) else none := by
  simp [appendReport, Report.andThen, Report.when_apply, Report.one_same, Report.one_other]

theorem appendReport_exhausted :
    appendReport k excess low refused 10 = if 0 < refused then some (k.val, BitVec.ofNat 32 refused) else none := by
  simp [appendReport, Report.andThen, Report.when_apply, Report.one_same, Report.one_other]

theorem appendReport_other {e : EventId} (h : e ∉ ([7, 10, 11] : List EventId)) : appendReport k excess low refused e = none := by
  simp only [List.mem_cons, List.not_mem_nil, or_false, not_or] at h
  obtain ⟨overran, exhausted, fell⟩ := h
  exact Report.andThen_none (Report.andThen_none (Report.when_none _ (Report.one_other _ _ overran))
    (Report.when_none _ (Report.one_other _ _ fell))) (Report.when_none _ (Report.one_other _ _ exhausted))

end

/-- What an append to source k's buffer has done (R43, R44) where the overrun has left the buffer kept and so many free cells: these cells
have been lent, and the reports are made. -/
structure Appended (k : SourceId) (xs : List Sample) (s t : State) (kept : Buffer) (free : Nat) (cells : List CellId) : Prop where
  borrowed : cells.length = kept.borrows xs free
  freeList : t.pool.freeList.length + cells.length = free
  store : (t.pool.freeList ++ (kept.chain ++ cells)).Perm (s.pool.freeList ++ s.sources[k].buffer.chain)
  lowWater : t.pool.lowWater = if 0 < cells.length then min s.pool.lowWater t.pool.freeList.length else s.pool.lowWater
  reports : Reports (appendReport k (s.sources[k].buffer.excess xs.length) (64 ≤ free ∧ t.pool.freeList.length < 64)
    (xs.length - kept.takes xs free)) s t

/-- An append is an overrun and a writing (R43). -/
theorem append_appended (k : SourceId) (xs : List Sample) (s : State) :
    let kept := s.sources[k].buffer.trimmed xs.length
    ∃ free cells, Appended k xs s (append k xs s) kept free cells ∧ (append k xs s).sources =
      s.sources.set k { s.sources[k] with buffer := kept.grown cells (xs.take (kept.takes xs free)) } := by
  intro kept
  have trimmed : s.sources[k].buffer.trimmed xs.length = kept := rfl
  clear_value kept
  have overran := overrun_sources k xs.length s
  have returned := overrun_cells k xs.length s
  have before := overrun_reports k xs.length s
  have low := overrun_lowWater k xs.length s
  obtain ⟨t, grown, written⟩ := writeSamples_grown k xs (overrun k xs.length s)
  rw [show writeSamples k xs (overrun k xs.length s) = append k xs s from rfl] at written
  rw [overran, get_set_same] at grown written
  generalize overrun k xs.length s = s1 at *
  rw [trimmed] at grown written overran returned
  dsimp only at grown written
  have enough := grown.enough
  have left := grown.free
  have lent : (s1.pool.freeList.take (kept.borrows xs s1.pool.freeList.length)).length = kept.borrows xs s1.pool.freeList.length :=
    List.length_take_of_le enough
  have pool : (append k xs s).pool = t.pool := by
    rw [written]
    split
    · exact raise_pool ..
    · rfl
  have sources : (append k xs s).sources = t.sources := by
    rw [written]
    split
    · exact raise_sources ..
    · rfl
  refine ⟨s1.pool.freeList.length, _, ⟨lent, ?_, ?_, ?_, ?_⟩, ?_⟩
  · rw [pool, lent]
    omega
  · rw [pool, grown.freeList]
    refine List.Perm.trans ?_ returned
    rw [← List.append_assoc]
    refine (List.perm_append_comm.trans ?_)
    rw [← List.append_assoc, List.take_append_drop]
  · rw [pool, lent, left, grown.lowWater, low]
  · have both := before.trans grown.reports
    have whole := both.trans (Reports.ite (kept.takes xs s1.pool.freeList.length < xs.length)
      (reports_raise .poolExhausted k.val (xs.length - kept.takes xs s1.pool.freeList.length) t) ⟨rfl, rfl, rfl⟩)
    have some : kept.takes xs s1.pool.freeList.length < xs.length ↔ 0 < xs.length - kept.takes xs s1.pool.freeList.length := by omega
    rw [← written, Report.when_congr _ some] at whole
    rw [pool, left]
    generalize s.sources[k].buffer.excess xs.length = excess at whole ⊢
    exact whole
  · rw [sources, grown.sources, overran, get_set_same, Vector.set_set]

/-- The append is seen in the cell store, in the buffer it found and in what it reports. -/
theorem Appended.of_same {k : SourceId} {xs : List Sample} {s s' t t' : State} {kept : Buffer} {free : Nat} {cells : List CellId}
    (h : Appended k xs s t kept free cells) (buffer : s.sources[k].buffer = s'.sources[k].buffer) (pool : s.pool = s'.pool)
    (pool' : t'.pool = t.pool) (quiet : Quiet s' s) (quiet' : Quiet t t') : Appended k xs s' t' kept free cells := by
  obtain ⟨borrowed, freeList, store, lowWater, reports⟩ := h
  rw [buffer] at store reports
  rw [pool] at store lowWater
  rw [← pool'] at freeList store lowWater reports
  exact ⟨borrowed, freeList, store, lowWater, .after_quiet quiet (.then_quiet reports quiet')⟩

end Sys2Proof.Machine
end

section
/-! PROOF. An arrival's work on its source's record: the first arrival, the prefill test, the filter with lock detection, and the end
of HOLDOVER; and what each of them reports. -/

namespace Sys2Proof.Machine

/-! ## The records -/

/-- A source after the first arrival's change (R51). -/
def Source.began (x : Source) : Source :=
  match x.state, x.mode with
  | .waiting, .auto => { x with state := .acquire, prefill := true, f := 0, acc := 0, run := 0, age := 0 }
  | .waiting, .fixed => { x with state := .fixed, prefill := true, f := x.fFixed, r := x.fFixed, acc := 0, run := 0, age := 0 }
  | _, _ => x

/-- A source after the filter and lock detection, which acts in ACQUIRE and TRACK alone (R54, R55). -/
def Source.detected (x : Source) : Source :=
  if x.state = .acquire ∨ x.state = .track then tracked x x.buffer.fill else x.filtered

/-- A source after the prefill test of an arrival (R52). -/
def Source.prefilled (x : Source) : Source :=
  if x.buffer.fill < x.settings.targetFill then { x with age := 0 }
  else if x.state = .fixed then { x with prefill := false, age := 0, r := x.fFixed }
  else Source.detected { x with prefill := false, age := 0 }

/-- A source after arrival processing (R34 step 4). -/
def Source.processed (x : Source) : Source :=
  if x.prefill then x.prefilled
  else match x.state with
    | .acquire => x.detected
    | .track => x.detected
    | .holdover => (resumed x).detected
    | .fixed => { x with age := 0 }
    | .off => x
    | .waiting => x

theorem setSource_self (k : SourceId) (s : State) : s.setSource k s.sources[k] = s := by
  simp only [State.setSource, Fin.getElem_fin, Vector.set_getElem_self]

theorem setSource_get (k : SourceId) (x : Source) (s : State) : (s.setSource k x).sources[k] = x := get_set_same _ _ _

theorem firstArrival_eq (k : SourceId) (s : State) : firstArrival k s = s.setSource k s.sources[k].began := by
  unfold firstArrival Source.began
  dsimp only
  cases state : s.sources[k].state with
  | waiting => cases mode : s.sources[k].mode <;> rfl
  | off | acquire | track | holdover | fixed => exact (setSource_self k s).symm

/-- A first arrival leaves no source WAITING, and takes none to OFF (R51). -/
theorem began_state {x : Source} (h : x.state ≠ .off) : x.began.state ≠ .off ∧ x.began.state ≠ .waiting := by
  unfold Source.began
  cases state : x.state <;> cases x.mode <;> simp_all

theorem began_of_running {x : Source} (h : x.state ≠ .waiting) : x.began = x := by
  unfold Source.began
  cases state : x.state <;> simp_all

theorem began_buffer (x : Source) : x.began.buffer = x.buffer := by
  unfold Source.began
  cases x.state <;> cases x.mode <;> rfl

/-- A source outside ACQUIRE and TRACK knows no lock, so its detection changes nothing (R55). -/
theorem detectLock_idle (k : SourceId) (e : Int) (s : State) (h : ¬(s.sources[k].state = .acquire ∨ s.sources[k].state = .track)) :
    detectLock k e s = s := by
  unfold detectLock
  cases state : s.sources[k].state <;> simp_all

theorem filterAndDetect_detected (k : SourceId) (s : State) :
    (filterAndDetect k s).sources = s.sources.set k s.sources[k].detected := by
  unfold Source.detected
  by_cases h : s.sources[k].state = .acquire ∨ s.sources[k].state = .track
  · rw [if_pos h, filterAndDetect_sources k s h]
  · rw [if_neg h, filterAndDetect, detectLock_idle k _ _ (by rw [setSource_get]; exact h)]
    rfl

theorem prefillTest_sources (k : SourceId) (s : State) : (prefillTest k s).sources = s.sources.set k s.sources[k].prefilled := by
  unfold prefillTest Source.prefilled
  dsimp only
  split
  · rfl
  · split
    · rfl
    · rw [filterAndDetect_detected, State.setSource_sources, get_set_same, Vector.set_set]

theorem endHoldover_sources (k : SourceId) (s : State) : (endHoldover k s).sources = s.sources.set k (resumed s.sources[k]) := by
  unfold endHoldover resumed
  dsimp only
  split
  · rfl
  · split
    · rw [raise_sources, countLockLoss_sources, State.setSource_sources, get_set_same, Vector.set_set]
    · rfl

theorem arrivalProcessing_sources (k : SourceId) (s : State) :
    (arrivalProcessing k s).sources = s.sources.set k s.sources[k].processed := by
  unfold arrivalProcessing Source.processed
  dsimp only
  split
  · exact prefillTest_sources k s
  · cases s.sources[k].state with
    | acquire => exact filterAndDetect_detected k s
    | track => exact filterAndDetect_detected k s
    | holdover =>
      dsimp only
      rw [filterAndDetect_detected, endHoldover_sources, get_set_same, Vector.set_set]
    | fixed => rfl
    | off => exact (Vector.set_getElem_self k.isLt).symm
    | waiting => exact (Vector.set_getElem_self k.isLt).symm

/-- The state in which HOLDOVER ends (R64). -/
theorem resumed_state (x : Source) : (resumed x).state = .acquire ∨ (resumed x).state = .track := by
  unfold resumed
  dsimp only
  split
  · dsimp only
    split
    · exact .inr rfl
    · exact .inl rfl
  · exact .inl rfl

theorem detected_of_state {x : Source} (h : x.state = .acquire ∨ x.state = .track) : x.detected = tracked x x.buffer.fill := if_pos h

/-- The claims' record of an arrival, on the source that the first arrival has left. -/
theorem arrived_eq (x : Source) : arrived x =
    if x.began.prefill = true ∧ x.buffer.samples.length < x.began.settings.targetFill then { x.began with age := 0 }
    else match x.began.state with
      | .fixed => { x.began with prefill := false, age := 0, r := if x.began.prefill then x.began.fFixed else x.began.r }
      | .holdover => tracked (resumed x.began) x.buffer.samples.length
      | _ => tracked (if x.began.prefill then { x.began with prefill := false, age := 0 } else x.began) x.buffer.samples.length := rfl

theorem began_prefill {x : Source} (h : x.prefill = true → x.state = .acquire ∨ x.state = .fixed) :
    x.began.prefill = true → x.began.state = .acquire ∨ x.began.state = .fixed := by
  unfold Source.began
  cases state : x.state <;> cases x.mode <;> simp_all

/-- Where prefill is set in ACQUIRE and FIXED alone, arrival processing is the work that the claims write out. -/
theorem processed_began (x : Source) (on : x.state ≠ .off) (prefill : x.prefill = true → x.state = .acquire ∨ x.state = .fixed) :
    x.began.processed = arrived x := by
  obtain ⟨notOff, notWaiting⟩ := began_state on
  have states := began_prefill prefill
  rw [arrived_eq, ← began_buffer]
  generalize x.began = y at notOff notWaiting states ⊢
  unfold Source.processed
  cases filling : y.prefill with
  | true =>
    simp only [if_true, true_and]
    unfold Source.prefilled
    by_cases low : y.buffer.samples.length < y.settings.targetFill
    · rw [if_pos low]
      exact if_pos low
    · rw [if_neg low]
      refine (if_neg low).trans ?_
      rcases states filling with state | state
      · rw [if_neg (by rw [state]; decide)]
        refine (detected_of_state (x := { y with prefill := false, age := 0 }) (.inl state)).trans ?_
        rw [state]
        rfl
      · rw [if_pos state, state]
  | false =>
    simp only [if_false, false_and, Bool.false_eq_true]
    cases state : y.state with
    | acquire => exact detected_of_state (.inl state)
    | track => exact detected_of_state (.inr state)
    | holdover =>
      have buffer : (resumed y).buffer = y.buffer := by unfold resumed; dsimp only; split <;> rfl
      exact (detected_of_state (resumed_state y)).trans (by rw [buffer]; rfl)
    | fixed => rw [← filling]
    | off => exact absurd state notOff
    | waiting => exact absurd state notWaiting

/-! ## Reports of lock -/

/-- What an arrival reports of a lock: its loss, with the limit on lol, and its gain (R55, R57). -/
def lockReport (k : SourceId) (lost gained : Prop) [Decidable lost] [Decidable gained] (x y : Source) : Report :=
  (((Report.one 4 k.val (BitVec.ofNat 32 y.lol)).when
      (lost ∧ x.lol ≤ x.settings.lolThreshold ∧ x.settings.lolThreshold < y.lol)).andThen
    ((Report.one 3 k.val (BitVec.ofNat 32 y.lol)).when lost)).andThen
    ((Report.one 2 k.val (BitVec.ofInt 32 y.f)).when gained)

theorem lockReport_quiet (k : SourceId) {lost gained : Prop} [Decidable lost] [Decidable gained] (x y : Source) (h : ¬lost)
    (g : ¬gained) :
    lockReport k lost gained x y = .nothing := by
  unfold lockReport Report.when
  rw [if_neg (fun c => h c.1), if_neg h, if_neg g]
  rfl

theorem lockReport_lost (k : SourceId) {lost gained : Prop} [Decidable lost] [Decidable gained] (x y : Source) (h : lost) (g : ¬gained) :
    lockReport k lost gained x y = ((Report.one 4 k.val (BitVec.ofNat 32 y.lol)).when
      (x.lol ≤ x.settings.lolThreshold ∧ x.settings.lolThreshold < y.lol)).andThen (.one 3 k.val (BitVec.ofNat 32 y.lol)) := by
  unfold lockReport
  rw [Report.when_congr _ (and_iff_right h)]
  unfold Report.when
  rw [if_pos h, if_neg g]
  rfl

theorem lockReport_gained (k : SourceId) {lost gained : Prop} [Decidable lost] [Decidable gained] (x y : Source) (h : ¬lost) (g : gained) :
    lockReport k lost gained x y = .one 2 k.val (BitVec.ofInt 32 y.f) := by
  unfold lockReport Report.when
  rw [if_neg (fun c => h c.1), if_neg h, if_pos g]
  exact Report.nothing_andThen _

/-- lol takes a value, and SOURCE_LOL_LIMIT is raised when that brings it above the threshold (R57). -/
theorem setLol_reports (k : SourceId) (n : Nat) (s : State) : Reports ((Report.one 4 k.val (BitVec.ofNat 32 n)).when
    (s.sources[k].lol ≤ s.sources[k].settings.lolThreshold ∧ s.sources[k].settings.lolThreshold < n)) s (setLol k n s) := by
  have raised := (reports_raise .sourceLolLimit k.val n (s.setSource k { s.sources[k] with lol := n })).after_quiet (Quiet.setSource k _ s)
  exact raised.ite _ (Quiet.setSource k _ s)

/-- A lock loss is counted and reported, on a record z that has been written for x (R55, R57). -/
theorem lockLoss_reports (k : SourceId) (x z : Source) (s : State) (lol : z.lol = x.lol) (settings : z.settings = x.settings)
    {lost gained : Prop} [Decidable lost] [Decidable gained] (h : lost) (g : ¬gained) :
    let t := countLockLoss k (s.setSource k z)
    Reports (lockReport k lost gained x { z with lol := min 15 (z.lol + 1) }) s (raise .sourceLockLost k.val t.sources[k].lol t) := by
  intro t
  have counted : t.sources[k].lol = min 15 (z.lol + 1) := by
    change (countLockLoss k (s.setSource k z)).sources[k].lol = _
    rw [countLockLoss_sources, get_set_same, setSource_get]
  have limit := setLol_reports k (min 15 ((s.setSource k z).sources[k].lol + 1)) (s.setSource k z)
  have loss : Reports _ (s.setSource k z) t := limit
  rw [setSource_get, lol, settings] at loss
  rw [counted, lol, lockReport_lost k x _ h g]
  exact (loss.after_quiet (Quiet.setSource k z s)).trans (reports_raise ..)

/-- The record that a counted loss leaves. -/
theorem lockLoss_get (k : SourceId) (z : Source) (s : State) :
    let t := countLockLoss k (s.setSource k z)
    (raise .sourceLockLost k.val t.sources[k].lol t).sources[k] = { z with lol := min 15 (z.lol + 1) } := by
  intro t
  rw [raise_sources, show t = countLockLoss k (s.setSource k z) from rfl, countLockLoss_sources, get_set_same, setSource_get]

end Sys2Proof.Machine
end

section
/-! PROOF. What an arrival's work reports of its source's lock, and the laws of that work's record: the loss is counted, the first
arrival happens once. -/

namespace Sys2Proof.Machine

/-! ## Lock detection -/

/-- Work that changes no lock reports none. -/
theorem reports_lock_quiet (k : SourceId) {lost gained : Prop} [Decidable lost] [Decidable gained] (x y : Source) {s t : State}
    (h : ¬lost) (g : ¬gained) (quiet : Quiet s t) : Reports (lockReport k lost gained x y) s t := by
  rw [lockReport_quiet k x y h g]
  exact .of_quiet quiet

/-- Lock detection reports a lock of TRACK that it ends, and one that it finds (R55, R57). -/
theorem detectLock_reports (k : SourceId) (e : Int) (s : State) :
    let x := s.sources[k]
    let y := (detectLock k e s).sources[k]
    Reports (lockReport k (x.state = .track ∧ x.locked = true ∧ y.locked = false)
      (x.state = .track ∧ x.locked = false ∧ y.locked = true) x y) s (detectLock k e s) := by
  intro x
  suffices all : ∀ t, detectLock k e s = t → Reports (lockReport k (x.state = .track ∧ x.locked = true ∧ t.sources[k].locked = false)
      (x.state = .track ∧ x.locked = false ∧ t.sources[k].locked = true) x t.sources[k]) s t from all _ rfl
  intro t result
  rw [detectLock, show s.sources[k] = x from rfl] at result
  dsimp only at result
  cases state : x.state with
  | track =>
    simp only [state] at result
    cases locked : x.locked with
    | false =>
      simp only [locked, if_true] at result
      split at result
      · split at result
        · rw [← result, raiseInt_sources, setSource_get, lockReport_gained k x _ (by simp) (by simp)]
          exact (reports_raiseInt ..).after_quiet (Quiet.setSource ..)
        · rw [← result, setSource_get]
          exact reports_lock_quiet k x _ (by simp) (by simp) (Quiet.setSource ..)
      · rw [← result, setSource_get]
        exact reports_lock_quiet k x _ (by simp) (by simp) (Quiet.setSource ..)
    | true =>
      simp only [locked, Bool.true_eq_false, if_false] at result
      split at result
      · rw [← result, setSource_get]
        exact reports_lock_quiet k x _ (by simp) (by simp) (Quiet.setSource ..)
      · rw [← result, lockLoss_get]
        exact lockLoss_reports k x { x with run := 0, locked := false, state := .acquire } s rfl rfl (by simp) (by simp)
  | acquire =>
    simp only [state] at result
    refine reports_lock_quiet k x _ (by simp) (by simp) ?_
    rw [← result]
    split
    · split <;> exact Quiet.setSource ..
    · exact Quiet.setSource ..
  | off | waiting | holdover | fixed =>
    simp only [state] at result
    rw [← result]
    exact reports_lock_quiet k x _ (by simp) (by simp) ⟨rfl, rfl, rfl⟩

/-- The filter moves no lock, so that filter and detection together report what the detection does. -/
theorem filterAndDetect_reports (k : SourceId) (s : State) :
    let x := s.sources[k]
    Reports (lockReport k (x.state = .track ∧ x.locked = true ∧ x.detected.locked = false)
      (x.state = .track ∧ x.locked = false ∧ x.detected.locked = true) x x.detected) s (filterAndDetect k s) := by
  intro x
  have result : (filterAndDetect k s).sources[k] = x.detected := by rw [filterAndDetect_detected, get_set_same]
  have detection := detectLock_reports k (fillError x) (s.setSource k x.filtered)
  rw [show detectLock k (fillError x) (s.setSource k x.filtered) = filterAndDetect k s from rfl, result, setSource_get] at detection
  exact detection.after_quiet (Quiet.setSource ..)

/-- The end of HOLDOVER reports the loss of a lock that it does not resume (R64). -/
theorem endHoldover_reports (k : SourceId) (s : State) :
    let x := s.sources[k]
    Reports (lockReport k (x.settings.reacquireLimit < x.age ∧ x.priorLocked = true) False x (resumed x)) s (endHoldover k s) := by
  intro x
  unfold endHoldover resumed
  dsimp only
  rw [show s.sources[k] = x from rfl]
  by_cases soon : x.age ≤ x.settings.reacquireLimit
  · rw [if_pos soon, if_pos soon]
    exact reports_lock_quiet k _ _ (by omega) id (Quiet.setSource ..)
  · rw [if_neg soon, if_neg soon]
    cases lock : x.priorLocked with
    | true =>
      simp only [if_true]
      exact lockLoss_reports k x { x with age := 0, priorState := none, priorLocked := false, state := .acquire, locked := false } s rfl rfl
        ⟨Nat.lt_of_not_le soon, rfl⟩ id
    | false => exact reports_lock_quiet k _ _ (by simp) id (Quiet.setSource ..)

/-! ## The whole arrival -/

/-- A source's work at an arrival makes y of the record x: it loses or gains a lock under these conditions, and reports and counts it. -/
def LockTold (k : SourceId) (lost gained : Prop) [Decidable lost] [Decidable gained] (x y : Source) (s t : State) : Prop :=
  Reports (lockReport k lost gained x y) s t ∧ y.lol = if lost then min 15 (x.lol + 1) else x.lol

section
variable {k : SourceId} {lost gained lost' gained' : Prop} [Decidable lost] [Decidable gained] [Decidable lost'] [Decidable gained']

theorem LockTold.congr {x x' y y' : Source} {s t : State} (h : LockTold k lost gained x y s t) (losses : lost ↔ lost')
    (gains : gained ↔ gained') (lol : x.lol = x'.lol) (settings : x.settings = x'.settings) (same : y = y') :
    LockTold k lost' gained' x' y' s t := by
  obtain ⟨reports, counted⟩ := h
  subst same
  unfold LockTold lockReport at *
  rw [← lol, ← settings, if_congr losses.symm rfl rfl, Report.when_congr _ losses.symm, Report.when_congr _ gains.symm,
    Report.when_congr _ (and_congr losses.symm Iff.rfl)]
  exact ⟨reports, counted⟩

theorem LockTold.of_quiet {x y : Source} {s t : State} (h : Quiet s t) (lol : y.lol = x.lol) : LockTold k False False x y s t :=
  ⟨reports_lock_quiet k x y id id h, lol⟩

theorem LockTold.after_quiet {x y : Source} {s t u : State} (h : Quiet s t) (g : LockTold k lost gained x y t u) :
    LockTold k lost gained x y s u := ⟨.after_quiet h g.1, g.2⟩

/-- A loss, and then work that neither loses nor gains a lock. -/
theorem LockTold.then_quiet {x y z : Source} {s t u : State} (h : LockTold k lost False x y s t) (g : LockTold k False False y z t u) :
    LockTold k lost False x z s u := by
  obtain ⟨reports, counted⟩ := h
  obtain ⟨nothing, same⟩ := g
  rw [lockReport_quiet k y z id id] at nothing
  have lol : z.lol = y.lol := same
  have both := reports.trans nothing
  rw [Report.andThen_nothing] at both
  refine ⟨?_, lol.trans counted⟩
  unfold lockReport at both ⊢
  rw [lol]
  simpa only [Report.when, if_false] using both

/-- Work that neither loses nor gains a lock, and then more. -/
theorem LockTold.after_idle {x y z : Source} {s t u : State} (h : LockTold k False False x y s t) (g : LockTold k lost gained y z t u)
    (settings : y.settings = x.settings) : LockTold k lost gained x z s u := by
  obtain ⟨nothing, same⟩ := h
  obtain ⟨reports, counted⟩ := g.congr Iff.rfl Iff.rfl same settings rfl
  rw [lockReport_quiet k x y id id] at nothing
  have both := nothing.trans reports
  rw [Report.nothing_andThen] at both
  exact ⟨both, counted⟩

end

/-- The filter and detection count a loss of lock in TRACK alone (R55, R57). -/
theorem detected_lol (x : Source) : x.detected.lol =
    if x.state = .track ∧ x.locked = true ∧ x.detected.locked = false then min 15 (x.lol + 1) else x.lol := by
  by_cases track : x.state = .track
  · rw [detected_of_state (.inr track)]
    unfold tracked
    simp only [track]
    split
    · cases x.locked <;> simp
    · cases x.locked <;> simp
  · rw [if_neg fun h => track h.1]
    unfold Source.detected
    split
    · next state =>
      have acquire := state.resolve_right track
      unfold tracked
      simp only [acquire]
      split <;> rfl
    · rfl

theorem filterAndDetect_told (k : SourceId) (s : State) :
    let x := s.sources[k]
    LockTold k (x.state = .track ∧ x.locked = true ∧ x.detected.locked = false)
      (x.state = .track ∧ x.locked = false ∧ x.detected.locked = true) x x.detected s (filterAndDetect k s) :=
  ⟨filterAndDetect_reports k s, detected_lol _⟩

theorem endHoldover_told (k : SourceId) (s : State) :
    let x := s.sources[k]
    LockTold k (x.settings.reacquireLimit < x.age ∧ x.priorLocked = true) False x (resumed x) s (endHoldover k s) := by
  refine ⟨endHoldover_reports k s, ?_⟩
  generalize s.sources[k] = x
  unfold resumed
  by_cases soon : x.age ≤ x.settings.reacquireLimit
  · simp [soon, Nat.not_lt_of_le soon]
  · simp [soon, Nat.lt_of_not_le soon]

/-- The prefill test neither loses nor gains a lock: a source in prefill is not in TRACK (R52). -/
theorem prefillTest_told (k : SourceId) (s : State) (h : s.sources[k].state ≠ .track) :
    LockTold k False False s.sources[k] s.sources[k].prefilled s (prefillTest k s) := by
  unfold prefillTest Source.prefilled
  generalize hx : s.sources[k] = x at h
  dsimp only
  split
  · exact .of_quiet (Quiet.setSource ..) rfl
  · split
    · exact .of_quiet (Quiet.setSource ..) rfl
    · have detection := filterAndDetect_told k (s.setSource k { x with prefill := false, age := 0 })
      rw [setSource_get] at detection
      exact .after_quiet (Quiet.setSource ..)
        (detection.congr (iff_of_false (fun c => h c.1) id) (iff_of_false (fun c => h c.1) id) rfl rfl rfl)

/-- A source that leaves HOLDOVER past its limit is in ACQUIRE, and a lock that it resumes is one of TRACK (R64). -/
theorem resumed_cases (x : Source) :
    (x.settings.reacquireLimit < x.age ∧ (resumed x).state = .acquire) ∨
      (x.age ≤ x.settings.reacquireLimit ∧ ((resumed x).state = .track ↔ x.priorState = some .track) ∧
        (resumed x).locked = x.priorLocked ∧ (resumed x).settings = x.settings) := by
  unfold resumed
  dsimp only
  by_cases soon : x.age ≤ x.settings.reacquireLimit
  · rw [if_pos soon]
    refine .inr ⟨soon, ?_, rfl, rfl⟩
    dsimp only
    split <;> simp_all
  · rw [if_neg soon]
    exact .inl ⟨Nat.lt_of_not_le soon, rfl⟩

/-- The arrival that ends HOLDOVER (R64). -/
theorem holdoverEnd_told (k : SourceId) (s : State) :
    let x := s.sources[k]
    let y := (resumed x).detected
    LockTold k (x.priorLocked = true ∧ (x.settings.reacquireLimit < x.age ∨ (x.priorState = some .track ∧ y.locked = false)))
      ((x.age ≤ x.settings.reacquireLimit ∧ x.priorState = some .track ∧ x.priorLocked = false) ∧ y.locked = true) x y s
      (filterAndDetect k (endHoldover k s)) := by
  intro x y
  have ended : LockTold k (x.settings.reacquireLimit < x.age ∧ x.priorLocked = true) False x (resumed x) s (endHoldover k s) :=
    endHoldover_told k s
  have detection := filterAndDetect_told k (endHoldover k s)
  rw [show (endHoldover k s).sources[k] = resumed x by rw [endHoldover_sources, get_set_same]] at detection
  clear_value x
  rcases resumed_cases x with ⟨late, state⟩ | ⟨soon, state, locked, settings⟩
  · have acquire : ¬(resumed x).state = .track := by rw [state]; decide
    have idle := detection.congr (lost' := False) (gained' := False) (iff_of_false (fun c => acquire c.1) id)
      (iff_of_false (fun c => acquire c.1) id) rfl rfl rfl
    have never : ¬x.age ≤ x.settings.reacquireLimit := Nat.not_le_of_lt late
    exact (ended.then_quiet idle).congr (by simp [late]) (by simp [never]) rfl rfl rfl
  · have never : ¬x.settings.reacquireLimit < x.age := Nat.not_lt_of_le soon
    have early := ended.congr (lost' := False) (gained' := False) (by simp [never]) Iff.rfl rfl rfl rfl
    dsimp only at detection
    refine (early.after_idle detection settings).congr ?_ ?_ rfl rfl rfl
    · rw [state, locked]
      simp only [never, false_or, y]
      tauto
    · rw [state, locked]
      simp only [soon, true_and, and_assoc, y]

/-- Arrival processing loses and gains a lock as the claims say. -/
theorem arrivalProcessing_told (k : SourceId) (s : State) (running : s.sources[k].state ≠ .off ∧ s.sources[k].state ≠ .waiting)
    (prefill : s.sources[k].prefill = true → s.sources[k].state = .acquire ∨ s.sources[k].state = .fixed) :
    let x := s.sources[k]
    LockTold k (LosesLock x) (GainsLock x) x (arrived x) s (arrivalProcessing k s) := by
  intro x
  have result : x.processed = arrived x := by
    rw [← processed_began x running.1 prefill, began_of_running running.2]
  unfold LosesLock GainsLock
  rw [← result]
  unfold Source.processed arrivalProcessing
  dsimp only
  rw [show s.sources[k] = x from rfl] at *
  split
  · next filling =>
    have resting : x.state ≠ .track ∧ x.state ≠ .holdover := by
      rcases prefill filling with state | state <;> simp [state]
    exact (prefillTest_told k s resting.1).congr (by simp [resting]) (by simp [resting]) rfl rfl rfl
  · cases state : x.state with
    | acquire =>
      refine (filterAndDetect_told k s).congr ?_ ?_ rfl rfl rfl <;> simp [state, show s.sources[k] = x from rfl]
    | track =>
      refine (filterAndDetect_told k s).congr ?_ ?_ rfl rfl rfl <;> simp [state, show s.sources[k] = x from rfl]
    | holdover =>
      refine (holdoverEnd_told k s).congr ?_ ?_ rfl rfl rfl <;> simp [show s.sources[k] = x from rfl]
    | fixed =>
      exact LockTold.congr (y := { x with age := 0, state := .fixed }) (.of_quiet (Quiet.setSource ..) rfl) (by simp) (by simp) rfl rfl rfl
    | off => exact absurd state running.1
    | waiting => exact absurd state running.2

end Sys2Proof.Machine
end

section
/-! PROOF. The blocks of the uplink and of the line inputs: their bytes, their judgement, and which of them arrive. -/

namespace Sys2Proof.Machine

/-! ## The bytes of an uplink block -/

/-- A sample's two bytes, the low byte first (R174). -/
theorem append_eq_ofNat (lo hi : Byte) : hi ++ lo = BitVec.ofNat 16 (lo.toNat + 256 * hi.toNat) := by
  have low := lo.isLt
  have high := hi.isLt
  apply BitVec.eq_of_toNat_eq
  rw [BitVec.toNat_append, BitVec.toNat_ofNat, ← Nat.shiftLeft_add_eq_or_of_lt low, Nat.shiftLeft_eq]
  omega

theorem field16_drop (l : List Byte) (n i : Nat) : field16 (l.drop n) i = field16 l (n + i) := by
  simp [field16, field8, List.getD_eq_getElem?_getD, Nat.add_assoc]

/-- The samples that a run of 2n bytes lays out (R174). -/
theorem samplesOf_eq (n : Nat) (l : List Byte) (h : l.length = 2 * n) :
    samplesOf l = (List.range n).map (fun i => BitVec.ofNat 16 (field16 l (2 * i))) := by
  induction n generalizing l with
  | zero =>
    obtain rfl := List.length_eq_zero_iff.mp h
    rfl
  | succ n ih =>
    obtain ⟨lo, hi, rest, rfl⟩ : ∃ lo hi rest, l = lo :: hi :: rest := by
      match l, h with
      | lo :: hi :: rest, _ => exact ⟨lo, hi, rest, rfl⟩
    have shorter : rest.length = 2 * n := by
      rw [List.length_cons, List.length_cons] at h
      omega
    rw [List.range_succ_eq_map, List.map_cons, List.map_map, samplesOf, ih rest shorter, append_eq_ofNat]
    rfl
/-- The block that good bytes lay out. -/
def uplinkBlockOf (bytes : List Byte) : UplinkBlock :=
  { deviceId := BitVec.ofNat 32 (field32 bytes 0), sequence := bytes.getD 4 0,
    samples := (List.range (field8 bytes 5)).map (fun i => BitVec.ofNat 16 (field16 bytes (6 + 2 * i))) }

theorem uplinkBlockOf_samples_length (bytes : List Byte) : (uplinkBlockOf bytes).samples.length = field8 bytes 5 := by
  rw [uplinkBlockOf, List.length_map, List.length_range]

theorem parseUplink_good {bytes : List Byte} (h : bytes.length = 6 + 2 * field8 bytes 5) :
    parseUplink bytes = some (uplinkBlockOf bytes) := by
  have samples := samplesOf_eq (field8 bytes 5) (bytes.drop 6) (by rw [List.length_drop]; omega)
  have sequence : BitVec.ofNat 8 (field8 bytes 4) = bytes.getD 4 0 := BitVec.ofNat_toNat .. |>.trans (BitVec.setWidth_eq _)
  rw [parseUplink, if_pos ⟨by omega, h⟩, samples, sequence]
  simp only [field16_drop]
  rfl

theorem parseUplink_bad {bytes : List Byte} (h : bytes.length ≠ 6 + 2 * field8 bytes 5) : parseUplink bytes = none :=
  if_neg fun c => h c.2

/-! ## The judgement of an uplink block (R31) -/

/-- The air timer past uplink slot k. -/
def State.pastSlot (k : RosterId) (s : State) : State := { s with air := { s.air with due := 25 + k.val } }

/-- A delivery outside its slot is ignored (R30). -/
theorem uplinkDelivery_misplaced {k : RosterId} {s : State} (bytes : List Byte) (good : Bool)
    (h : s.air.running = false ∨ 24 + k.val < s.air.due) : exec (.uplinkBlockDelivery k bytes good) s = .next s := by
  refine if_neg fun c => ?_
  rcases h with stopped | late
  · rw [stopped] at c
    exact absurd c.1 Bool.false_ne_true
  · omega

/-- A delivery in its slot whose layout is bad is absent (R31, R174). -/
theorem uplinkDelivery_bad {k : RosterId} {s : State} {bytes : List Byte} (good : Bool) (running : s.air.running = true)
    (due : s.air.due ≤ 24 + k.val) (layout : bytes.length ≠ 6 + 2 * field8 bytes 5) :
    exec (.uplinkBlockDelivery k bytes good) s = .next (s.pastSlot k) := by
  refine (if_pos ⟨running, due⟩).trans ?_
  dsimp only
  rw [parseUplink_bad layout]
  rfl

/-- A delivery in its slot whose layout is good is judged (R31). -/
theorem uplinkDelivery_good {k : RosterId} {s : State} {bytes : List Byte} (good : Bool) (running : s.air.running = true)
    (due : s.air.due ≤ 24 + k.val) (layout : bytes.length = 6 + 2 * field8 bytes 5) :
    exec (.uplinkBlockDelivery k bytes good) s = .next (takeUplinkBlock k (uplinkBlockOf bytes) good (s.pastSlot k)) := by
  refine (if_pos ⟨running, due⟩).trans ?_
  dsimp only
  rw [parseUplink_good layout]
  rfl

theorem judge_absent {k : RosterId} {b : UplinkBlock} {good : Bool} {s : State}
    (h : good = false ∨ b.samples.length < 152 ∨ 168 < b.samples.length) : judge k b good s = .absent := by
  unfold judge
  rcases h with bad | count
  · exact if_pos bad
  · rw [if_pos count, ite_self]

theorem raise_uplinkForeign (k : Nat) (id : DeviceId) (s : State) : raise .uplinkForeign k id.toNat s = reported 9 k id s := by
  rw [← raiseKind_eq_reported, raise, BitVec.ofNat_toNat, BitVec.setWidth_eq]
  rfl

section
variable {k : RosterId} {b : UplinkBlock} {s : State} (few : 152 ≤ b.samples.length) (many : b.samples.length ≤ 168)
include few many

/-- A block with a good check and a good count is judged by its device and its sequence. -/
theorem judge_counted : judge k b true s = if s.roster[k] ≠ .bound b.deviceId then .foreign
    else if s.sources[uplinkSource k].lastSequence = some b.sequence then .duplicate else .accepted := by
  rw [judge, if_neg (by decide), if_neg (by omega)]

theorem takeUplinkBlock_foreign (h : s.roster[k] ≠ .bound b.deviceId) : takeUplinkBlock k b true s = reported 9 k b.deviceId s := by
  rw [takeUplinkBlock, judge_counted few many, if_pos h, ← raise_uplinkForeign]

theorem takeUplinkBlock_duplicate (h : s.roster[k] = .bound b.deviceId)
    (repeated : s.sources[uplinkSource k].lastSequence = some b.sequence) : takeUplinkBlock k b true s = s := by
  rw [takeUplinkBlock, judge_counted few many, if_neg (not_not_intro h), if_pos repeated]

theorem takeUplinkBlock_accepted (h : s.roster[k] = .bound b.deviceId)
    (fresh : s.sources[uplinkSource k].lastSequence ≠ some b.sequence) :
    takeUplinkBlock k b true s = arrival (uplinkSource k) (some b.sequence) b.samples s := by
  rw [takeUplinkBlock, judge_counted few many, if_neg (not_not_intro h), if_neg fresh]

end

/-- A source in OFF takes nothing (assumption 8). -/
theorem arrival_off {k : SourceId} {s : State} (q : Option Byte) (xs : List Sample) (h : s.sources[k].state = .off) :
    arrival k q xs s = s := if_pos h

theorem arrival_on {k : SourceId} {s : State} (q : Option Byte) (xs : List Sample) (h : s.sources[k].state ≠ .off) :
    arrival k q xs s = arrivalProcessing k (markArrived k q (append k xs (firstArrival k s))) := if_neg h

/-! ## The block of a line input (R35) -/

theorem lineTaken_eq (l : Fin 2) (s : State) : lineTaken l s = lineCame l s := rfl

theorem lineDelivery_ignored {l : Fin 2} {s : State} (v : Vector Sample 160)
    (h : s.air.running = false ∨ 36 < s.air.due ∨ lineCame l s = true ∨ s.sources[lineSource l].line = false) :
    exec (.lineBlockDelivery l v) s = .next s := by
  refine if_neg fun c => ?_
  obtain ⟨running, due, came, line⟩ := c
  rw [lineTaken_eq] at came
  rcases h with h | h | h | h
  · simp [h] at running
  · omega
  · simp [h] at came
  · rw [h] at line
    exact absurd line Bool.false_ne_true

theorem lineDelivery_taken {l : Fin 2} {s : State} (v : Vector Sample 160) (running : s.air.running = true) (due : s.air.due ≤ 36)
    (came : lineCame l s = false) (line : s.sources[lineSource l].line = true) :
    exec (.lineBlockDelivery l v) s = .next (arrival (lineSource l) none v.toList (takeLine l s)) := if_pos ⟨running, due, came, line⟩

/-- Settles O30, test by test in the order of R31. -/
theorem blocksAreJudged : Obligations.BlocksAreJudged := by
  intro s
  constructor
  · intro k bytes good s1 n id x
    refine ⟨uplinkDelivery_misplaced bytes good, fun running due => ⟨fun h => ?_, fun check layout few many => ?_⟩⟩
    · by_cases layout : bytes.length = 6 + 2 * n
      · rw [uplinkDelivery_good good running due layout, takeUplinkBlock, judge_absent]
        · rfl
        · rw [uplinkBlockOf_samples_length]
          exact h.imp_right fun c => c.resolve_left (not_not_intro layout)
      · exact uplinkDelivery_bad good running due layout
    · rw [show n = _ from (uplinkBlockOf_samples_length bytes).symm] at few many
      rw [uplinkDelivery_good good running due layout, check]
      refine ⟨fun foreign => congrArg _ (takeUplinkBlock_foreign few many foreign), fun bound repeated => congrArg _ ?_⟩
      by_cases same : x.lastSequence = some (bytes.getD 4 0)
      · exact takeUplinkBlock_duplicate few many bound same
      · have off : (s.pastSlot k).sources[uplinkSource k].state = .off := repeated.resolve_left same
        have ignored := takeUplinkBlock_accepted (s := s.pastSlot k) few many bound same
        rwa [arrival_off _ _ off] at ignored
  · intro l v x
    refine ⟨lineDelivery_ignored v, fun running due came line off => ?_⟩
    exact (lineDelivery_taken v running due came line).trans (congrArg _ (arrival_off (s := takeLine l s) none _ off))

/-! ## Arrivals -/

/-- An arrival's command runs the arrival once the air timer's place has moved (R34, R35). -/
theorem exec_arrives {c : Instr} {k : SourceId} {q : Option Byte} {xs : List Sample} {s : State} (h : Arrives c k q xs s) :
    ∃ air : Air, air.count = s.air.count ∧ exec c s = .next (arrival k q xs { s with air := air }) ∧
      PlaceMoved c s { s with air := air } := by
  obtain ⟨running, -, uplink | line⟩ := h
  · obtain ⟨e, bytes, rfl, same, due, layout, few, many, bound, rfl, fresh, rfl⟩ := uplink
    obtain rfl : k = uplinkSource e := Fin.ext same
    rw [← uplinkBlockOf_samples_length bytes] at few many
    refine ⟨{ s.air with due := 25 + e.val }, rfl, ?_, ?_, ?_⟩
    · rw [uplinkDelivery_good true running due layout]
      exact congrArg _ (takeUplinkBlock_accepted few many bound fresh)
    · rintro _ _ _ ⟨⟩
      rfl
    · rintro _ _ ⟨⟩
  · obtain ⟨l, v, rfl, same, due, came, on, rfl, rfl⟩ := line
    obtain rfl : k = lineSource l := Fin.ext same
    refine ⟨(takeLine l s).air, rfl, lineDelivery_taken v running due came on, ?_, ?_⟩
    · rintro _ _ _ ⟨⟩
    · rintro _ _ ⟨⟩
      rfl

end Sys2Proof.Machine
end

section
/-! PROOF. An arrival as a whole: its samples are appended, its source is worked on, and both are reported. -/

namespace Sys2Proof.Machine

/-! ## Work whose reports are few -/

/-- The work reports kinds of this list alone. -/
def ReportsOnly (l : List EventId) (s t : State) : Prop := ∃ r, Reports r s t ∧ ∀ e ∉ l, r e = none

theorem ReportsOnly.of_quiet {l : List EventId} {s t : State} (h : Quiet s t) : ReportsOnly l s t := ⟨_, .of_quiet h, fun _ _ => rfl⟩

theorem ReportsOnly.trans {l : List EventId} {s t u : State} (h : ReportsOnly l s t) (g : ReportsOnly l t u) : ReportsOnly l s u := by
  obtain ⟨r, reports, none⟩ := h
  obtain ⟨q, more, none'⟩ := g
  refine ⟨_, reports.trans more, fun e other => ?_⟩
  rw [Report.andThen, none e other, none' e other]
  rfl

/-! ## Reports of lock, kind by kind -/

section
variable (k : SourceId) (lost gained : Prop) [Decidable lost] [Decidable gained] (x y : Source)

theorem lockReport_locked : lockReport k lost gained x y 2 = if gained then some (k.val, BitVec.ofInt 32 y.f) else none := by
  simp [lockReport, Report.andThen, Report.when_apply, Report.one_same, Report.one_other]

theorem lockReport_lockLost : lockReport k lost gained x y 3 = if lost then some (k.val, BitVec.ofNat 32 y.lol) else none := by
  simp [lockReport, Report.andThen, Report.when_apply, Report.one_same, Report.one_other]

theorem lockReport_lolLimit : lockReport k lost gained x y 4 =
    if lost ∧ x.lol ≤ x.settings.lolThreshold ∧ x.settings.lolThreshold < y.lol then some (k.val, BitVec.ofNat 32 y.lol) else none := by
  simp [lockReport, Report.andThen, Report.when_apply, Report.one_same, Report.one_other]

theorem lockReport_other {e : EventId} (h : e ∉ ([2, 3, 4] : List EventId)) : lockReport k lost gained x y e = none := by
  simp only [List.mem_cons, List.not_mem_nil, or_false, not_or] at h
  obtain ⟨locked, lockLost, limit⟩ := h
  exact Report.andThen_none (Report.andThen_none (Report.when_none _ (Report.one_other _ _ limit))
    (Report.when_none _ (Report.one_other _ _ lockLost))) (Report.when_none _ (Report.one_other _ _ locked))

end

/-! ## Arrival processing leaves the cells alone -/

@[simp] theorem setLol_pool (k : SourceId) (n : Nat) (s : State) : (setLol k n s).pool = s.pool := by
  unfold setLol
  dsimp only
  split <;> simp [State.setSource]

@[simp] theorem countLockLoss_pool (k : SourceId) (s : State) : (countLockLoss k s).pool = s.pool := setLol_pool ..

@[simp] theorem setSource_pool (k : SourceId) (x : Source) (s : State) : (s.setSource k x).pool = s.pool := rfl

@[simp] theorem detectLock_pool (k : SourceId) (e : Int) (s : State) : (detectLock k e s).pool = s.pool := by
  unfold detectLock
  dsimp only
  (repeat' split) <;> simp

@[simp] theorem filterAndDetect_pool (k : SourceId) (s : State) : (filterAndDetect k s).pool = s.pool := by
  simp [filterAndDetect]

@[simp] theorem prefillTest_pool (k : SourceId) (s : State) : (prefillTest k s).pool = s.pool := by
  unfold prefillTest
  dsimp only
  (repeat' split) <;> simp

@[simp] theorem endHoldover_pool (k : SourceId) (s : State) : (endHoldover k s).pool = s.pool := by
  unfold endHoldover
  dsimp only
  (repeat' split) <;> simp

@[simp] theorem arrivalProcessing_pool (k : SourceId) (s : State) : (arrivalProcessing k s).pool = s.pool := by
  unfold arrivalProcessing
  dsimp only
  (repeat' split) <;> simp

theorem tracked_buffer (x : Source) (n : Nat) : (tracked x n).buffer = x.buffer := by
  unfold tracked
  dsimp only
  split
  · split <;> rfl
  · rfl

theorem detected_buffer (x : Source) : x.detected.buffer = x.buffer := by
  unfold Source.detected
  split
  · exact tracked_buffer ..
  · rfl

theorem resumed_buffer (x : Source) : (resumed x).buffer = x.buffer := by
  unfold resumed
  dsimp only
  split <;> rfl

theorem prefilled_buffer (x : Source) : x.prefilled.buffer = x.buffer := by
  unfold Source.prefilled
  split
  · rfl
  · split
    · rfl
    · exact detected_buffer _

theorem processed_buffer (x : Source) : x.processed.buffer = x.buffer := by
  unfold Source.processed
  split
  · exact prefilled_buffer x
  · cases x.state with
    | acquire | track => exact detected_buffer x
    | holdover => exact (detected_buffer _).trans (resumed_buffer x)
    | fixed | off | waiting => rfl

/-! ## Arrival processing reports of locks alone -/

theorem filterAndDetect_lockOnly (k : SourceId) (s : State) : ReportsOnly [2, 3, 4] s (filterAndDetect k s) :=
  ⟨_, filterAndDetect_reports k s, fun _ other => lockReport_other _ _ _ _ _ other⟩

theorem endHoldover_lockOnly (k : SourceId) (s : State) : ReportsOnly [2, 3, 4] s (endHoldover k s) :=
  ⟨_, endHoldover_reports k s, fun _ other => lockReport_other _ _ _ _ _ other⟩

theorem prefillTest_lockOnly (k : SourceId) (s : State) : ReportsOnly [2, 3, 4] s (prefillTest k s) := by
  unfold prefillTest
  dsimp only
  split
  · exact .of_quiet (Quiet.setSource ..)
  · split
    · exact .of_quiet (Quiet.setSource ..)
    · exact .trans (.of_quiet (Quiet.setSource ..)) (filterAndDetect_lockOnly ..)

theorem arrivalProcessing_lockOnly (k : SourceId) (s : State) : ReportsOnly [2, 3, 4] s (arrivalProcessing k s) := by
  unfold arrivalProcessing
  dsimp only
  split
  · exact prefillTest_lockOnly k s
  · cases s.sources[k].state with
    | acquire | track => exact filterAndDetect_lockOnly k s
    | holdover => exact (endHoldover_lockOnly k s).trans (filterAndDetect_lockOnly ..)
    | fixed => exact .of_quiet (Quiet.setSource ..)
    | off | waiting => exact .of_quiet ⟨rfl, rfl, rfl⟩

/-! ## The arrival -/

/-- The record that an arrival with these samples works on: the buffer of its append, block_arrived and last_sequence (R34, R35). -/
def Source.received (x : Source) (b : Buffer) (q : Option Byte) : Source :=
  { x with buffer := b, blockArrived := true, lastSequence := q.orElse (fun _ => x.lastSequence) }

/-- The first arrival's change and the reception touch different fields. -/
theorem began_received (x : Source) (b : Buffer) (q : Option Byte) : (x.received b q).began = x.began.received b q := by
  obtain ⟨state, _, _, _, _, _, _, _, _, _, _, _, _, _, _, _, _, _, mode, _, _, _⟩ := x
  cases state <;> cases mode <;> rfl

/-- An arrival at a source that is not in OFF: its samples are appended, and arrival processing works on the record that results. -/
theorem arrival_received {k : SourceId} {s : State} (q : Option Byte) (xs : List Sample) (on : s.sources[k].state ≠ .off) :
    let x := s.sources[k]
    let kept := x.buffer.trimmed xs.length
    ∃ free cells t, Appended k xs s t kept free cells ∧
      t.sources = s.sources.set k (x.received (kept.grown cells (xs.take (kept.takes xs free))) q).began ∧
      arrival k q xs s = arrivalProcessing k t := by
  intro x kept
  have buffer : (firstArrival k s).sources[k].buffer = x.buffer := by
    rw [firstArrival_eq, setSource_get, began_buffer]
  obtain ⟨free, cells, appended, sources⟩ := append_appended k xs (firstArrival k s)
  rw [buffer] at appended sources
  refine ⟨free, cells, markArrived k q (append k xs (firstArrival k s)), ?_, ?_, arrival_on q xs on⟩
  · refine appended.of_same buffer ?_ rfl ?_ (Quiet.setSource ..) <;> rw [firstArrival_eq]
    · exact setSource_pool ..
    · exact Quiet.setSource ..
  · rw [markArrived, State.setSource_sources, sources, firstArrival_eq]
    simp only [get_set_same, State.setSource_sources, Vector.set_set]
    rw [began_received]
    rfl

/-! ## What the claims say of an arrival -/

/-- The event records and the notices of a piece of work, where the air timer's place moved before it (R34, R164). -/
theorem Reports.of_place {r : Report} {s t : State} {air : Air} (h : Reports r { s with air := air } t) (count : air.count = s.air.count) :
    NoticesAdded s t ∧ t.air = air ∧ ∀ e, Reported e (r e) s t := by
  obtain ⟨notices, place, kinds⟩ := h
  refine ⟨(NoticesAdded.of_same rfl rfl : NoticesAdded s { s with air := air }).trans notices count, place, fun e => ?_⟩
  have kind := kinds e
  unfold Reported Raised at *
  rwa [count] at kind

theorem placeMoved_of_air {c : Instr} {s t : State} {air : Air} (h : PlaceMoved c s { s with air := air }) (same : t.air = air) :
    PlaceMoved c s t := by
  unfold PlaceMoved at *
  rw [same]
  exact h

theorem arrived_began {x : Source} (on : x.state ≠ .off) : arrived x.began = arrived x := by
  rw [arrived_eq, arrived_eq, began_of_running (began_state on).2, began_buffer]

/-- A first arrival loses and gains no lock (R51). -/
theorem LockTold.of_began {k : SourceId} {x : Source} {s t : State} (on : x.state ≠ .off)
    (h : LockTold k (LosesLock x.began) (GainsLock x.began) x.began (arrived x.began) s t) :
    LockTold k (LosesLock x) (GainsLock x) x (arrived x) s t := by
  by_cases waiting : x.state = .waiting
  · have first : x.began.state = .acquire ∨ x.began.state = .fixed := by
      unfold Source.began
      rw [waiting]
      cases x.mode <;> simp
    have same : x.began.lol = x.lol ∧ x.began.settings = x.settings := by
      unfold Source.began
      rw [waiting]
      cases x.mode <;> exact ⟨rfl, rfl⟩
    have idle : ∀ y : Source, y.state ≠ .track → y.state ≠ .holdover → ¬LosesLock y ∧ ¬GainsLock y := by
      intro y track holdover
      simp [LosesLock, GainsLock, track, holdover]
    obtain ⟨keeps, finds⟩ := idle x.began (by rcases first with c | c <;> simp [c]) (by rcases first with c | c <;> simp [c])
    obtain ⟨keeps', finds'⟩ := idle x (by simp [waiting]) (by simp [waiting])
    exact h.congr (iff_of_false keeps keeps') (iff_of_false finds finds') same.1 same.2 (arrived_began on)
  · rwa [began_of_running waiting] at h

/-- What an append and the arrival processing after it report: the append's kinds and the locks' (R43, R55). -/
theorem andThen_lockOnly {r q : Report} (others : ∀ e ∉ ([7, 10, 11] : List EventId), r e = none)
    (locks : ∀ e ∉ ([2, 3, 4] : List EventId), q e = none) (e : EventId) :
    r.andThen q e = if e ∈ ([2, 3, 4] : List EventId) then q e else r e := by
  unfold Report.andThen
  split
  · next lock =>
    have apart : e ∉ ([7, 10, 11] : List EventId) := by
      revert e
      decide
    rw [others e apart, Option.or_none]
  · next other => rw [locks e other, Option.none_or]

/-- Settles O32: the record that the append has left is worked on, and the work tells of its locks. -/
theorem arrivalTracksTheSource : Obligations.ArrivalTracksTheSource := by
  intro c k q xs s comes prefill
  obtain ⟨air, count, run, place⟩ := exec_arrives comes
  obtain ⟨free, cells, u, appended, sources, worked⟩ := arrival_received (s := { s with air := air }) q xs comes.2.1
  refine ⟨_, run, ?_⟩
  rw [worked]
  dsimp only at sources
  generalize Buffer.grown _ _ _ = b at sources
  have record : u.sources[k] = (s.sources[k].received b q).began := by rw [sources, get_set_same]
  have on : (s.sources[k].received b q).state ≠ .off := comes.2.1
  have told := arrivalProcessing_told k u
  rw [record] at told
  have locks := (told (began_state on) (began_prefill prefill)).of_began on
  have result : (arrivalProcessing k u).sources[k] = arrived (s.sources[k].received b q) := by
    rw [arrivalProcessing_sources, get_set_same, record, processed_began _ on prefill]
  have buffer : (arrivalProcessing k u).sources[k].buffer = b := by
    rw [arrivalProcessing_sources, get_set_same, record, processed_buffer, began_buffer]
    rfl
  rw [buffer]
  intro x
  rw [show s.sources[k].received b q = x from rfl] at locks result
  clear_value x
  obtain ⟨notices, air', kinds⟩ := (appended.reports.trans locks.1).of_place count
  have lockKinds : ∀ e ∈ ([2, 3, 4] : List EventId), Reported e (lockReport k (LosesLock x) (GainsLock x) x (arrived x) e) s
      (arrivalProcessing k u) := fun e lock => by
    have kind := kinds e
    rwa [andThen_lockOnly (fun _ other => appendReport_other _ _ _ _ other) (fun _ other => lockReport_other _ _ _ _ _ other),
      if_pos lock] at kind
  refine ⟨placeMoved_of_air place air', notices, result, locks.2, ?_, ?_, ?_⟩
  · have kind := lockKinds 2 (by simp)
    rwa [lockReport_locked, reported_ite] at kind
  · have kind := lockKinds 3 (by simp)
    rwa [lockReport_lockLost, reported_ite] at kind
  · have kind := lockKinds 4 (by simp)
    rwa [lockReport_lolLimit, reported_ite] at kind

/-- What the sources and the cell store do leaves the rest of the state, but for the event flags and the outbound queue. -/
theorem eq_of_offSources {s t : State} (h : t.offSources = s.offSources) :
    t = { s with sources := t.sources, pool := t.pool, events := t.events, link := t.link } := by
  obtain ⟨⟩ := s
  obtain ⟨⟩ := t
  simp only [State.offSources, State.offEvents, State.mk.injEq] at h ⊢
  simp only [h, and_self]

/-- An arrival brings at most 168 samples (R31, R35). -/
theorem Arrives.few {c : Instr} {k : SourceId} {q : Option Byte} {xs : List Sample} {s : State} (h : Arrives c k q xs s) :
    xs.length ≤ 168 := by
  obtain ⟨-, -, ⟨e, bytes, -, -, -, -, -, many, -, -, -, rfl⟩ | ⟨l, v, -, -, -, -, -, -, rfl⟩⟩ := h
  · rwa [List.length_map, List.length_range]
  · rw [Vector.length_toList]
    decide

/-- Of the free cells and the buffer's chain the append lends and returns; it loses none (R36). -/
theorem Appended.free_eq {k : SourceId} {xs : List Sample} {s t : State} {kept : Buffer} {free : Nat} {cells : List CellId}
    (h : Appended k xs s t kept free cells) (shorter : kept.chain.length ≤ s.sources[k].buffer.chain.length) :
    free = s.pool.freeList.length + (s.sources[k].buffer.chain.length - kept.chain.length) := by
  have total := h.store.length_eq
  have left := h.freeList
  simp only [List.length_append] at total
  omega

theorem without_chain_length_le (b : Buffer) (n : Nat) : (b.without n).chain.length ≤ b.chain.length := by
  have cells := congrArg List.length (emptied_append_without b n)
  rw [List.length_append] at cells
  omega

/-- Settles O31: an overrun trims the buffer, the writing grows it, and the arrival processing leaves both as they are. -/
theorem arrivalAppendsItsSamples : Obligations.ArrivalAppendsItsSamples := by
  intro c k q xs s sound comes
  obtain ⟨air, count, run, place⟩ := exec_arrives comes
  obtain ⟨free, cells, u, appended, sources, worked⟩ := arrival_received (s := { s with air := air }) q xs comes.2.1
  have few := comes.few
  have laid : BufferSound s.sources[k].buffer := (sound k).2.1
  dsimp only at appended sources
  rw [trimmed_eq_without laid] at appended sources
  have shorter := without_chain_length_le s.sources[k].buffer (s.sources[k].buffer.excess xs.length)
  have fewer := without_samples_length s.sources[k].buffer (s.sources[k].buffer.excess xs.length)
  have keptLaid := bufferSound_without laid (s.sources[k].buffer.excess xs.length)
  refine ⟨_, run, ?_⟩
  rw [worked]
  intro x excess kept free' written b
  have trimmed : s.sources[k].buffer.without (s.sources[k].buffer.excess xs.length) = kept := rfl
  have over_eq : s.sources[k].buffer.excess xs.length = excess := rfl
  have free_eq : free' = s.pool.freeList.length + (s.sources[k].buffer.chain.length - kept.chain.length) := rfl
  have limit : excess = s.sources[k].buffer.samples.length + xs.length - 1024 := rfl
  have written_eq : written = kept.takes xs free' := rfl
  obtain ⟨borrowed, freeList, store, lowWater, reports⟩ := appended
  rw [trimmed] at sources store borrowed reports shorter fewer keptLaid
  rw [over_eq] at fewer reports
  clear_value excess kept written free'
  have total := store.length_eq
  simp only [List.length_append] at total
  obtain rfl : free' = free := by omega
  rw [← written_eq] at sources reports
  have pool : (arrivalProcessing k u).pool = u.pool := arrivalProcessing_pool k u
  have sources' := arrivalProcessing_sources k u
  have buffer : b = kept.grown cells (xs.take written) := by
    change (arrivalProcessing k u).sources[k].buffer = _
    rw [sources', get_set_same, sources, get_set_same, processed_buffer, began_buffer]
    rfl
  obtain ⟨fill, -, chain, -⟩ := bufferSound_grown keptLaid xs free' cells borrowed (by omega)
  rw [← written_eq, ← buffer] at fill chain
  clear_value b
  subst buffer
  obtain ⟨lockReports, processed, locksOnly⟩ := arrivalProcessing_lockOnly k u
  obtain ⟨notices, air', kinds⟩ := (reports.trans processed).of_place count
  have apart : ∀ e ∉ ([2, 3, 4] : List EventId), Reported e (appendReport k excess (64 ≤ free' ∧ u.pool.freeList.length < 64)
      (xs.length - written) e) s (arrivalProcessing k u) := fun e other => by
    have kind := kinds e
    rwa [andThen_lockOnly (fun _ other => appendReport_other _ _ _ _ other) locksOnly, if_neg other] at kind
  rw [pool]
  refine ⟨?_, placeMoved_of_air place air', notices, fun j other => ?_, rfl, fill, rfl, chain, ?_, ?_, ?_, ?_, ?_,
    fun e other => ?_⟩
  · have frame := eq_of_offSources ((arrival_offSources k q xs { s with air := air }))
    rw [worked, pool] at frame
    rw [air']
    exact frame
  · rw [sources', get_set_other _ _ _ _ other, sources, get_set_other _ _ _ _ other]
  · rw [Buffer.grown, List.length_append]
    exact total
  · have kind := apart 7 (by decide)
    rwa [appendReport_overrun, reported_ite] at kind
  · have kind := apart 10 (by decide)
    rwa [appendReport_exhausted, reported_ite, if_congr (show 0 < xs.length - written ↔ written < xs.length by omega) rfl rfl] at kind
  · rw [lowWater, if_congr (show kept.chain.length < (kept.grown cells (xs.take written)).chain.length ↔ 0 < cells.length by
      rw [Buffer.grown, List.length_append]
      omega) rfl rfl]
  · have kind := apart 11 (by decide)
    rwa [appendReport_low, reported_ite] at kind
  · simp only [List.mem_cons, List.not_mem_nil, or_false, not_or] at other
    have kind := apart e (by simp [other])
    rwa [appendReport_other _ _ _ _ (by simp [other])] at kind

end Sys2Proof.Machine
end

section
/-! PROOF. A source at an OUTPUT mark: the record that its work leaves, and what it reports. -/

namespace Sys2Proof.Machine

/-! ## The records -/

/-- A source after its output, before the mark clears block_arrived (R59, R60). -/
def Source.output (x : Source) : Source := { produced x with blockArrived := x.blockArrived }

/-- A source after the history's work (R61). -/
def Source.noted (x : Source) : Source :=
  if x.state = .track ∧ x.locked = true then
    if 100 ≤ x.historyCounter + 1 then
      { x with historyCounter := 0, history := (if x.history.length < 8 then x.history else x.history.drop 1) ++ [x.f] }
    else { x with historyCounter := x.historyCounter + 1 }
  else x

/-- The age of a source at a mark that counts a missing arrival (R53, R65). -/
def Source.markedAge (x : Source) : Nat := if x.blockArrived then x.age else x.age + 1

/-- A source after a mark in prefill (R53). -/
def Source.prefillMarked (x : Source) : Source :=
  if x.settings.lostLimit ≤ x.markedAge then x.rested .waiting else { x with age := x.markedAge, block := .silence }

/-- A source after a mark in HOLDOVER (R63). -/
def Source.holdoverMarked (x : Source) : Source :=
  if x.settings.lostLimit ≤ x.age + 1 then x.rested .waiting else Source.output { x with age := x.age + 1 }

/-- A source after a mark in FIXED with prefill clear (R65). -/
def Source.fixedMarked (x : Source) : Source :=
  if x.blockArrived = false ∧ x.settings.lostLimit ≤ x.markedAge then x.rested .waiting
  else Source.output { x with age := x.markedAge, r := x.fFixed }

/-- A source after a mark in ACQUIRE or TRACK with prefill clear (R58). -/
def Source.trackingMarked (x : Source) : Source := if x.blockArrived then x.output.noted else (held x).output

/-- A source after the mark's work (R58). -/
def Source.markWorked (x : Source) : Source :=
  match x.state with
  | .off => x
  | .waiting => x
  | .acquire => if x.prefill then x.prefillMarked else x.trackingMarked
  | .fixed => if x.prefill then x.prefillMarked else x.fixedMarked
  | .track => x.trackingMarked
  | .holdover => x.holdoverMarked

/-- A source after an OUTPUT mark (R58). -/
def Source.marked (x : Source) : Source := { x.markWorked with blockArrived := false }

theorem fHold_eq (x : Source) : fHold x = meanOfHistory x := by
  unfold fHold meanOfHistory
  dsimp only
  rw [List.take_reverse, List.sum_reverse]

theorem recordHistory_sources (k : SourceId) (s : State) : (recordHistory k s).sources = s.sources.set k s.sources[k].noted := by
  unfold recordHistory Source.noted
  dsimp only
  split
  · split <;> rfl
  · exact (Vector.set_getElem_self k.isLt).symm

theorem loseSource_sources (k : SourceId) (d : Nat) (s : State) :
    (loseSource k d s).sources = s.sources.set k (s.sources[k].rested .waiting) := by
  rw [loseSource, raise_sources, enterRest_sources]

theorem enterHoldover_sources (k : SourceId) (s : State) : (enterHoldover k s).sources = s.sources.set k (held s.sources[k]) := by
  unfold enterHoldover
  dsimp only
  rw [raiseInt_sources, fHold_eq]
  rfl

theorem prefillMark_sources (k : SourceId) (s : State) : (prefillMark k s).sources = s.sources.set k s.sources[k].prefillMarked := by
  unfold prefillMark Source.prefillMarked
  dsimp only
  rw [show (if s.sources[k].blockArrived then s.sources[k].age else s.sources[k].age + 1) = s.sources[k].markedAge from rfl]
  split
  · rw [loseSource_sources, State.setSource_sources, get_set_same, Vector.set_set]
    rfl
  · rw [State.setSource_sources, State.setSource_sources, Vector.set_set]

theorem holdoverMark_sources (k : SourceId) (s : State) : (holdoverMark k s).sources = s.sources.set k s.sources[k].holdoverMarked := by
  unfold holdoverMark Source.holdoverMarked
  dsimp only
  split
  · rw [loseSource_sources, State.setSource_sources, get_set_same, Vector.set_set]
    rfl
  · rw [output_sources, State.setSource_sources, get_set_same, Vector.set_set]
    rfl

theorem fixedMark_sources (k : SourceId) (s : State) : (fixedMark k s).sources = s.sources.set k s.sources[k].fixedMarked := by
  unfold fixedMark Source.fixedMarked
  dsimp only
  rw [show (if s.sources[k].blockArrived then s.sources[k].age else s.sources[k].age + 1) = s.sources[k].markedAge from rfl]
  split
  · rw [loseSource_sources, State.setSource_sources, get_set_same, Vector.set_set]
    rfl
  · rw [output_sources, State.setSource_sources, get_set_same, Vector.set_set]
    rfl

theorem trackingMark_sources (k : SourceId) (s : State) : (trackingMark k s).sources = s.sources.set k s.sources[k].trackingMarked := by
  unfold trackingMark Source.trackingMarked
  split
  · rw [recordHistory_sources, output_sources, get_set_same, Vector.set_set]
    rfl
  · rw [output_sources, enterHoldover_sources, get_set_same, Vector.set_set]
    rfl

theorem markWork_sources (k : SourceId) (s : State) : (markWork k s).sources = s.sources.set k s.sources[k].markWorked := by
  unfold markWork Source.markWorked
  dsimp only
  cases s.sources[k].state with
  | off | waiting => exact (Vector.set_getElem_self k.isLt).symm
  | acquire =>
    dsimp only
    split
    · exact prefillMark_sources k s
    · exact trackingMark_sources k s
  | fixed =>
    dsimp only
    split
    · exact prefillMark_sources k s
    · exact fixedMark_sources k s
  | track => exact trackingMark_sources k s
  | holdover => exact holdoverMark_sources k s

theorem outputSource_sources (k : SourceId) (s : State) : (outputSource k s).sources = s.sources.set k s.sources[k].marked := by
  rw [outputSource, clearArrived, State.setSource_sources, markWork_sources, get_set_same, Vector.set_set]
  rfl

/-! ## The cells given up -/

/-- Work on source k that returns cells of its buffer and lends none (R39, R45): low_water stays. -/
def Drained (k : SourceId) (s t : State) : Prop :=
  t.pool.lowWater = s.pool.lowWater ∧
    (t.pool.freeList ++ t.sources[k].buffer.chain).Perm (s.pool.freeList ++ s.sources[k].buffer.chain)

section
variable {k : SourceId} {s t u : State}

theorem Drained.trans (h : Drained k s t) (g : Drained k t u) : Drained k s u := ⟨g.1.trans h.1, g.2.trans h.2⟩

theorem Drained.of_same (pool : t.pool = s.pool) (buffer : t.sources[k].buffer = s.sources[k].buffer) : Drained k s t := by
  unfold Drained
  rw [pool, buffer]
  exact ⟨rfl, .refl _⟩

/-- A record written with the buffer it had. -/
theorem Drained.setSource {x : Source} (same : x.buffer = s.sources[k].buffer) : Drained k s (s.setSource k x) :=
  .of_same rfl (by rw [setSource_get]; exact same)

theorem Drained.after_setSource {x : Source} (h : Drained k (s.setSource k x) t) (same : x.buffer = s.sources[k].buffer) : Drained k s t :=
  (Drained.setSource same).trans h

/-- The cells of the sources, where one of them has been worked on. -/
theorem Drained.cellsReturned {y : Source} (h : Drained k s t) (sources : t.sources = s.sources.set k y) : CellsReturned s t := by
  obtain ⟨low, cells⟩ := h
  refine ⟨low, ?_⟩
  have moved := bufferCells_setSource k y s
  have counted : bufferCells t = bufferCells (s.setSource k y) := by
    unfold bufferCells
    rw [sources]
    rfl
  have total := cells.length_eq
  rw [sources, get_set_same, List.length_append, List.length_append] at total
  omega

end

theorem drained_raise (e : EventKind) (o d : Nat) (k : SourceId) (s : State) : Drained k s (raise e o d s) :=
  .of_same (raise_pool ..) (by rw [raise_sources])

/-- What is read out of a buffer gives its cells back (R39, R45). -/
theorem drained_consume (k : SourceId) (n : Nat) (s : State) : Drained k s (consume k n s) := by
  refine ⟨rfl, ?_⟩
  rw [consume_freeList, consume_sources, get_set_same, List.append_assoc, emptied_append_without]

/-- A source that comes to rest gives its cells back (R39, R46). -/
theorem drained_enterRest (st : SourceState) (k : SourceId) (s : State) : Drained k s (enterRest st k s) := by
  refine ⟨rfl, ?_⟩
  rw [enterRest_freeList, enterRest_sources, get_set_same]
  exact List.Perm.of_eq (List.append_nil _)

theorem drained_output (k : SourceId) (s : State) : Drained k s (output k s) := by
  unfold output
  dsimp only
  have taken : ∀ (n : Nat) (x : Source), x.buffer = s.sources[k].buffer → Drained k s (consume k n (s.setSource k x)) :=
    fun n x same => (drained_consume k n _).after_setSource same
  split
  · refine Drained.trans ?_ (drained_raise ..)
    exact taken _ _ rfl
  · exact taken _ _ rfl

theorem drained_loseSource (k : SourceId) (d : Nat) (s : State) : Drained k s (loseSource k d s) :=
  (drained_enterRest ..).trans (drained_raise ..)

theorem drained_recordHistory (k : SourceId) (s : State) : Drained k s (recordHistory k s) := by
  unfold recordHistory
  dsimp only
  split
  · split <;> exact .setSource rfl
  · exact .of_same rfl rfl

theorem drained_enterHoldover (k : SourceId) (s : State) : Drained k s (enterHoldover k s) := by
  unfold enterHoldover
  exact Drained.after_setSource (.of_same (raiseInt_pool ..) (by rw [raiseInt_sources])) rfl

theorem drained_prefillMark (k : SourceId) (s : State) : Drained k s (prefillMark k s) := by
  unfold prefillMark
  dsimp only
  generalize (if s.sources[k].blockArrived then s.sources[k].age else s.sources[k].age + 1) = age
  split
  · exact (drained_loseSource ..).after_setSource rfl
  · refine (Drained.setSource ?_).after_setSource rfl
    rw [setSource_get]

theorem drained_holdoverMark (k : SourceId) (s : State) : Drained k s (holdoverMark k s) := by
  unfold holdoverMark
  dsimp only
  split
  · exact (drained_loseSource ..).after_setSource rfl
  · exact (drained_output ..).after_setSource rfl

theorem drained_fixedMark (k : SourceId) (s : State) : Drained k s (fixedMark k s) := by
  unfold fixedMark
  dsimp only
  generalize (if s.sources[k].blockArrived then s.sources[k].age else s.sources[k].age + 1) = age
  split
  · exact (drained_loseSource ..).after_setSource rfl
  · exact (drained_output ..).after_setSource rfl

theorem drained_trackingMark (k : SourceId) (s : State) : Drained k s (trackingMark k s) := by
  unfold trackingMark
  split
  · exact (drained_output ..).trans (drained_recordHistory ..)
  · exact (drained_enterHoldover ..).trans (drained_output ..)

theorem drained_markWork (k : SourceId) (s : State) : Drained k s (markWork k s) := by
  unfold markWork
  dsimp only
  cases s.sources[k].state with
  | off | waiting => exact .of_same rfl rfl
  | acquire =>
    dsimp only
    split
    · exact drained_prefillMark k s
    · exact drained_trackingMark k s
  | fixed =>
    dsimp only
    split
    · exact drained_prefillMark k s
    · exact drained_fixedMark k s
  | track => exact drained_trackingMark k s
  | holdover => exact drained_holdoverMark k s

theorem drained_outputSource (k : SourceId) (s : State) : Drained k s (outputSource k s) :=
  (drained_markWork k s).trans (.setSource rfl)

end Sys2Proof.Machine
end

section
/-! PROOF. The OUTPUT mark: what one source reports at it, and what a mark over all sources leaves of each kind and of each record. -/

namespace Sys2Proof.Machine

/-! ## One source's reports -/

/-- What source k reports at an OUTPUT mark: it enters HOLDOVER, its output lacks samples, or it is lost (R60, R62, R63). -/
def markReport (k : SourceId) (x : Source) : Report :=
  (((Report.one 5 k.val (BitVec.ofInt 32 (meanOfHistory x))).when (EntersHoldover x)).andThen
    ((Report.one 8 k.val (BitVec.ofNat 32 (shortfall x))).when (0 < shortfall x))).andThen
    ((Report.one 6 k.val (BitVec.ofNat 32 (lossCause x))).when (lossCause x ≠ 0))

section
variable (k : SourceId) (x : Source)

theorem markReport_underrun : markReport k x 8 = if 0 < shortfall x then some (k.val, BitVec.ofNat 32 (shortfall x)) else none := by
  simp [markReport, Report.andThen, Report.when_apply, Report.one_same, Report.one_other]

theorem markReport_other {e : EventId} (holdover : e ≠ 5) (lost : e ≠ 6) (underrun : e ≠ 8) : markReport k x e = none :=
  Report.andThen_none (Report.andThen_none (Report.when_none _ (Report.one_other _ _ holdover))
    (Report.when_none _ (Report.one_other _ _ underrun))) (Report.when_none _ (Report.one_other _ _ lost))

variable {x}

/-- A source that neither enters HOLDOVER nor lacks samples reports at most its loss. -/
theorem markReport_of_loss {n : Nat} (stays : ¬EntersHoldover x) (full : shortfall x = 0) (cause : lossCause x = n) :
    markReport k x = (Report.one 6 k.val (BitVec.ofNat 32 n)).when (n ≠ 0) := by
  unfold markReport
  rw [full, cause, Report.when, if_neg stays, Report.when, if_neg (Nat.lt_irrefl 0), Report.nothing_andThen, Report.nothing_andThen]

/-- A source that neither enters HOLDOVER nor is lost reports at most what its output lacks. -/
theorem markReport_of_output {n : Nat} (stays : ¬EntersHoldover x) (kept : lossCause x = 0) (lacks : shortfall x = n) :
    markReport k x = (Report.one 8 k.val (BitVec.ofNat 32 n)).when (0 < n) := by
  unfold markReport
  rw [lacks, kept, Report.when, if_neg stays, Report.nothing_andThen]
  rfl

theorem markReport_of_holdover (enters : EntersHoldover x) (full : shortfall x = 0) (kept : lossCause x = 0) :
    markReport k x = .one 5 k.val (BitVec.ofInt 32 (meanOfHistory x)) := by
  unfold markReport
  rw [full, kept, Report.when, if_pos enters]
  rfl

end

/-! ## The work of a mark and its reports -/

/-- An output reports the samples that it lacks, but in HOLDOVER (R60). -/
theorem output_reports (k : SourceId) (s : State) :
    let x := s.sources[k]
    let n := demand x - x.buffer.samples.length
    Reports ((Report.one 8 k.val (BitVec.ofNat 32 n)).when (0 < n ∧ x.state ≠ .holdover)) s (output k s) := by
  intro x n
  have lacks : 0 < n ∧ x.state ≠ .holdover ↔ x.buffer.fill < demand x ∧ x.state ≠ .holdover :=
    and_congr Nat.sub_pos_iff_lt Iff.rfl
  rw [Report.when_congr _ lacks]
  unfold output
  simp only [slipOf_eq]
  exact Reports.ite _ (.after_quiet ⟨rfl, rfl, rfl⟩ (reports_raise ..)) ⟨rfl, rfl, rfl⟩

theorem output_reports_lacking {k : SourceId} {s : State} {x : Source} (record : s.sources[k] = x) (running : x.state ≠ .holdover) :
    let n := demand x - x.buffer.samples.length
    Reports ((Report.one 8 k.val (BitVec.ofNat 32 n)).when (0 < n)) s (output k s) := by
  have lacking := output_reports k s
  rw [record] at lacking
  dsimp only at lacking ⊢
  rwa [Report.when_congr _ (and_iff_left running)] at lacking

theorem output_reports_holding {k : SourceId} {s : State} {x : Source} (record : s.sources[k] = x) (holding : x.state = .holdover) :
    Reports .nothing s (output k s) := by
  have lacking := output_reports k s
  rw [record] at lacking
  dsimp only at lacking
  rwa [Report.when, if_neg fun c => c.2 holding] at lacking

theorem loseSource_reports (k : SourceId) (d : Nat) (s : State) : Reports (.one 6 k.val (BitVec.ofNat 32 d)) s (loseSource k d s) :=
  .after_quiet ⟨rfl, rfl, rfl⟩ (reports_raise ..)

theorem enterHoldover_reports (k : SourceId) (s : State) :
    Reports (.one 5 k.val (BitVec.ofInt 32 (meanOfHistory s.sources[k]))) s (enterHoldover k s) := by
  unfold enterHoldover
  dsimp only
  rw [fHold_eq]
  exact .after_quiet (Quiet.setSource ..) (reports_raiseInt ..)

theorem recordHistory_quiet (k : SourceId) (s : State) : Quiet s (recordHistory k s) := by
  unfold recordHistory
  dsimp only
  split
  · split <;> exact Quiet.setSource ..
  · exact ⟨rfl, rfl, rfl⟩

/-- The mark in prefill (R53). -/
theorem prefillMark_reports (k : SourceId) (s : State) (state : s.sources[k].state = .acquire ∨ s.sources[k].state = .fixed)
    (prefill : s.sources[k].prefill = true) : Reports (markReport k s.sources[k]) s (prefillMark k s) := by
  unfold prefillMark
  generalize s.sources[k] = x at *
  have stays : ¬EntersHoldover x := by
    rcases state with h | h <;> simp [EntersHoldover, h, prefill]
  have full : shortfall x = 0 := by
    rcases state with h | h <;> simp [shortfall, h, prefill]
  dsimp only
  generalize age : (if x.blockArrived then x.age else x.age + 1) = n
  by_cases lost : x.settings.lostLimit ≤ n
  · have cause : lossCause x = 1 := by
      unfold lossCause
      rw [age]
      exact if_pos ⟨prefill, state, lost⟩
    rw [if_pos lost, markReport_of_loss k stays full cause]
    exact .after_quiet (Quiet.setSource ..) (loseSource_reports ..)
  · have cause : lossCause x = 0 := by
      unfold lossCause
      rw [age]
      rcases state with h | h <;> simp [h, prefill, lost]
    rw [if_neg lost, markReport_of_loss k stays full cause]
    exact .of_quiet ⟨rfl, rfl, rfl⟩

/-- The mark in HOLDOVER (R63). -/
theorem holdoverMark_reports (k : SourceId) (s : State) (state : s.sources[k].state = .holdover) :
    Reports (markReport k s.sources[k]) s (holdoverMark k s) := by
  unfold holdoverMark
  generalize s.sources[k] = x at *
  have stays : ¬EntersHoldover x := by simp [EntersHoldover, state]
  have full : shortfall x = 0 := by simp [shortfall, state]
  dsimp only
  by_cases lost : x.settings.lostLimit ≤ x.age + 1
  · have cause : lossCause x = 2 := by simp [lossCause, state, lost]
    rw [if_pos lost, markReport_of_loss k stays full cause]
    exact .after_quiet (Quiet.setSource ..) (loseSource_reports ..)
  · have cause : lossCause x = 0 := by simp [lossCause, state, lost]
    rw [if_neg lost, markReport_of_loss k stays full cause]
    exact .after_quiet (Quiet.setSource ..) (output_reports_holding (setSource_get ..) state)

/-- The mark in FIXED with prefill clear (R65). -/
theorem fixedMark_reports (k : SourceId) (s : State) (state : s.sources[k].state = .fixed) (prefill : s.sources[k].prefill = false) :
    Reports (markReport k s.sources[k]) s (fixedMark k s) := by
  unfold fixedMark
  generalize s.sources[k] = x at *
  have stays : ¬EntersHoldover x := by simp [EntersHoldover, state]
  dsimp only
  generalize age : (if x.blockArrived then x.age else x.age + 1) = n
  by_cases lost : x.blockArrived = false ∧ x.settings.lostLimit ≤ n
  · have cause : lossCause x = 3 := by
      unfold lossCause
      rw [age]
      simp [state, prefill, lost]
    have full : shortfall x = 0 := by
      obtain ⟨missing, limit⟩ := lost
      rw [missing] at age
      simp only [Bool.false_eq_true, if_false] at age
      simp [shortfall, state, missing]
      omega
    rw [if_pos lost, markReport_of_loss k stays full cause]
    exact .after_quiet (Quiet.setSource ..) (loseSource_reports ..)
  · have cause : lossCause x = 0 := by
      unfold lossCause
      rw [age]
      simp only [not_and, not_le] at lost
      simpa [state, prefill] using lost
    have lacks : shortfall x = demand { x with r := x.fFixed } - x.buffer.samples.length := by
      have within : x.blockArrived = true ∨ x.age + 1 < x.settings.lostLimit := by
        cases arrival : x.blockArrived with
        | true => exact .inl rfl
        | false =>
          rw [arrival] at age lost
          simp only [Bool.false_eq_true, if_false, true_and] at age lost
          omega
      simp [shortfall, state, prefill, within]
    rw [if_neg lost, markReport_of_output k stays cause lacks]
    have running : x.state ≠ .holdover := by rw [state]; decide
    exact .after_quiet (Quiet.setSource ..)
      (output_reports_lacking (x := { x with age := n, r := x.fFixed }) (setSource_get ..) running)

/-- The mark in ACQUIRE or TRACK with prefill clear (R58, R62). -/
theorem trackingMark_reports (k : SourceId) (s : State)
    (state : s.sources[k].state = .track ∨ (s.sources[k].state = .acquire ∧ s.sources[k].prefill = false)) :
    Reports (markReport k s.sources[k]) s (trackingMark k s) := by
  unfold trackingMark
  have enters := enterHoldover_reports k s
  have holding : (enterHoldover k s).sources[k] = held s.sources[k] := by rw [enterHoldover_sources, get_set_same]
  generalize record : s.sources[k] = x at *
  have kept : lossCause x = 0 := by
    rcases state with h | ⟨h, prefill⟩ <;> simp [lossCause, *]
  cases arrival : x.blockArrived with
  | true =>
    have stays : ¬EntersHoldover x := by simp [EntersHoldover, arrival]
    have running : x.state ≠ .holdover := by
      rcases state with h | ⟨h, -⟩ <;> rw [h] <;> decide
    have lacks : shortfall x = demand x - x.buffer.samples.length := if_pos ⟨arrival, state⟩
    rw [markReport_of_output k stays kept lacks]
    exact .then_quiet (output_reports_lacking record running) (recordHistory_quiet ..)
  | false =>
    have full : shortfall x = 0 := by
      rcases state with h | ⟨h, prefill⟩ <;> simp [shortfall, *]
    rw [markReport_of_holdover k ⟨arrival, state⟩ full kept]
    exact enters.trans (output_reports_holding holding rfl)

/-- A source in OFF or WAITING reports nothing. -/
theorem markReport_rest (k : SourceId) {x : Source} (rest : x.state = .off ∨ x.state = .waiting) : markReport k x = .nothing := by
  have stays : ¬EntersHoldover x := by rcases rest with h | h <;> simp [EntersHoldover, h]
  have full : shortfall x = 0 := by rcases rest with h | h <;> simp [shortfall, h]
  have kept : lossCause x = 0 := by rcases rest with h | h <;> simp [lossCause, h]
  exact markReport_of_loss k stays full kept

theorem markWork_reports (k : SourceId) (s : State) : Reports (markReport k s.sources[k]) s (markWork k s) := by
  unfold markWork
  dsimp only
  cases state : s.sources[k].state with
  | off =>
    rw [markReport_rest k (.inl state)]
    exact .refl s
  | waiting =>
    rw [markReport_rest k (.inr state)]
    exact .refl s
  | acquire =>
    cases prefill : s.sources[k].prefill with
    | true => exact prefillMark_reports k s (.inl state) prefill
    | false => exact trackingMark_reports k s (.inr ⟨state, prefill⟩)
  | fixed =>
    cases prefill : s.sources[k].prefill with
    | true => exact prefillMark_reports k s (.inr state) prefill
    | false => exact fixedMark_reports k s state prefill
  | track => exact trackingMark_reports k s (.inl state)
  | holdover => exact holdoverMark_reports k s state

theorem outputSource_reports (k : SourceId) (s : State) : Reports (markReport k s.sources[k]) s (outputSource k s) :=
  (markWork_reports k s).then_quiet (Quiet.setSource ..)

/-! ## The mark over all sources -/

/-- What several sources report, one after another. -/
def Report.each (l : List SourceId) (r : SourceId → Report) : Report := l.foldr (fun k q => (r k).andThen q) .nothing

theorem Report.each_cons (k : SourceId) (l : List SourceId) (r : SourceId → Report) :
    Report.each (k :: l) r = (r k).andThen (Report.each l r) := rfl

theorem Report.each_eq_none (l : List SourceId) (r : SourceId → Report) (e : EventId) :
    Report.each l r e = none ↔ ∀ k ∈ l, r k e = none := by
  induction l with
  | nil => simp [Report.each, Report.nothing]
  | cons k l ih => simp [Report.each_cons, Report.andThen, Option.or_eq_none_iff, ih, and_comm]

/-- The report of all is that of one of them. -/
theorem Report.each_eq_some {l : List SourceId} {r : SourceId → Report} {e : EventId} {d : Nat × BitVec 32}
    (h : Report.each l r e = some d) : ∃ k ∈ l, r k e = some d := by
  induction l with
  | nil => exact absurd h (by simp [Report.each, Report.nothing])
  | cons k l ih =>
    rw [Report.each_cons, Report.andThen, Option.or_eq_some_iff] at h
    rcases h with later | ⟨-, first⟩
    · obtain ⟨j, mem, reported⟩ := ih later
      exact ⟨j, List.mem_cons_of_mem _ mem, reported⟩
    · exact ⟨k, List.mem_cons_self, first⟩

/-- Work over a list of sources that changes each source's record alone, and reports what that record says. -/
theorem forEach_reports {work : SourceId → State → State} {f : Source → Source} {r : SourceId → Source → Report}
    (sources : ∀ k s, (work k s).sources = s.sources.set k (f s.sources[k])) (reports : ∀ k s, Reports (r k s.sources[k]) s (work k s))
    (l : List SourceId) (once : l.Nodup) (s : State) : Reports (Report.each l fun k => r k s.sources[k]) s (forEach l work s) := by
  suffices from_here : ∀ t : State, (∀ k ∈ l, t.sources[k] = s.sources[k]) →
      Reports (Report.each l fun k => r k s.sources[k]) t (forEach l work t) from from_here s fun _ _ => rfl
  induction l with
  | nil => exact fun t _ => .refl t
  | cons k l ih =>
    intro t same
    obtain ⟨new, rest⟩ := List.nodup_cons.mp once
    have first := reports k t
    rw [same k List.mem_cons_self] at first
    refine first.trans (ih rest (work k t) fun j mem => ?_)
    have other : j ≠ k := fun c => new (c ▸ mem)
    rw [sources, get_set_other _ _ _ _ other, same j (List.mem_cons_of_mem _ mem)]

/-- What the report of all the sources leaves of one kind. -/
theorem reportedBy_each {l : List SourceId} (all : ∀ k, k ∈ l) {r : SourceId → Report} {e : EventId} {s t : State}
    {raises : SourceId → Prop} [DecidablePred raises] {detail : SourceId → BitVec 32}
    (kind : ∀ k, r k e = if raises k then some (k.val, detail k) else none) (h : Reported e (Report.each l r e) s t) :
    ReportedBy e raises detail s t := by
  cases report : Report.each l r e with
  | none =>
    rw [report] at h
    have none := (Report.each_eq_none l r e).mp report
    refine ⟨fun ⟨k, raised⟩ => ?_, fun _ => h⟩
    have silent := none k (all k)
    rw [kind, if_pos raised] at silent
    exact absurd silent (Option.some_ne_none _)
  | some d =>
    rw [report] at h
    obtain ⟨k, -, reported⟩ := Report.each_eq_some report
    rw [kind] at reported
    by_cases raised : raises k
    · rw [if_pos raised] at reported
      obtain rfl := Option.some.inj reported
      exact ⟨fun _ => ⟨k, raised, h⟩, fun none => absurd raised (none k)⟩
    · rw [if_neg raised] at reported
      exact absurd reported.symm (Option.some_ne_none _)

/-! ## The OUTPUT mark -/

/-- The air timer past the OUTPUT mark. -/
def State.pastOutput (s : State) : State := { s with air := { s.air with due := 37 } }

/-- A mark that has no effect (R19). -/
theorem outputMark_ignored (order : List SourceId) {s : State} (h : s.air.running = false ∨ 36 < s.air.due) :
    exec (.outputMark order) s = .next s := by
  refine if_neg fun c => ?_
  obtain ⟨running, due⟩ := c
  rcases h with stopped | late
  · rw [stopped] at running
    exact absurd running Bool.false_ne_true
  · exact absurd due (Nat.not_le.mpr late)

theorem outputMark_taken (order : List SourceId) {s : State} (running : s.air.running = true) (due : s.air.due ≤ 36) :
    exec (.outputMark order) s = .next (forEach (fullOrder order) outputSource s.pastOutput) := if_pos ⟨running, due⟩

theorem fullOrder_nodup (order : List SourceId) : (fullOrder order).Nodup := (fullOrder_perm order).nodup_iff.mpr (List.nodup_finRange 14)
theorem mem_fullOrder (order : List SourceId) (k : SourceId) : k ∈ fullOrder order :=
  (fullOrder_perm order).mem_iff.mpr (List.mem_finRange k)

/-- Every source's record after the mark (R58). -/
theorem outputMark_get (order : List SourceId) (s : State) (k : SourceId) :
    (forEach (fullOrder order) outputSource s).sources[k] = s.sources[k].marked := by
  have sources : (forEach (fullOrder order) outputSource s).sources = changing Source.marked (fullOrder order) s.sources :=
    forEach_changing State.sources Source.marked outputSource outputSource_sources _ s
  rw [sources, changing_get _ _ (fullOrder_nodup order), if_pos (mem_fullOrder order k)]

/-- A source that produces on an arrival in ACQUIRE or TRACK (R58, R61). -/
theorem marked_tracking {x : Source} (prefill : x.prefill = false) (arrival : x.blockArrived = true)
    (state : x.state = .acquire ∨ x.state = .track) : x.marked = { produced x with
      historyCounter := if x.state = .track ∧ x.locked = true then (if 99 ≤ x.historyCounter then 0 else x.historyCounter + 1)
        else x.historyCounter,
      history := if x.state = .track ∧ x.locked = true ∧ 99 ≤ x.historyCounter then
        (if x.history.length < 8 then x.history else x.history.drop 1) ++ [x.f] else x.history } := by
  have worked : x.markWorked = x.output.noted := by
    unfold Source.markWorked Source.trackingMarked
    rcases state with h | h <;> simp [h, prefill, arrival]
  rw [Source.marked, worked]
  by_cases locked : x.state = .track ∧ x.locked = true
  · obtain ⟨track, lock⟩ := locked
    by_cases full : 99 ≤ x.historyCounter
    · simp [Source.noted, Source.output, produced, track, lock, full]
    · simp [Source.noted, Source.output, produced, track, lock, full]
  · have later : ¬(x.state = .track ∧ x.locked = true ∧ 99 ≤ x.historyCounter) := fun c => locked ⟨c.1, c.2.1⟩
    have plain : x.output.noted = x.output := if_neg locked
    rw [plain, if_neg locked, if_neg later]
    rfl

/-- A source in FIXED that produces (R65). -/
theorem marked_fixed {x : Source} (prefill : x.prefill = false) (state : x.state = .fixed)
    (within : x.blockArrived = true ∨ x.age + 1 < x.settings.lostLimit) :
    x.marked = produced { x with r := x.fFixed, age := if x.blockArrived then x.age else x.age + 1 } := by
  have stays : ¬(x.blockArrived = false ∧ x.settings.lostLimit ≤ x.markedAge) := by
    unfold Source.markedAge
    rcases within with arrival | early
    · simp [arrival]
    · intro ⟨missing, limit⟩
      rw [missing] at limit
      exact absurd limit (Nat.not_le.mpr early)
  have worked : x.markWorked = Source.output { x with age := x.markedAge, r := x.fFixed } := by
    have fixed : x.markWorked = x.fixedMarked := by
      unfold Source.markWorked
      simp [state, prefill]
    rw [fixed]
    exact if_neg stays
  rw [Source.marked, worked]
  rfl

theorem shortfall_tracking {x : Source} (prefill : x.prefill = false) (arrival : x.blockArrived = true)
    (state : x.state = .acquire ∨ x.state = .track) : shortfall x = demand x - x.buffer.samples.length :=
  if_pos ⟨arrival, state.symm.imp_right fun acquire => ⟨acquire, prefill⟩⟩

theorem shortfall_fixed {x : Source} (prefill : x.prefill = false) (state : x.state = .fixed)
    (within : x.blockArrived = true ∨ x.age + 1 < x.settings.lostLimit) :
    shortfall x = demand { x with r := x.fFixed } - x.buffer.samples.length := by
  simp [shortfall, state, prefill, within]

/-- Settles O33: each source's record and its reports at the mark, over all sources in any order. -/
theorem outputFormsTheBlock : Obligations.OutputFormsTheBlock := by
  intro order s
  refine ⟨outputMark_ignored order, fun running due => ⟨_, outputMark_taken order running due, ?_⟩⟩
  have frame : (forEach (fullOrder order) outputSource s.pastOutput).offSources = s.pastOutput.offSources :=
    forEach_same State.offSources _ (fun k t => outputSource_offSources k t) _ _
  have returned : CellsReturned s.pastOutput (forEach (fullOrder order) outputSource s.pastOutput) :=
    forEach_keeps (CellsReturned s.pastOutput) _
      (fun k t ht => ht.trans ((drained_outputSource k t).cellsReturned (outputSource_sources k t))) _ _ (.of_same rfl rfl)
  have records := outputMark_get order s.pastOutput
  obtain ⟨notices, air, kinds⟩ := (forEach_reports outputSource_sources outputSource_reports (fullOrder order) (fullOrder_nodup order)
    s.pastOutput).of_place rfl
  generalize forEach (fullOrder order) outputSource s.pastOutput = t at *
  have underruns : ReportedBy 8 (fun k => 0 < shortfall s.sources[k]) (fun k => BitVec.ofNat 32 (shortfall s.sources[k])) s t :=
    reportedBy_each (mem_fullOrder order) (fun k => markReport_underrun k s.sources[k]) (kinds 8)
  have short : ∀ k : SourceId, 0 < shortfall s.sources[k] → (t.events[(8 : EventId)]).raw = true := fun k lacks => by
    obtain ⟨_, _, raw, _⟩ := underruns.1 ⟨k, lacks⟩
    exact raw
  refine ⟨?_, notices, returned, underruns, fun e holdover lost underrun => ?_,
    fun k => ⟨fun prefill arrival state => ⟨?_, fun lacks => short k ?_⟩,
    fun prefill state within => ⟨?_, fun lacks => short k ?_⟩⟩⟩
  · exact eq_of_offSources frame
  · have kind := kinds e
    rwa [(Report.each_eq_none _ _ e).mpr fun k _ => markReport_other k _ holdover lost underrun] at kind
  · exact (records k).trans (marked_tracking prefill arrival state)
  · rw [shortfall_tracking prefill arrival state]
    exact Nat.sub_pos_of_lt lacks
  · exact (records k).trans (marked_fixed prefill state within)
  · rw [shortfall_fixed prefill state within]
    exact Nat.sub_pos_of_lt lacks

end Sys2Proof.Machine
end

section
/-! PROOF. The sources, the cell store and the notice scheduler: the work of the other blocks that leaves all three as they are. -/

namespace Sys2Proof.Machine

/-- What the laws of the sources and of the cells are about: the sources, the cell store and the notice scheduler. -/
def State.stores (s : State) : Vector Source 14 × Pool × Scheduler := (s.sources, s.pool, s.sched)

theorem stores_of_offEvents {s t : State} (h : t.offEvents = s.offEvents) : t.stores = s.stores :=
  (congrArg State.stores h : t.offEvents.stores = s.offEvents.stores)
theorem stores_of_offChannels {s t : State} (h : t.offChannels = s.offChannels) : t.stores = s.stores :=
  (congrArg State.stores h : t.offChannels.stores = s.offChannels.stores)
theorem stores_of_offIssue {s t : State} (h : t.offIssue = s.offIssue) : t.stores = s.stores :=
  (congrArg State.stores h : t.offIssue.stores = s.offIssue.stores)
theorem stores_of_offRacks {s t : State} (h : t.offRacks = s.offRacks) : t.stores = s.stores :=
  (congrArg State.stores h : t.offRacks.stores = s.offRacks.stores)

theorem forEach_stores {α : Type} {f : α → State → State} (h : ∀ a s, (f a s).stores = s.stores) (l : List α) (s : State) :
    (forEach l f s).stores = s.stores := forEach_same State.stores f h l s

/-! ## Raises and records of other blocks -/

@[simp] theorem raiseKind_stores (e : EventId) (o : Nat) (d : BitVec 32) (b : Bool) (s : State) :
    (raiseKind e o d b s).stores = s.stores := stores_of_offEvents (raiseKind_offEvents ..)
@[simp] theorem raise_stores (e : EventKind) (o d : Nat) (s : State) : (raise e o d s).stores = s.stores :=
  stores_of_offEvents (raise_offEvents ..)
@[simp] theorem setEvent_stores (k : EventId) (x : EventKindState) (s : State) : (s.setEvent k x).stores = s.stores := rfl
@[simp] theorem addOutbound_stores (e : OutEntry) (s : State) : (s.addOutbound e).stores = s.stores := rfl
@[simp] theorem setSlot_stores (a : SlotAddr) (x : Option Slot) (s : State) : (s.setSlot a x).stores = s.stores := rfl
@[simp] theorem modSlot_stores (a : SlotAddr) (f : Slot → Slot) (s : State) : (s.modSlot a f).stores = s.stores := rfl
@[simp] theorem setRack_stores (r : RackId) (x : Option RackWindow) (s : State) : (s.setRack r x).stores = s.stores := rfl
@[simp] theorem modRack_stores (r : RackId) (f : RackWindow → RackWindow) (s : State) : (s.modRack r f).stores = s.stores := rfl
@[simp] theorem modDevice_stores (d : DeviceId) (f : Device → Device) (s : State) : (s.modDevice d f).stores = s.stores := rfl
@[simp] theorem setGroup_stores (g : GroupId) (x : Group) (s : State) : (s.setGroup g x).stores = s.stores := rfl
@[simp] theorem setRoster_stores (k : RosterId) (x : RosterEntry) (s : State) : (s.setRoster k x).stores = s.stores := rfl
@[simp] theorem setChannel_stores (c : ChannelId) (x : Channel) (s : State) : (s.setChannel c x).stores = s.stores := rfl
@[simp] theorem modBound_stores (c : ChannelId) (f : Nat → Nat) (s : State) : (s.modBound c f).stores = s.stores := rfl
@[simp] theorem modOp_stores (g : GroupId) (f : IssueOperation → IssueOperation) (s : State) : (s.modOp g f).stores = s.stores := rfl

/-! ## The link -/

theorem offerNotice_stores (k : EventId) (s : State) : (offerNotice k s).stores = s.stores := by
  unfold offerNotice addNotice
  (repeat' split) <;> rfl

theorem placeGoodFrame_stores (f : Frame) (s : State) : (placeGoodFrame f s).stores = s.stores := by
  rcases placeGoodFrame_cases f s with h | ⟨-, h⟩ | ⟨-, h⟩ | h <;> rw [h]
  · rfl
  · rfl
  · exact raise_stores ..

theorem received_stores {s t : State} (h : Received s t) : t.stores = s.stores := by
  cases h with
  | ignored | hunting | receiving => rfl
  | good f => exact placeGoodFrame_stores f _
  | bad d => exact raise_stores ..

/-! ## The channels -/

theorem reviewChannel_stores (c : ChannelId) (s : State) : (reviewChannel c s).stores = s.stores :=
  stores_of_offChannels (reviewChannel_offChannels c s)
theorem stopChannel_stores (c : ChannelId) (s : State) : (stopChannel c s).stores = s.stores :=
  stores_of_offChannels (stopChannel_offChannels c s)
@[simp] theorem applyPlan_stores (c : ChannelId) (d : Nat) (s : State) : (applyPlan c d s).stores = s.stores :=
  stores_of_offChannels (applyPlan_offChannels c d s)

/-! ## The racks, charging and issue operations -/

@[simp] theorem ask_stores (e : Exchange) (s : State) : (ask e s).stores = s.stores := stores_of_offRacks (ask_offRacks e s)
@[simp] theorem request_stores (e : Exchange) (s : State) : (request e s).2.stores = s.stores := stores_of_offRacks (request_offRacks e s)
@[simp] theorem scanAll_stores (s : State) : (scanAll s).stores = s.stores := stores_of_offRacks (scanAll_offRacks s)
@[simp] theorem unqueue_stores (e : Exchange) (s : State) : (unqueue e s).stores = s.stores := rfl
@[simp] theorem requestSetCharge_stores (a : SlotAddr) (m : ChargeMode) (s : State) : (requestSetCharge a m s).stores = s.stores :=
  stores_of_offRacks (requestSetCharge_offRacks a m s)
@[simp] theorem attempt_stores (r : RackId) (s : State) : (attempt r s).stores = s.stores := stores_of_offRacks (attempt_offRacks r s)
@[simp] theorem enterCharging_stores (a : SlotAddr) (s : State) : (enterCharging a s).stores = s.stores :=
  stores_of_offRacks (enterCharging_offRacks a s)
@[simp] theorem endCharging_stores (a : SlotAddr) (s : State) : (endCharging a s).stores = s.stores :=
  stores_of_offRacks (endCharging_offRacks a s)
@[simp] theorem judgePoll_stores (a : SlotAddr) (s : State) : (judgePoll a s).stores = s.stores :=
  stores_of_offRacks (judgePoll_offRacks a s)
@[simp] theorem failCandidate_stores (g : GroupId) (a : SlotAddr) (b : Bool) (s : State) : (failCandidate g a b s).stores = s.stores :=
  stores_of_offIssue (failCandidate_offIssue g a b s)
@[simp] theorem failAt_stores (a : SlotAddr) (l : List Stage) (b : Bool) (s : State) : (failAt a l b s).stores = s.stores :=
  stores_of_offIssue (failAt_offIssue a l b s)
@[simp] theorem completeOp_stores (g : GroupId) (s : State) : (completeOp g s).stores = s.stores :=
  stores_of_offIssue (completeOp_offIssue g s)
@[simp] theorem chooseNext_stores (g : GroupId) (s : State) : (chooseNext g s).stores = s.stores :=
  stores_of_offIssue (chooseNext_offIssue g s)
@[simp] theorem nextOrComplete_stores (g : GroupId) (s : State) : (nextOrComplete g s).stores = s.stores :=
  stores_of_offIssue (nextOrComplete_offIssue g s)

/-! ## What the exchanges bring, but for the sources that they tell -/

@[simp] theorem setClear_stores (d : DeviceId) (c : ClearState) (s : State) : (setClear d c s).stores = s.stores := rfl
@[simp] theorem setTimeouts_stores (a : SlotAddr) (n : Nat) (s : State) : (setTimeouts a n s).stores = s.stores := rfl
@[simp] theorem freeBus_stores (s : State) : (freeBus s).stores = s.stores := rfl

@[simp] theorem deliverDiscarded_stores (b : Bool) (e : Exchange) (s : State) : (deliverDiscarded b e s).stores = s.stores := by
  cases e <;> simp [deliverDiscarded]

@[simp] theorem deliverTimeout_stores (e : Exchange) (s : State) : (deliverTimeout e s).stores = s.stores := by
  cases e <;> simp [deliverTimeout]

@[simp] theorem discardWhere_stores (p : Exchange → Bool) (b : Bool) (s : State) : (discardWhere p b s).stores = s.stores :=
  forEach_stores (fun e t => by simp) _ s

@[simp] theorem discardSlot_stores (a : SlotAddr) (b : Bool) (s : State) : (discardSlot a b s).stores = s.stores :=
  discardWhere_stores ..

@[simp] theorem requestClear_stores (a : SlotAddr) (d : DeviceId) (s : State) : (requestClear a d s).stores = s.stores := by
  have asked := request_stores (.clear a d) s
  unfold requestClear
  split <;> simp_all

theorem freeGroup_stores (g : GroupId) (s : State) : (freeGroup g s).stores = s.stores := by
  unfold freeGroup
  dsimp only
  split <;> rfl

theorem closeIfEmpty_stores (g : GroupId) (s : State) : (closeIfEmpty g s).stores = s.stores := by
  unfold closeIfEmpty
  dsimp only
  split
  · rw [raise_stores, freeGroup_stores]
  · rfl

@[simp] theorem emptiedDevice_stores (r : EmptyReason) (a : SlotAddr) (s : State) : (emptiedDevice r a s).stores = s.stores := by
  unfold emptiedDevice
  (repeat' split) <;> simp

@[simp] theorem emptiedReservation_stores (a : SlotAddr) (s : State) : (emptiedReservation a s).stores = s.stores := by
  unfold emptiedReservation
  split <;> simp

@[simp] theorem emptySlot_stores (r : EmptyReason) (a : SlotAddr) (s : State) : (emptySlot r a s).stores = s.stores := by
  unfold emptySlot
  (repeat' split) <;> simp

@[simp] theorem markFault_stores (a : SlotAddr) (c : FaultCause) (s : State) : (markFault a c s).stores = s.stores := by
  cases c <;> simp [markFault]

@[simp] theorem enterFault_stores (a : SlotAddr) (c : FaultCause) (s : State) : (enterFault a c s).stores = s.stores := by
  simp [enterFault]

theorem scanPosition_stores (w : RackWindow) (p : List Byte) (a : SlotAddr) (s : State) : (scanPosition w p a s).stores = s.stores := by
  unfold scanPosition
  dsimp only
  (repeat' split) <;> simp

theorem clearOwed_stores (a : SlotAddr) (s : State) : (clearOwed a s).stores = s.stores := by
  unfold clearOwed
  (repeat' split) <;> simp

theorem scanComplete_stores (r : RackId) (p : List Byte) (s : State) : (scanComplete r p s).stores = s.stores := by
  unfold scanComplete
  split
  · rfl
  · dsimp only
    rw [forEach_stores clearOwed_stores, forEach_stores (scanPosition_stores _ p), modRack_stores]

@[simp] theorem occupySlot_stores (a : SlotAddr) (d : DeviceId) (k : DeviceKind) (l : Nat) (s : State) :
    (occupySlot a d k l s).stores = s.stores := rfl

@[simp] theorem storeLevel_stores (a : SlotAddr) (l : Nat) (s : State) : (storeLevel a l s).stores = s.stores := by
  unfold storeLevel
  dsimp only
  split <;> rfl

theorem pollComplete_stores (a : SlotAddr) (p : List Byte) (s : State) : (pollComplete a p s).stores = s.stores := by
  unfold pollComplete
  dsimp only
  split <;> simp

theorem tuneAnswered_stores (a : SlotAddr) (s : State) : (tuneAnswered a s).stores = s.stores := by
  unfold tuneAnswered
  split
  · rfl
  · extract_lets noted
    have same : noted.stores = s.stores := by
      unfold noted
      split <;> rfl
    have asked := request_stores (.release a) noted
    split <;> simp_all

theorem slotTimeout_stores (e : Exchange) (a : SlotAddr) (s : State) : (slotTimeout e a s).stores = s.stores := by
  have again (t : State) : (probeAgain e t).stores = t.stores := by
    cases e <;> simp [probeAgain]
  unfold slotTimeout
  split <;> simp [again]

theorem scanTimeout_stores (r : RackId) (s : State) : (scanTimeout r s).stores = s.stores := by
  unfold scanTimeout
  split
  · rfl
  · split
    · rfl
    · split
      · rfl
      · rw [forEach_stores (emptySlot_stores .lost), raise_stores, modRack_stores]

/-! ## What requests do to racks, charging and fleet -/

theorem defineRack_stores (r : RackId) (w : RackWindow) (s : State) : (defineRack r w s).stores = s.stores := by
  rw [defineRack, ask_stores, forEach_stores fun a t => setSlot_stores a _ t, setRack_stores]

theorem removeRack_stores (r : RackId) (w : RackWindow) (s : State) : (removeRack r w s).stores = s.stores := by
  unfold removeRack
  dsimp only
  rw [setRack_stores, forEach_stores fun a t => setSlot_stores a _ t, forEach_stores (emptySlot_stores .lost)]
  change (discardWhere _ _ _).stores = _
  rw [discardWhere_stores, modRack_stores]

theorem clearFault_stores (a : SlotAddr) (s : State) : (clearFault a s).stores = s.stores := by
  unfold clearFault
  dsimp only
  rw [ask_stores, modSlot_stores]
  (repeat' split) <;> rfl

theorem shedLoop_stores (n : Nat) (r : RackId) (s : State) : (shedLoop n r s).2.stores = s.stores := by
  induction n generalizing s with
  | zero => rfl
  | succ n ih =>
    unfold shedLoop
    (repeat' split)
    · rfl
    · rfl
    · rfl
    · exact (ih _).trans (by simp [shedOne])

theorem writeBudget_stores (r : RackId) (w : RackWindow) (b : Nat) (s : State) : (writeBudget r w b s).2.stores = s.stores := by
  have shedding (t : State) : (shed r t).2.stores = t.stores := by
    unfold shed
    split
    · rfl
    · dsimp only
      split
      · exact shedLoop_stores ..
      · simp [shedLoop_stores]
  unfold writeBudget
  dsimp only
  (repeat' split)
  · rw [shedding, modRack_stores]
  · rw [attempt_stores, modRack_stores]
  · rfl

theorem retuneEffect_stores (n : NoticeRecord) (s : State) : (retuneEffect n s).stores = s.stores := by
  unfold retuneEffect retuneGroup retuneDevice
  dsimp only
  (repeat' split) <;> rfl

theorem createOp_stores (g : GroupId) (body : List Byte) (s : State) : (createOp g body s).stores = s.stores := by
  unfold createOp
  dsimp only
  split <;> rfl

/-! ## Requests -/

@[simp] theorem refuse_stores (s : State) (r : Status) : (refuse s r).1.stores = s.stores := rfl

section
variable (body : List Byte) (s : State)

theorem takeChannelStage_stores : (takeChannelStage body s).1.stores = s.stores := by
  unfold takeChannelStage
  dsimp only
  (repeat' split) <;> simp

theorem takeChannelApply_stores : (takeChannelApply body s).1.stores = s.stores := by
  unfold takeChannelApply
  dsimp only
  (repeat' split) <;> simp

theorem takeChannelClose_stores : (takeChannelClose body s).1.stores = s.stores := by
  unfold takeChannelClose
  dsimp only
  (repeat' split) <;> simp

theorem takeChannelStatus_stores : (takeChannelStatus body s).1.stores = s.stores := by
  unfold takeChannelStatus
  split <;> rfl

theorem takeNoticeStatus_stores : (takeNoticeStatus body s).1.stores = s.stores := by
  unfold takeNoticeStatus
  (repeat' split) <;> rfl

theorem takeSourceStatus_stores : (takeSourceStatus body s).1.stores = s.stores := by
  unfold takeSourceStatus
  split <;> rfl

theorem takeAirStop_stores : (takeAirStop body s).1.stores = s.stores := by
  unfold takeAirStop
  (repeat' split) <;> rfl

theorem takeRackDefine_stores : (takeRackDefine body s).1.stores = s.stores := by
  unfold takeRackDefine
  dsimp only
  (repeat' split) <;> simp [defineRack_stores]

theorem takeRackRemove_stores : (takeRackRemove body s).1.stores = s.stores := by
  unfold takeRackRemove
  (repeat' split) <;> simp [removeRack_stores]

theorem takeRackBudget_stores : (takeRackBudget body s).1.stores = s.stores := by
  unfold takeRackBudget
  dsimp only
  (repeat' split) <;> simp [writeBudget_stores]

theorem takeChargeConfig_stores : (takeChargeConfig body s).1.stores = s.stores := by
  unfold takeChargeConfig
  dsimp only
  split
  · rfl
  · rw [forEach_stores attempt_stores]
    rfl

theorem takeSlotStatus_stores : (takeSlotStatus body s).1.stores = s.stores := by
  unfold takeSlotStatus
  (repeat' split) <;> rfl

theorem takeSlotClearFault_stores : (takeSlotClearFault body s).1.stores = s.stores := by
  unfold takeSlotClearFault
  (repeat' split) <;> simp [clearFault_stores]

theorem takeDeviceRead_stores : (takeDeviceRead body s).1.stores = s.stores := by
  unfold takeDeviceRead
  dsimp only
  (repeat' split) <;> rfl

theorem takeDeviceForget_stores : (takeDeviceForget body s).1.stores = s.stores := by
  unfold takeDeviceForget
  (repeat' split) <;> rfl

theorem takeGroupOpen_stores : (takeGroupOpen body s).1.stores = s.stores := by
  unfold takeGroupOpen
  (repeat' split) <;> rfl

theorem takeGroupClose_stores : (takeGroupClose body s).1.stores = s.stores := by
  unfold takeGroupClose
  dsimp only
  (repeat' split) <;> simp [freeGroup_stores]

theorem takeGroupStatus_stores : (takeGroupStatus body s).1.stores = s.stores := by
  unfold takeGroupStatus
  split <;> rfl

theorem takeIssue_stores : (takeIssue body s).1.stores = s.stores := by
  unfold takeIssue
  (repeat' split) <;> simp [createOp_stores]

theorem takeIssueCancel_stores : (takeIssueCancel body s).1.stores = s.stores := by
  unfold takeIssueCancel
  (repeat' split) <;> rfl

theorem takeIssueStatus_stores : (takeIssueStatus body s).1.stores = s.stores := by
  unfold takeIssueStatus
  (repeat' split) <;> rfl

theorem takeEventRead_stores : (takeEventRead body s).1.stores = s.stores := by
  unfold takeEventRead
  (repeat' split) <;> rfl

theorem takeEventClear_stores : (takeEventClear body s).1.stores = s.stores := by
  have one (k : EventId) (t : State) : (clearKind k t).stores = t.stores := by
    unfold clearKind
    split <;> rfl
  unfold takeEventClear
  split
  · rfl
  · exact forEach_stores one _ s

theorem takeEventSet_stores : (takeEventSet body s).1.stores = s.stores := by
  unfold takeEventSet
  split
  · rfl
  · exact raiseKind_stores ..

theorem takeEventEnable_stores : (takeEventEnable body s).1.stores = s.stores := by
  have one (k : EventId) (t : State) : (enableKind k t).stores = t.stores := by
    unfold enableKind
    dsimp only
    (repeat' split) <;> simp [offerNotice_stores]
  unfold takeEventEnable
  split
  · rfl
  · exact forEach_stores one _ s

theorem takeEventDisable_stores : (takeEventDisable body s).1.stores = s.stores := by
  unfold takeEventDisable
  split
  · rfl
  · exact forEach_stores (f := disableKind) (fun _ _ => rfl) _ s

end

end Sys2Proof.Machine
end

section
/-! PROOF. The ranges of a source's numbers: each change of a source's record keeps them (chapter 4's table). -/

namespace Sys2Proof.Machine

/-! ## Numbers -/

theorem within_iff (b : Nat) (x : Int) : Within b x ↔ x.natAbs ≤ b := by
  unfold Within
  omega

theorem within_band {b : Int} (h : 0 ≤ b) (x : Int) : Within b (band b x) := by
  unfold Within band
  omega

theorem within_mono {b c x : Int} (h : Within b x) (le : b ≤ c) : Within c x := by
  unfold Within at *
  omega

theorem within_zero {b : Int} (h : 0 ≤ b) : Within b 0 := by
  unfold Within
  omega

/-- The sum of numbers in a band lies in the band as many times as wide. -/
theorem within_sum (b : Nat) (l : List Int) (h : ∀ x ∈ l, Within b x) : l.sum.natAbs ≤ b * l.length := by
  induction l with
  | nil => exact Nat.zero_le _
  | cons x l ih =>
    have head := (within_iff b x).mp (h x List.mem_cons_self)
    have tail := ih fun y mem => h y (List.mem_cons_of_mem _ mem)
    rw [List.sum_cons, List.length_cons, Nat.mul_succ]
    omega

/-- A mean of numbers in a band lies in it (R62). -/
theorem within_mean (b : Nat) (l : List Int) (h : ∀ x ∈ l, Within b x) (some : l ≠ []) : Within b (l.sum.tdiv l.length) := by
  have total := within_sum b l h
  have many : 0 < l.length := List.length_pos_iff.mpr some
  rw [within_iff, Int.natAbs_tdiv, Int.natAbs_natCast]
  exact Nat.div_le_of_le_mul (by rwa [Nat.mul_comm])

/-- The slip brings the accumulator back (R59). -/
theorem within_slip {acc r : Int} (hacc : Within 65535 acc) (hr : Within 65535 r) :
    Within 65535 (acc + r - 65536 * slipFor (acc + r)) := by
  unfold Within slipFor at *
  split <;> [skip; split] <;> omega

/-! ## The record's numbers, change by change -/

theorem numbersSound_began {x : Source} (h : NumbersSound x) : NumbersSound x.began := by
  obtain ⟨f, acc, r, fixed, history, depth, counter, lol, run, age, settings⟩ := h
  have zero : Within 8192 0 ∧ Within 65535 0 := ⟨within_zero (by decide), within_zero (by decide)⟩
  unfold Source.began
  split
  · exact ⟨zero.1, zero.2, r, fixed, history, depth, counter, lol, Nat.zero_le _, Nat.zero_le _, settings⟩
  · exact ⟨fixed, zero.2, within_mono fixed (by decide), fixed, history, depth, counter, lol, Nat.zero_le _, Nat.zero_le _, settings⟩
  · exact ⟨f, acc, r, fixed, history, depth, counter, lol, run, age, settings⟩

theorem numbersSound_tracked {x : Source} (h : NumbersSound x) (fill : Nat) : NumbersSound (tracked x fill) := by
  obtain ⟨-, acc, -, fixed, history, depth, counter, lol, run, age, settings⟩ := h
  have ups : min 65535 (x.run + 1) ≤ 65535 := Nat.min_le_left ..
  unfold tracked
  dsimp only
  split
  · split
    · refine ⟨within_band (by decide) _, acc, within_band (by decide) _, fixed, history, depth, counter, lol, ?_, age, settings⟩
      dsimp only
      split
      · exact Nat.zero_le _
      · exact ups
    · exact ⟨within_band (by decide) _, acc, within_band (by decide) _, fixed, history, depth, counter, lol, ups, age, settings⟩
  · refine ⟨within_band (by decide) _, acc, within_band (by decide) _, fixed, history, depth, counter, ?_,
      Nat.zero_le _, age, settings⟩
    dsimp only
    split
    · exact Nat.min_le_left ..
    · exact lol

theorem numbersSound_detected {x : Source} (h : NumbersSound x) : NumbersSound x.detected := by
  unfold Source.detected
  split
  · exact numbersSound_tracked h _
  · obtain ⟨-, acc, -, fixed, history, depth, counter, lol, run, age, settings⟩ := h
    exact ⟨within_band (by decide) _, acc, within_band (by decide) _, fixed, history, depth, counter, lol, run, age, settings⟩

theorem numbersSound_resumed {x : Source} (h : NumbersSound x) : NumbersSound (resumed x) := by
  obtain ⟨f, acc, r, fixed, history, depth, counter, lol, run, age, settings⟩ := h
  unfold resumed
  dsimp only
  split
  · exact ⟨f, acc, r, fixed, history, depth, counter, lol, run, Nat.zero_le _, settings⟩
  · refine ⟨f, acc, r, fixed, history, depth, counter, ?_, run, Nat.zero_le _, settings⟩
    dsimp only
    split
    · exact Nat.min_le_left ..
    · exact lol

theorem numbersSound_prefilled {x : Source} (h : NumbersSound x) : NumbersSound x.prefilled := by
  obtain ⟨f, acc, r, fixed, history, depth, counter, lol, run, age, settings⟩ := h
  unfold Source.prefilled
  split
  · exact ⟨f, acc, r, fixed, history, depth, counter, lol, run, Nat.zero_le _, settings⟩
  · split
    · exact ⟨f, acc, within_mono fixed (by decide), fixed, history, depth, counter, lol, run, Nat.zero_le _, settings⟩
    · exact numbersSound_detected ⟨f, acc, r, fixed, history, depth, counter, lol, run, Nat.zero_le _, settings⟩

theorem numbersSound_processed {x : Source} (h : NumbersSound x) : NumbersSound x.processed := by
  unfold Source.processed
  split
  · exact numbersSound_prefilled h
  · cases x.state with
    | acquire | track => exact numbersSound_detected h
    | holdover => exact numbersSound_detected (numbersSound_resumed h)
    | fixed =>
      obtain ⟨f, acc, r, fixed, history, depth, counter, lol, run, age, settings⟩ := h
      exact ⟨f, acc, r, fixed, history, depth, counter, lol, run, Nat.zero_le _, settings⟩
    | off | waiting => exact h

theorem numbersSound_rested {x : Source} (h : NumbersSound x) (st : SourceState) : NumbersSound (x.rested st) := by
  obtain ⟨-, -, -, fixed, -, -, -, lol, -, -, settings⟩ := h
  have zero : Within 8192 0 ∧ Within 65535 0 := ⟨within_zero (by decide), within_zero (by decide)⟩
  exact ⟨zero.1, zero.2, zero.2, fixed, fun _ mem => absurd mem List.not_mem_nil, Nat.zero_le _, Nat.zero_le _, lol, Nat.zero_le _,
    Nat.zero_le _, settings⟩

theorem numbersSound_output {x : Source} (h : NumbersSound x) : NumbersSound x.output := by
  obtain ⟨f, acc, r, fixed, history, depth, counter, lol, run, age, settings⟩ := h
  exact ⟨f, within_slip acc r, r, fixed, history, depth, counter, lol, run, age, settings⟩

theorem numbersSound_noted {x : Source} (h : NumbersSound x) : NumbersSound x.noted := by
  obtain ⟨f, acc, r, fixed, history, depth, counter, lol, run, age, settings⟩ := h
  unfold Source.noted
  split
  · split
    · refine ⟨f, acc, r, fixed, fun y mem => ?_, ?_, Nat.zero_le _, lol, run, age, settings⟩
      · rcases List.mem_append.mp mem with old | new
        · split at old
          · exact history y old
          · exact history y (List.mem_of_mem_drop old)
        · rw [List.mem_singleton.mp new]
          exact f
      · dsimp only
        rw [List.length_append, List.length_singleton]
        split
        · omega
        · rw [List.length_drop]
          omega
    · exact ⟨f, acc, r, fixed, history, depth, by dsimp only; omega, lol, run, age, settings⟩
  · exact ⟨f, acc, r, fixed, history, depth, counter, lol, run, age, settings⟩

/-- f_hold is a mean of history values, or f (R62). -/
theorem within_meanOfHistory {x : Source} (f : Within 8192 x.f) (history : ∀ h ∈ x.history, Within 8192 h) :
    Within 8192 (meanOfHistory x) := by
  unfold meanOfHistory
  dsimp only
  split
  · exact f
  · next some =>
    generalize count : min x.settings.historyDepth x.history.length = m at some
    have length : (x.history.reverse.take m).length = m := by
      rw [List.length_take, List.length_reverse]
      omega
    have mean := within_mean 8192 (x.history.reverse.take m)
      (fun y mem => history y (List.mem_reverse.mp (List.mem_of_mem_take mem))) (fun none => by rw [none] at length; exact some length.symm)
    rwa [length] at mean

theorem numbersSound_held {x : Source} (h : NumbersSound x) : NumbersSound (held x) := by
  obtain ⟨f, acc, r, fixed, history, depth, counter, lol, run, age, settings⟩ := h
  have mean := within_meanOfHistory f history
  exact ⟨mean, acc, within_mono mean (by decide), fixed, history, depth, counter, lol, run,
    Nat.succ_le_of_lt (Nat.succ_pos 2999), settings⟩

/-- A source that is not lost at a mark has an age below its lost limit (R53, R63, R65). -/
theorem numbersSound_aged {x : Source} (h : NumbersSound x) {n : Nat} (young : n < x.settings.lostLimit) :
    NumbersSound { x with age := n } := by
  obtain ⟨f, acc, r, fixed, history, depth, counter, lol, run, age, settings⟩ := h
  obtain ⟨-, -, -, -, -, -, -, -, -, -, ⟨-, limit, -⟩, -⟩ := id settings
  exact ⟨f, acc, r, fixed, history, depth, counter, lol, run, by dsimp only; omega, settings⟩

theorem numbersSound_prefillMarked {x : Source} (h : NumbersSound x) : NumbersSound x.prefillMarked := by
  unfold Source.prefillMarked
  split
  · exact numbersSound_rested h _
  · next young => exact numbersSound_aged h (Nat.lt_of_not_le young)

theorem numbersSound_holdoverMarked {x : Source} (h : NumbersSound x) : NumbersSound x.holdoverMarked := by
  unfold Source.holdoverMarked
  split
  · exact numbersSound_rested h _
  · next young => exact numbersSound_output (numbersSound_aged h (Nat.lt_of_not_le young))

theorem numbersSound_fixedMarked {x : Source} (h : NumbersSound x) : NumbersSound x.fixedMarked := by
  unfold Source.fixedMarked
  split
  · exact numbersSound_rested h _
  · next kept =>
    have aged : NumbersSound { x with age := x.markedAge } := by
      unfold Source.markedAge at *
      cases arrival : x.blockArrived with
      | true => exact h
      | false =>
        rw [arrival] at kept
        exact numbersSound_aged h (Nat.lt_of_not_le fun limit => kept ⟨rfl, limit⟩)
    obtain ⟨f, acc, r, fixed, history, depth, counter, lol, run, age, settings⟩ := aged
    exact numbersSound_output ⟨f, acc, within_mono fixed (by decide), fixed, history, depth, counter, lol, run, age, settings⟩

theorem numbersSound_marked {x : Source} (h : NumbersSound x) : NumbersSound x.marked := by
  have tracking : NumbersSound x.trackingMarked := by
    unfold Source.trackingMarked
    split
    · exact numbersSound_noted (numbersSound_output h)
    · exact numbersSound_output (numbersSound_held h)
  change NumbersSound x.markWorked
  unfold Source.markWorked
  cases x.state with
  | off | waiting => exact h
  | acquire =>
    dsimp only
    split
    · exact numbersSound_prefillMarked h
    · exact tracking
  | fixed =>
    dsimp only
    split
    · exact numbersSound_prefillMarked h
    · exact numbersSound_fixedMarked h
  | track => exact tracking
  | holdover => exact numbersSound_holdoverMarked h

theorem numbersSound_rated {x : Source} (h : NumbersSound x) (m : RateMode) {rate : Int} (within : Within 8192 rate) :
    NumbersSound (rated x m rate) := by
  obtain ⟨f, acc, r, fixed, history, depth, counter, lol, run, age, settings⟩ := h
  have aged : (if x.prefill then x.age else 0) ≤ 3000 := by
    split
    · exact age
    · exact Nat.zero_le _
  have wide := within_mono within (c := 65535) (by decide)
  unfold rated
  dsimp only
  generalize (if x.prefill then x.age else 0) = a at aged
  (repeat' split)
  · exact ⟨f, acc, r, within, history, depth, counter, lol, run, age, settings⟩
  · exact ⟨within, acc, wide, within, history, depth, counter, lol, run, age, settings⟩
  · exact ⟨f, acc, within_mono f (by decide), within, history, depth, counter, lol, Nat.zero_le _, aged, settings⟩
  · exact ⟨within, acc, wide, within, history, depth, counter, lol, Nat.zero_le _, aged, settings⟩
  · exact ⟨f, acc, r, within, history, depth, counter, lol, run, age, settings⟩

theorem settingsSound_settingsOf (body : List Byte) : SettingsSound (settingsOf body) := by
  unfold SettingsSound settingsOf clamp
  dsimp only
  omega

end Sys2Proof.Machine
end

section
/-! PROOF. A source's laws: the ranges of its numbers, its buffer's layout and what it holds at rest, for every change of its record. -/

namespace Sys2Proof.Machine

/-- A source's buffer is laid out as R42 says, and it holds nothing in OFF or WAITING (R46, R49). -/
def HoldsSound (x : Source) : Prop :=
  BufferSound x.buffer ∧ (x.state = .off ∨ x.state = .waiting → x.buffer = .empty ∧ x.block = .none ∧ x.blockArrived = false)

theorem sourceSound_iff (x : Source) : SourceSound x ↔ NumbersSound x ∧ HoldsSound x := Iff.rfl

/-- A source is neither in OFF nor in WAITING. -/
def Source.Running (x : Source) : Prop := x.state ≠ .off ∧ x.state ≠ .waiting

theorem holdsSound_of_running {x : Source} (buffer : BufferSound x.buffer) (running : x.Running) : HoldsSound x :=
  ⟨buffer, fun rest => rest.elim (fun off => absurd off running.1) fun waiting => absurd waiting running.2⟩

theorem holdsSound_rested (x : Source) (st : SourceState) : HoldsSound (x.rested st) :=
  ⟨bufferSound_empty, fun _ => ⟨rfl, rfl, rfl⟩⟩

theorem sourceSound_rested {x : Source} (h : SourceSound x) (st : SourceState) : SourceSound (x.rested st) :=
  ⟨numbersSound_rested h.1 st, holdsSound_rested x st⟩

/-! ## At an arrival -/

theorem tracked_running (x : Source) (fill : Nat) (h : x.Running) : (tracked x fill).Running := by
  unfold tracked
  dsimp only
  split
  · split
    · unfold Source.Running
      dsimp only
      split <;> simp
    · exact h
  · unfold Source.Running
    simp

theorem detected_running {x : Source} (h : x.Running) : x.detected.Running := by
  unfold Source.detected
  split
  · exact tracked_running x _ h
  · exact h

theorem processed_running {x : Source} (h : x.Running) : x.processed.Running := by
  unfold Source.processed
  split
  · unfold Source.prefilled
    split
    · exact h
    · split
      · exact h
      · exact detected_running (x := { x with prefill := false, age := 0 }) h
  · cases state : x.state with
    | acquire | track => exact detected_running h
    | holdover =>
      refine detected_running ?_
      unfold Source.Running
      rcases resumed_state x with state | state <;> rw [state] <;> decide
    | fixed => exact ⟨nofun, nofun⟩
    | off => exact absurd state h.1
    | waiting => exact absurd state h.2

/-- The record that an arrival leaves (R34). -/
theorem sourceSound_arrival {x : Source} (h : SourceSound x) (on : x.state ≠ .off) {b : Buffer} (laid : BufferSound b) (q : Option Byte) :
    SourceSound (x.received b q).began.processed := by
  refine ⟨numbersSound_processed (numbersSound_began h.1), holdsSound_of_running ?_ (processed_running (began_state on))⟩
  rw [processed_buffer, began_buffer]
  exact laid

/-! ## At an OUTPUT mark -/

theorem bufferSound_output {x : Source} (h : BufferSound x.buffer) : BufferSound x.output.buffer := bufferSound_without h _

/-- A source's output keeps a running source running, with its buffer laid out (R45). -/
theorem holdsSound_output {x : Source} (laid : BufferSound x.buffer) (running : x.Running) : HoldsSound x.output :=
  holdsSound_of_running (bufferSound_output laid) running

theorem holdsSound_trackingMarked {x : Source} (laid : BufferSound x.buffer) (running : x.Running) : HoldsSound x.trackingMarked := by
  unfold Source.trackingMarked
  split
  · have same : x.output.noted.buffer = x.output.buffer ∧ x.output.noted.state = x.state := by
      unfold Source.noted
      (repeat' split) <;> exact ⟨rfl, rfl⟩
    refine holdsSound_of_running ?_ ?_
    · rw [same.1]
      exact bufferSound_output laid
    · unfold Source.Running
      rw [same.2]
      exact running
  · exact holdsSound_output (x := held x) laid ⟨nofun, nofun⟩

theorem holdsSound_prefillMarked {x : Source} (laid : BufferSound x.buffer) (running : x.Running) : HoldsSound x.prefillMarked := by
  unfold Source.prefillMarked
  split
  · exact holdsSound_rested ..
  · exact holdsSound_of_running laid running

theorem holdsSound_holdoverMarked {x : Source} (laid : BufferSound x.buffer) (running : x.Running) : HoldsSound x.holdoverMarked := by
  unfold Source.holdoverMarked
  split
  · exact holdsSound_rested ..
  · exact holdsSound_output (x := { x with age := x.age + 1 }) laid running

theorem holdsSound_fixedMarked {x : Source} (laid : BufferSound x.buffer) (running : x.Running) : HoldsSound x.fixedMarked := by
  unfold Source.fixedMarked
  split
  · exact holdsSound_rested ..
  · exact holdsSound_output (x := { x with age := x.markedAge, r := x.fFixed }) laid running

theorem holdsSound_markWorked {x : Source} (h : HoldsSound x) : HoldsSound x.markWorked := by
  obtain ⟨laid, rest⟩ := id h
  unfold Source.markWorked
  cases state : x.state with
  | off | waiting => exact h
  | acquire =>
    have running : x.Running := by simp [Source.Running, state]
    dsimp only
    split
    · exact holdsSound_prefillMarked laid running
    · exact holdsSound_trackingMarked laid running
  | fixed =>
    have running : x.Running := by simp [Source.Running, state]
    dsimp only
    split
    · exact holdsSound_prefillMarked laid running
    · exact holdsSound_fixedMarked laid running
  | track => exact holdsSound_trackingMarked laid (by simp [Source.Running, state])
  | holdover => exact holdsSound_holdoverMarked laid (by simp [Source.Running, state])

theorem sourceSound_marked {x : Source} (h : SourceSound x) : SourceSound x.marked := by
  obtain ⟨numbers, holds⟩ := h
  obtain ⟨laid, rest⟩ := holdsSound_markWorked holds
  refine ⟨numbersSound_marked numbers, laid, fun resting => ?_⟩
  obtain ⟨buffer, block, -⟩ := rest resting
  exact ⟨buffer, block, rfl⟩

/-! ## At a request, and at the coming and going of a source -/

/-- The change of R69 leaves what a source holds, and brings none to rest. -/
theorem rated_holds (x : Source) (m : RateMode) (f : Int) : (rated x m f).block = x.block ∧ (rated x m f).blockArrived = x.blockArrived ∧
    ((rated x m f).state = .off ∨ (rated x m f).state = .waiting → x.state = .off ∨ x.state = .waiting) := by
  unfold rated
  dsimp only
  split
  · next rest => exact ⟨rfl, rfl, fun _ => rest⟩
  · (repeat' split) <;> exact ⟨rfl, rfl, by simp_all⟩

theorem sourceSound_rated {x : Source} (h : SourceSound x) (m : RateMode) {rate : Int} (within : Within 8192 rate) :
    SourceSound (rated x m rate) := by
  obtain ⟨numbers, laid, rest⟩ := h
  obtain ⟨block, arrived, back⟩ := rated_holds x m rate
  refine ⟨numbersSound_rated numbers m within, by rwa [rated_buffer], fun resting => ?_⟩
  rw [rated_buffer, block, arrived]
  exact rest (back resting)

end Sys2Proof.Machine
end

section
/-! PROOF. The notice table and its queues: a record removed, one that joins, and one that moves to its queue's tail. -/

namespace Sys2Proof.Machine

/-! ## The two queues as one -/

/-- A class's queue holds the handles of the records of that class, in some order (R93). -/
def QueueSound (n : Scheduler) (c : NoticeClass) : Prop :=
  (n.queue c).Perm ((n.records.filter (fun r => r.cls = c)).map NoticeRecord.handle)

/-- The laws of the notice table but for the counters. -/
structure TableSound (n : Scheduler) : Prop where
  few : n.records.length ≤ 64
  once : (n.records.map NoticeRecord.handle).Nodup
  sound : ∀ r ∈ n.records, NoticeSound r
  queues : ∀ c, QueueSound n c

theorem noticesSound_iff (n : Scheduler) : NoticesSound n ↔
    TableSound n ∧ (1 ≤ n.nextHandle ∧ n.nextHandle ≤ 65535) ∧ (1 ≤ n.lateLimit ∧ n.lateLimit ≤ 255) ∧ n.lateCounter ≤ 254 := by
  constructor
  · rintro ⟨few, once, sound, urgent, routine, rest⟩
    refine ⟨⟨few, once, sound, fun c => ?_⟩, rest⟩
    cases c
    · exact urgent
    · exact routine
  · rintro ⟨⟨few, once, sound, queues⟩, rest⟩
    exact ⟨few, once, sound, queues .urgent, queues .routine, rest⟩

theorem queue_setQueue (n : Scheduler) (c d : NoticeClass) (q : List Nat) : (n.setQueue c q).queue d = if d = c then q else n.queue d := by
  cases c <;> cases d <;> rfl

/-- The counters of a scheduler, which a change of the table leaves alone. -/
def Scheduler.counters (n : Scheduler) : Nat × Nat := (n.lateLimit, n.lateCounter)

theorem noticesSound_of_table {m n : Scheduler} (h : NoticesSound m) (table : TableSound n)
    (handle : 1 ≤ n.nextHandle ∧ n.nextHandle ≤ 65535) (counters : n.counters = m.counters) : NoticesSound n := by
  obtain ⟨-, -, limit, counter⟩ := (noticesSound_iff m).mp h
  obtain ⟨sameLimit, sameCounter⟩ := Prod.mk.inj counters
  exact (noticesSound_iff n).mpr ⟨table, handle, sameLimit ▸ limit, sameCounter ▸ counter⟩

/-! ## One record among the others -/

/-- A record stands once in the table: it and those of other handles are all. -/
theorem records_perm_cons {l : List NoticeRecord} (once : (l.map NoticeRecord.handle).Nodup) {n : NoticeRecord} (mem : n ∈ l) :
    l.Perm (n :: l.filter (fun m => m.handle ≠ n.handle)) := by
  induction l with
  | nil => exact absurd mem List.not_mem_nil
  | cons m l ih =>
    obtain ⟨new, rest⟩ := List.nodup_cons.mp once
    rcases List.mem_cons.mp mem with rfl | later
    · have others : l.filter (fun m => m.handle ≠ n.handle) = l := List.filter_eq_self.mpr fun r inRest =>
        decide_eq_true fun same => new (same ▸ List.mem_map_of_mem inRest)
      rw [List.filter_cons_of_neg (by simp), others]
    · have other : m.handle ≠ n.handle := fun same => new (same ▸ List.mem_map_of_mem later)
      rw [List.filter_cons_of_pos (by simpa using other)]
      exact ((ih rest later).cons m).trans (.swap ..)

/-- Records of the table with one handle are one record. -/
theorem record_of_handle {l : List NoticeRecord} (once : (l.map NoticeRecord.handle).Nodup)
    {m n : NoticeRecord} (hm : m ∈ l) (hn : n ∈ l)
    (same : m.handle = n.handle) : m = n := List.inj_on_of_nodup_map once hm hn same

theorem mem_of_notice? {s : State} {h : Nat} {n : NoticeRecord} (found : s.notice? h = some n) : n ∈ s.sched.records ∧ n.handle = h :=
  ⟨List.mem_of_find?_eq_some found, of_decide_eq_true (List.find?_some found :)⟩

/-! ## Removal -/

/-- The scheduler with a record removed (R93). -/
def Scheduler.without (n : Scheduler) (r : NoticeRecord) : Scheduler :=
  { n with records := n.records.filter (fun m => m.handle ≠ r.handle), urgent := n.urgent.filter (fun h => h ≠ r.handle),
           routine := n.routine.filter (fun h => h ≠ r.handle) }

theorem removeNotice_sched (r : NoticeRecord) (s : State) : (removeNotice r s).sched = s.sched.without r := rfl

theorem queue_without (n : Scheduler) (r : NoticeRecord) (c : NoticeClass) :
    (n.without r).queue c = (n.queue c).filter (fun h => h ≠ r.handle) := by
  cases c <;> rfl

theorem tableSound_without {n : Scheduler} (h : TableSound n) (r : NoticeRecord) : TableSound (n.without r) where
  few := (List.length_filter_le ..).trans h.few
  once := h.once.sublist (List.filter_sublist.map _)
  sound m mem := h.sound m (List.mem_of_mem_filter mem)
  queues c := by
    have kept := (h.queues c).filter (fun i => decide (i ≠ r.handle))
    unfold QueueSound
    rw [queue_without]
    rw [List.filter_map, List.filter_filter] at kept
    change List.Perm _ (((n.records.filter _).filter _).map _)
    rw [List.filter_filter]
    refine kept.trans (.of_eq (congrArg _ (List.filter_congr fun m _ => ?_)))
    rw [Bool.and_comm]
    rfl

/-! ## A record that joins -/

/-- The scheduler with a record at the tail of the table and of its class's queue (R94, R97). -/
def Scheduler.inserted (n : Scheduler) (r : NoticeRecord) : Scheduler :=
  { n.setQueue r.cls (n.queue r.cls ++ [r.handle]) with records := n.records ++ [r], nextHandle := handleAfter r.handle }

theorem insertNotice_sched (r : NoticeRecord) (s : State) : (insertNotice r s).sched = s.sched.inserted r := rfl

theorem queue_inserted (n : Scheduler) (r : NoticeRecord) (c : NoticeClass) :
    (n.inserted r).queue c = n.queue c ++ if c = r.cls then [r.handle] else [] := by
  have same : (n.inserted r).queue c = (n.setQueue r.cls (n.queue r.cls ++ [r.handle])).queue c := by cases c <;> rfl
  rw [same, queue_setQueue]
  split
  · next eq => rw [eq]
  · rw [List.append_nil]

theorem tableSound_inserted {n : Scheduler} (h : TableSound n) {r : NoticeRecord} (room : n.records.length < 64)
    (new : r.handle ∉ n.records.map NoticeRecord.handle) (sound : NoticeSound r) : TableSound (n.inserted r) where
  few := by
    change (n.records ++ [r]).length ≤ 64
    rw [List.length_append]
    exact room
  once := by
    change ((n.records ++ [r]).map NoticeRecord.handle).Nodup
    rw [List.map_append]
    exact h.once.append (List.nodup_singleton _) (List.disjoint_singleton.mpr new)
  sound m mem := (List.mem_append.mp mem).elim (h.sound m) fun last => List.mem_singleton.mp last ▸ sound
  queues c := by
    unfold QueueSound
    change List.Perm ((n.inserted r).queue c) (((n.records ++ [r]).filter _).map _)
    rw [queue_inserted, List.filter_append, List.map_append]
    refine (h.queues c).append ?_
    by_cases same : c = r.cls
    · simp [same]
    · simp [same, Ne.symm same]

/-! ## A record that has been placed and repeats -/

/-- The record after a placement that is not its last (R106). -/
def NoticeRecord.repeated (r : NoticeRecord) (m : Count) : NoticeRecord :=
  { r with transmissions := r.transmissions + 1, repeatsRemaining := r.repeatsRemaining - 1, notBefore := m + BitVec.ofNat 32 r.interval }

/-- The scheduler with a record repeated, at its queue's tail (R106). -/
def Scheduler.rotated (n : Scheduler) (r : NoticeRecord) (m : Count) : Scheduler :=
  { n.setQueue r.cls ((n.queue r.cls).filter (fun h => h ≠ r.handle) ++ [r.handle]) with
    records := n.records.map (fun q => if q.handle = r.handle then r.repeated m else q) }

theorem afterPlacement_cases (m : Count) (r : NoticeRecord) (s : State) :
    (r.repeatsRemaining ≤ 1 ∧ afterPlacement m r s = removeNotice r s) ∨
      (1 < r.repeatsRemaining ∧ afterPlacement m r s = { s with sched := s.sched.rotated r m }) := by
  unfold afterPlacement
  rcases Nat.lt_or_ge 1 r.repeatsRemaining with more | last
  · exact .inr ⟨more, if_neg (Nat.not_le.mpr more)⟩
  · exact .inl ⟨last, if_pos last⟩

theorem queue_rotated (n : Scheduler) (r : NoticeRecord) (m : Count) (c : NoticeClass) : (n.rotated r m).queue c =
    if c = r.cls then (n.queue r.cls).filter (fun h => h ≠ r.handle) ++ [r.handle] else n.queue c := by
  have same : (n.rotated r m).queue c =
      (n.setQueue r.cls ((n.queue r.cls).filter (fun h => h ≠ r.handle) ++ [r.handle])).queue c := by cases c <;> rfl
  rw [same, queue_setQueue]

/-- What does not move with a repeat is the same for every record of the table. -/
theorem map_rotated {α : Type} {n : Scheduler} (h : TableSound n) {r : NoticeRecord} (mem : r ∈ n.records) (m : Count)
    (g : NoticeRecord → α) (same : g (r.repeated m) = g r) : (n.rotated r m).records.map g = n.records.map g := by
  change (n.records.map _).map g = _
  rw [List.map_map]
  refine List.map_congr_left fun q inTable => ?_
  dsimp only [Function.comp]
  split
  · next eq => rw [same, record_of_handle h.once inTable mem eq]
  · rfl

/-- A class's handles, read off the classes and handles alone. -/
theorem handles_of_class (l : List NoticeRecord) (c : NoticeClass) : (l.filter (fun q => q.cls = c)).map NoticeRecord.handle =
    ((l.map fun q => (q.cls, q.handle)).filter (fun p => p.1 = c)).map Prod.snd := by
  rw [List.filter_map, List.map_map]
  rfl

theorem noticeSound_repeated {r : NoticeRecord} (h : NoticeSound r) (more : 1 < r.repeatsRemaining) (m : Count) :
    NoticeSound (r.repeated m) := by
  obtain ⟨handle, repeats, interval, total, cells⟩ := h
  refine ⟨handle, ?_, interval, ?_, cells⟩
  · dsimp only [NoticeRecord.repeated]
    omega
  · dsimp only [NoticeRecord.repeated]
    omega

/-- A member of a list without repetition, moved to its end. -/
theorem perm_move_last {l : List Nat} (once : l.Nodup) {a : Nat} (mem : a ∈ l) : (l.filter (fun h => h ≠ a) ++ [a]).Perm l := by
  have erased : l.erase a = l.filter (fun h => h ≠ a) := by
    rw [once.erase_eq_filter]
    exact List.filter_congr fun b _ => by simp [bne, beq_eq_decide]
  rw [← erased]
  exact List.perm_append_comm.trans (List.perm_cons_erase mem).symm

theorem tableSound_rotated {n : Scheduler} (h : TableSound n) {r : NoticeRecord} (mem : r ∈ n.records) (more : 1 < r.repeatsRemaining)
    (m : Count) : TableSound (n.rotated r m) where
  few := by
    change (n.records.map _).length ≤ 64
    rw [List.length_map]
    exact h.few
  once := by
    rw [map_rotated h mem m NoticeRecord.handle rfl]
    exact h.once
  sound q inTable := by
    obtain ⟨p, old, rfl⟩ := List.mem_map.mp inTable
    split
    · exact noticeSound_repeated (h.sound r mem) more m
    · exact h.sound p old
  queues c := by
    unfold QueueSound
    rw [handles_of_class, map_rotated h mem m (fun q => (q.cls, q.handle)) rfl, ← handles_of_class, queue_rotated]
    split
    · next eq =>
      subst eq
      refine List.Perm.trans (perm_move_last ?_ ?_) (h.queues r.cls)
      · exact (h.queues r.cls).nodup_iff.mpr (h.once.sublist (List.filter_sublist.map _))
      · refine (h.queues r.cls).mem_iff.mpr (List.mem_map_of_mem (List.mem_filter.mpr ⟨mem, by simp⟩))
    · exact h.queues c

end Sys2Proof.Machine
end

section
/-! PROOF. The handle of a posting: among 64 numbers in a row one is free where fewer than 64 records stand (R94). -/

namespace Sys2Proof.Machine

theorem handleAfter_range (h : Nat) : 1 ≤ handleAfter h ∧ handleAfter h ≤ 65535 := by
  unfold handleAfter
  split <;> omega

/-- The number i steps after a handle. -/
def handleOn (h i : Nat) : Nat := (h - 1 + i) % 65535 + 1

theorem handleOn_zero {h : Nat} (range : 1 ≤ h ∧ h ≤ 65535) : handleOn h 0 = h := by
  unfold handleOn
  omega

theorem handleOn_range (h i : Nat) : 1 ≤ handleOn h i ∧ handleOn h i ≤ 65535 := by
  unfold handleOn
  omega

theorem handleOn_succ {h : Nat} (range : 1 ≤ h ∧ h ≤ 65535) (i : Nat) : handleOn h (i + 1) = handleOn (handleAfter h) i := by
  unfold handleOn handleAfter
  split <;> omega

/-- The first 65535 numbers after a handle are distinct. -/
theorem handleOn_injective {h i j : Nat} (hi : i < 64) (hj : j < 64) (same : handleOn h i = handleOn h j) : i = j := by
  unfold handleOn at same
  omega

/-- The search ends at a number that no record holds, or has passed over so many that records hold (R94). -/
theorem freeHandle_cases (n : Nat) {h : Nat} (range : 1 ≤ h ∧ h ≤ 65535) (s : State) :
    (∃ i, freeHandle n h s = handleOn h i ∧ s.notice? (handleOn h i) = none) ∨ ∀ i < n, (s.notice? (handleOn h i)).isSome = true := by
  induction n generalizing h with
  | zero => exact .inr fun i none => absurd none (Nat.not_lt_zero i)
  | succ n ih =>
    unfold freeHandle
    split
    · next held =>
      rcases ih (handleAfter_range h) with ⟨i, found, free⟩ | all
      · refine .inl ⟨i + 1, ?_⟩
        rw [handleOn_succ range]
        exact ⟨found, free⟩
      · refine .inr fun i small => ?_
        cases i with
        | zero => rwa [handleOn_zero range]
        | succ i =>
          rw [handleOn_succ range]
          exact all i (Nat.lt_of_succ_lt_succ small)
    · next free =>
      refine .inl ⟨0, ?_⟩
      rw [handleOn_zero range]
      exact ⟨rfl, by simpa using free⟩

theorem notice?_isSome_iff (s : State) (h : Nat) : (s.notice? h).isSome = true ↔ h ∈ s.sched.records.map NoticeRecord.handle := by
  unfold State.notice?
  rw [List.find?_isSome, List.mem_map]
  simp only [decide_eq_true_eq]

/-- A posting's handle is one that no record holds (R94). -/
theorem assignHandle_free (s : State) (range : 1 ≤ s.sched.nextHandle ∧ s.sched.nextHandle ≤ 65535)
    (room : s.sched.records.length < 64) :
    (1 ≤ assignHandle s ∧ assignHandle s ≤ 65535) ∧ assignHandle s ∉ s.sched.records.map NoticeRecord.handle := by
  rcases freeHandle_cases 64 range s with ⟨i, found, free⟩ | all
  · have handle : assignHandle s = handleOn s.sched.nextHandle i := found
    refine ⟨handle ▸ handleOn_range _ i, fun held => ?_⟩
    rw [handle, ← notice?_isSome_iff, free] at held
    exact absurd held Bool.false_ne_true
  · have distinct : ((List.range 64).map (handleOn s.sched.nextHandle)).Nodup :=
      List.nodup_range.map_on fun i hi j hj => handleOn_injective (List.mem_range.mp hi) (List.mem_range.mp hj)
    have held : (List.range 64).map (handleOn s.sched.nextHandle) ⊆ s.sched.records.map NoticeRecord.handle := fun h mem => by
      obtain ⟨i, small, rfl⟩ := List.mem_map.mp mem
      exact (notice?_isSome_iff s _).mp (all i (List.mem_range.mp small))
    have many := (distinct.subperm held).length_le
    rw [List.length_map, List.length_map, List.length_range] at many
    exact absurd room (Nat.not_lt.mpr many)

end Sys2Proof.Machine
end

section
/-! PROOF. Work that keeps the laws of the sources and of the cells: on one source, on the notices, and on neither. -/

namespace Sys2Proof.Machine

/-- Every cell has one owner, and the notice table agrees with its queues (R36, R93). -/
def Owned (s : State) : Prop := CellsSound s ∧ NoticesSound s.sched

/-- The work keeps the laws of the sources, and it keeps the laws of the cells and the notices. -/
structure Steady (s t : State) : Prop where
  sources : SourcesSound s → SourcesSound t
  owned : Owned s → Owned t

theorem Steady.refl (s : State) : Steady s s := ⟨id, id⟩

theorem Steady.trans {s t u : State} (h : Steady s t) (g : Steady t u) : Steady s u := ⟨g.sources ∘ h.sources, g.owned ∘ h.owned⟩

theorem Steady.of_stores {s t : State} (h : t.stores = s.stores) : Steady s t := by
  obtain ⟨sources, rest⟩ := Prod.mk.inj h
  obtain ⟨pool, sched⟩ := Prod.mk.inj rest
  constructor
  · unfold SourcesSound
    rw [sources]
    exact id
  · unfold Owned CellsSound allCells
    rw [sources, pool, sched]
    exact id

theorem Steady.forEach {α : Type} {f : α → State → State} (h : ∀ a s, Steady s (f a s)) (l : List α) (s : State) :
    Steady s (forEach l f s) := forEach_keeps (Steady s) f (fun a _ kept => kept.trans (h a _)) l s (.refl s)

/-! ## Work on one source -/

/-- The cells of the sources' chains, with one source's apart. -/
theorem chains_perm (k : SourceId) (v : Vector Source 14) : ∃ rest : List CellId, ∀ y : Source,
    ((List.finRange 14).flatMap fun j : SourceId => (v.set k y)[j].buffer.chain).Perm (y.buffer.chain ++ rest) := by
  refine ⟨((List.finRange 14).erase k).flatMap fun j => v[j].buffer.chain, fun y => ?_⟩
  refine ((List.perm_cons_erase (List.mem_finRange k)).flatMap_right _).trans (.of_eq ?_)
  rw [List.flatMap_cons, get_set_same]
  refine congrArg _ (List.flatMap_congr fun j mem => ?_)
  rw [get_set_other _ _ _ _ ((List.nodup_finRange 14).mem_erase_iff.mp mem).1]

theorem Steady.of_source {k : SourceId} {y : Source} {s t : State} (sources : t.sources = s.sources.set k y)
    (sound : SourceSound s.sources[k] → SourceSound y) (sched : t.sched = s.sched)
    (cells : (t.pool.freeList ++ y.buffer.chain).Perm (s.pool.freeList ++ s.sources[k].buffer.chain)) : Steady s t where
  sources h j := by
    rw [sources, get_set_cases]
    split
    · exact sound (h k)
    · exact h j
  owned := by
    rintro ⟨owners, notices⟩
    refine ⟨List.Perm.trans ?_ owners, sched ▸ notices⟩
    obtain ⟨rest, apart⟩ := chains_perm k s.sources
    have before := apart s.sources[k]
    rw [show s.sources.set k s.sources[k] = s.sources from Vector.set_getElem_self k.isLt] at before
    unfold allCells
    rw [sources, sched]
    refine List.Perm.append_right _ ?_
    refine ((apart y).append_left _).trans (.trans ?_ (before.append_left _).symm)
    rw [← List.append_assoc, ← List.append_assoc]
    exact cells.append_right _

/-- A record written with the buffer it had. -/
theorem Steady.setSource {k : SourceId} {y : Source} {s : State} (buffer : y.buffer = s.sources[k].buffer)
    (sound : SourceSound s.sources[k] → SourceSound y) : Steady s (s.setSource k y) :=
  .of_source rfl sound rfl (by rw [buffer, setSource_pool])

/-- Work on source k alone that returns cells. -/
theorem Drained.steady {k : SourceId} {y : Source} {s t : State} (h : Drained k s t) (sources : t.sources = s.sources.set k y)
    (sound : SourceSound s.sources[k] → SourceSound y) (rest : t.offSources = s.offSources) : Steady s t := by
  obtain ⟨-, cells⟩ := h
  rw [sources, get_set_same] at cells
  exact .of_source sources sound (congrArg State.sched rest :) cells

theorem outputSource_steady (k : SourceId) (s : State) : Steady s (outputSource k s) :=
  (drained_outputSource k s).steady (outputSource_sources k s) sourceSound_marked (outputSource_offSources k s)

theorem enterRest_steady (st : SourceState) (k : SourceId) (s : State) : Steady s (enterRest st k s) :=
  (drained_enterRest st k s).steady (enterRest_sources st k s) (fun h => sourceSound_rested h st) (enterRest_offSources st k s)

theorem sourceOff_steady (k : SourceId) (s : State) : Steady s (sourceOff k s) := by
  unfold sourceOff
  split
  · exact .refl s
  · exact enterRest_steady .off k s

theorem sourceWaiting_steady (k : SourceId) (s : State) : Steady s (sourceWaiting k s) := by
  unfold sourceWaiting
  split
  · exact enterRest_steady .waiting k s
  · exact .refl s

/-- An arrival of a block's samples (R34, R43). -/
theorem arrival_steady (k : SourceId) (q : Option Byte) {xs : List Sample} (few : xs.length ≤ 1024) (s : State) :
    Steady s (arrival k q xs s) := by
  by_cases off : s.sources[k].state = .off
  · rw [arrival_off q xs off]
    exact .refl s
  obtain ⟨free, cells, u, appended, sources, worked⟩ := arrival_received q xs off
  have rest := arrival_offSources k q xs s
  rw [worked] at rest ⊢
  have record := arrivalProcessing_sources k u
  rw [sources, get_set_same, Vector.set_set] at record
  refine .of_source record (fun sound => ?_) (congrArg State.sched rest :) ?_
  · obtain ⟨-, laid, -⟩ := id sound
    refine sourceSound_arrival sound off ?_ q
    have borrowed := appended.borrowed
    rw [trimmed_eq_without laid] at borrowed ⊢
    refine bufferSound_grown (bufferSound_without laid _) xs free cells borrowed ?_
    rw [without_samples_length]
    have limit : s.sources[k].buffer.excess xs.length = s.sources[k].buffer.samples.length + xs.length - 1024 := rfl
    omega
  · rw [processed_buffer, began_buffer, arrivalProcessing_pool]
    exact appended.store

/-! ## Work on the notices -/

/-- The cells of the records, with one record's apart (R93). -/
theorem recordCells_perm {n : Scheduler} (h : TableSound n) {r : NoticeRecord} (mem : r ∈ n.records) :
    (n.records.flatMap NoticeRecord.cells).Perm (r.cells ++ (n.without r).records.flatMap NoticeRecord.cells) :=
  (records_perm_cons h.once mem).flatMap_right _

/-- A removed record's cells are free again (R39). -/
theorem removeNotice_steady {r : NoticeRecord} {s : State} (mem : r ∈ s.sched.records) : Steady s (removeNotice r s) where
  sources := id
  owned := by
    rintro ⟨owners, notices⟩
    obtain ⟨table, handle, -⟩ := (noticesSound_iff _).mp notices
    refine ⟨List.Perm.trans ?_ owners,
      noticesSound_of_table notices (tableSound_without table r) handle rfl⟩
    change ((s.pool.freeList ++ r.cells) ++ _ ++ (s.sched.without r).records.flatMap NoticeRecord.cells).Perm
      (s.pool.freeList ++ _ ++ s.sched.records.flatMap NoticeRecord.cells)
    refine List.Perm.trans ?_ ((recordCells_perm table mem).symm.append_left _)
    rw [← List.append_assoc]
    refine List.Perm.append_right _ ?_
    rw [List.append_assoc, List.append_assoc]
    exact List.perm_append_comm.append_left _

theorem expireOne_steady (m : Count) (h : Nat) (s : State) : Steady s (expireOne m h s) := by
  unfold expireOne
  split
  · next n found =>
    split
    · exact (removeNotice_steady (mem_of_notice? found).1).trans (.of_stores (raise_stores ..))
    · exact .refl s
  · exact .refl s

theorem afterPlacement_steady (m : Count) {r : NoticeRecord} {s : State} (mem : r ∈ s.sched.records) :
    Steady s (afterPlacement m r s) := by
  rcases afterPlacement_cases m r s with ⟨-, last⟩ | ⟨more, again⟩
  · rw [last]
    exact removeNotice_steady mem
  · rw [again]
    refine ⟨id, ?_⟩
    rintro ⟨owners, notices⟩
    obtain ⟨table, handle, -⟩ := (noticesSound_iff _).mp notices
    have counters : (s.sched.rotated r m).nextHandle = s.sched.nextHandle ∧ (s.sched.rotated r m).counters = s.sched.counters := by
      unfold Scheduler.rotated Scheduler.counters
      cases r.cls <;> exact ⟨rfl, rfl⟩
    have cells : (s.sched.rotated r m).records.flatMap NoticeRecord.cells = s.sched.records.flatMap NoticeRecord.cells := by
      rw [List.flatMap_def, List.flatMap_def, map_rotated table mem m NoticeRecord.cells rfl]
    refine ⟨?_, noticesSound_of_table notices (tableSound_rotated table mem more m) (counters.1 ▸ handle) counters.2⟩
    unfold CellsSound allCells
    rw [cells]
    exact owners

theorem scanOne_steady (m : Count) (c : NoticeClass) (p : Placement) (h : Nat) : Steady p.state (scanOne m c p h).state := by
  unfold scanOne
  split
  · exact .refl _
  · next n found =>
    split
    · exact .refl _
    · dsimp only
      split
      · exact .refl _
      · exact afterPlacement_steady m (mem_of_notice? found).1

/-- The late counter, its flag and its limit written, within their ranges. -/
theorem counters_steady {s : State} {c l : Nat} (b : Bool) (range : NoticesSound s.sched → (1 ≤ l ∧ l ≤ 255) ∧ c ≤ 254) :
    Steady s { s with sched := { s.sched with lateCounter := c, lateFlag := b, lateLimit := l } } := by
  refine ⟨id, ?_⟩
  rintro ⟨owners, notices⟩
  have bounds := range notices
  obtain ⟨few, once, sound, urgent, routine, handle, -, -⟩ := notices
  exact ⟨owners, few, once, sound, urgent, routine, handle, bounds⟩

/-- The late counter stays below its limit (R107). -/
theorem updateLate_steady (p : Placement) : Steady p.state (updateLate p) := by
  unfold updateLate
  dsimp only
  generalize (if p.routineEligible = true ∧ p.routinePlaced = false then p.state.sched.lateCounter + 1 else 0) = late
  split
  · refine counters_steady (c := 0) (l := p.state.sched.lateLimit) true fun notices => ?_
    obtain ⟨-, -, -, -, -, -, limit, -⟩ := notices
    exact ⟨limit, Nat.zero_le _⟩
  · next low =>
    refine counters_steady (c := late) (l := p.state.sched.lateLimit) p.state.sched.lateFlag fun notices => ?_
    obtain ⟨-, -, -, -, -, -, limit, -⟩ := notices
    exact ⟨limit, by omega⟩

/-- A placement keeps the laws (6.5). -/
theorem placeNotices_steady (m : Count) (capacity : Nat) (s : State) : Steady s (placeNotices m capacity s).1 := by
  have expired : Steady s (expireNotices m s) := .forEach (expireOne_steady m) _ s
  have lowered : Steady (expireNotices m s)
      { expireNotices m s with sched := { (expireNotices m s).sched with lateFlag := false } } :=
    counters_steady (c := (expireNotices m s).sched.lateCounter) (l := (expireNotices m s).sched.lateLimit) false fun notices => by
      obtain ⟨-, -, -, -, -, -, range⟩ := notices
      exact range
  have scanned := scans_keeps (fun p => Steady (expireNotices m s) p.state) m
    (fun cls p h kept => kept.trans (scanOne_steady m cls p h)) capacity (expireNotices m s) lowered
  rw [placeNotices_eq]
  exact (expired.trans scanned).trans (updateLate_steady _)

/-- Cells lent together to a record that joins the table (R36, R38, R97). -/
theorem lent_insert_steady {m : Nat} {r : NoticeRecord} {s : State}
    (cells : r.cells = s.pool.freeList.take m) (room : s.sched.records.length < 64)
    (joins : NoticesSound s.sched → r.handle ∉ s.sched.records.map NoticeRecord.handle ∧ NoticeSound r) :
    Steady s (insertNotice r { s with pool := s.pool.lent (s.pool.freeList.drop m) }) where
  sources := id
  owned := by
    rintro ⟨owners, notices⟩
    obtain ⟨new, sound⟩ := joins notices
    obtain ⟨table, -⟩ := (noticesSound_iff _).mp notices
    have counters : (s.sched.inserted r).counters = s.sched.counters := by
      unfold Scheduler.inserted Scheduler.counters
      cases r.cls <;> rfl
    refine ⟨List.Perm.trans ?_ owners,
      noticesSound_of_table notices (tableSound_inserted table room new sound) (handleAfter_range _) counters⟩
    change (s.pool.freeList.drop m ++ _ ++ (s.sched.records ++ [r]).flatMap NoticeRecord.cells).Perm (s.pool.freeList ++ _ ++ _)
    rw [List.flatMap_append, List.flatMap_singleton, cells, ← List.append_assoc]
    refine List.perm_append_comm.trans (.of_eq ?_)
    rw [← List.append_assoc, ← List.append_assoc, List.take_append_drop]
    rfl

end Sys2Proof.Machine
end

section
/-! PROOF. Every step keeps the laws of the sources and the ownership of the cells. -/

namespace Sys2Proof.Machine

/-! ## Requests -/

theorem setSource_settings_steady (k : SourceId) {c : SourceSettings} (sound : SettingsSound c) (s : State) :
    Steady s (s.setSource k { s.sources[k] with settings := c }) := by
  refine .setSource rfl fun h => ?_
  obtain ⟨⟨f, acc, r, fixed, history, depth, counter, lol, run, age, -⟩, holds⟩ := h
  exact ⟨⟨f, acc, r, fixed, history, depth, counter, lol, run, age, sound⟩, holds⟩

theorem setLol_steady (k : SourceId) {n : Nat} (small : n ≤ 15) (s : State) : Steady s (setLol k n s) := by
  have written : Steady s (s.setSource k { s.sources[k] with lol := n }) := by
    refine .setSource rfl fun h => ?_
    obtain ⟨⟨f, acc, r, fixed, history, depth, counter, -, run, age, settings⟩, holds⟩ := h
    exact ⟨⟨f, acc, r, fixed, history, depth, counter, small, run, age, settings⟩, holds⟩
  unfold setLol
  dsimp only
  split
  · exact written.trans (.of_stores (raise_stores ..))
  · exact written

theorem setLine_steady (k : SourceId) (on : Bool) (s : State) : Steady s (setLine k on s) := by
  have written : Steady s (s.setSource k { s.sources[k] with line := on }) := .setSource rfl id
  unfold setLine
  dsimp only
  (repeat' split)
  · exact written.trans (sourceWaiting_steady ..)
  · exact written
  · exact written.trans (sourceOff_steady ..)

theorem takeSourceConfig_steady (body : List Byte) (s : State) : Steady s (takeSourceConfig body s).1 := by
  unfold takeSourceConfig
  split
  · exact .refl s
  · next k _ =>
    have written := setSource_settings_steady k (settingsSound_settingsOf body) s
    dsimp only
    split
    · exact written.trans (.of_stores (raise_stores ..))
    · exact written

theorem takeSourceMode_steady (body : List Byte) (s : State) : Steady s (takeSourceMode body s).1 := by
  unfold takeSourceMode
  split
  · exact .refl s
  · next k _ =>
    dsimp only
    generalize (if field8 body 1 = 0 then RateMode.auto else .fixed) = mode
    have stored : Steady s (s.setSource k (s.sources[k].withRate mode (clampInt (-8192) 8192 (fieldInt16 body 2)))) := by
      rw [withRate_eq_rated]
      exact .setSource (rated_buffer ..) fun h => sourceSound_rated h mode (within_band (by decide) _)
    split
    · exact .refl s
    · split
      · exact .refl s
      · split
        · exact stored.trans (setLine_steady ..)
        · exact stored

theorem takeSourceMute_steady (body : List Byte) (s : State) : Steady s (takeSourceMute body s).1 := by
  unfold takeSourceMute
  split
  · exact .refl s
  · dsimp only
    split
    · exact .refl s
    · exact .setSource rfl id

theorem takeSourceLolSet_steady (body : List Byte) (s : State) : Steady s (takeSourceLolSet body s).1 := by
  unfold takeSourceLolSet
  split
  · exact .refl s
  · exact setLol_steady _ (Nat.min_le_left ..) s

theorem takeAirStart_steady (body : List Byte) (s : State) : Steady s (takeAirStart body s).1 := by
  unfold takeAirStart
  split
  · exact .refl s
  · split
    · exact .refl s
    · have running : Steady s { s with air := { s.air with running := true } } := .of_stores rfl
      exact (running.trans (.forEach sourceWaiting_steady _ _)).trans (.of_stores rfl)

theorem takePoolStatus_steady (body : List Byte) (s : State) : Steady s (takePoolStatus body s).1 := by
  unfold takePoolStatus
  dsimp only
  (repeat' split) <;> exact ⟨id, id⟩

theorem noticeSound_newNotice {body : List Byte} (length : noticePostLength body = true) (cls : NoticeClass)
    (kind : NoticeKind) (t : TargetType)
    {cells : List CellId} (enough : cells.length = cellsNeeded (field8 body 12)) {handle : Nat} (range : 1 ≤ handle ∧ handle ≤ 65535)
    (p : Count) : NoticeSound (newNotice body cls kind t cells handle p) := by
  obtain ⟨-, size⟩ := of_decide_eq_true length
  have byte : field8 body 9 < 256 := (body.getD 9 0).isLt
  have payload : (body.drop 13).length = field8 body 12 := by
    rw [List.length_drop]
    omega
  unfold newNotice clamp
  refine ⟨range, ?_, ?_, ?_, ?_⟩
  · dsimp only
    omega
  · dsimp only
    omega
  · dsimp only
    omega
  · dsimp only
    rw [payload, enough]

/-- A posting takes a free handle and free cells for its record (R94, R97, R98). -/
theorem takeNoticePost_steady (body : List Byte) (length : noticePostLength body = true) (s : State) :
    Steady s (takeNoticePost body s).1 := by
  unfold takeNoticePost
  split
  · next cls kind t _ _ _ =>
    split
    · exact .refl s
    · split
      · exact .refl s
      · next room =>
        split
        · exact .refl s
        · split
          · exact .refl s
          · split
            · exact .refl s
            · next cells s1 lent =>
              rcases lendNotice_cases (cellsNeeded (field8 body 12)) s with ⟨enough, given⟩ | ⟨-, none⟩
              · rw [given, Option.some.injEq, Prod.mk.injEq] at lent
                obtain ⟨taken, rfl⟩ := lent
                refine Steady.trans (lent_insert_steady taken.symm (Nat.lt_of_not_le room) fun notices => ?_)
                  (.of_stores (retuneEffect_stores ..))
                obtain ⟨-, -, -, -, -, next, -⟩ := notices
                obtain ⟨range, free⟩ := assignHandle_free s next (Nat.lt_of_not_le room)
                have size : cells.length = cellsNeeded (field8 body 12) := by
                  rw [← taken]
                  exact List.length_take_of_le (Nat.le_of_add_right_le enough)
                exact ⟨free, noticeSound_newNotice length cls kind t size range s.air.count⟩
              · rw [none] at lent
                exact absurd lent nofun
  · exact .refl s

theorem takeNoticeCancel_steady (body : List Byte) (s : State) : Steady s (takeNoticeCancel body s).1 := by
  unfold takeNoticeCancel
  split
  · exact .refl s
  · next n found => exact removeNotice_steady (mem_of_notice? found).1

theorem takeSchedConfig_steady (body : List Byte) (s : State) : Steady s (takeSchedConfig body s).1 := by
  unfold takeSchedConfig
  dsimp only
  split
  · exact .refl s
  · refine counters_steady (c := s.sched.lateCounter) (l := max 1 (field8 body 0)) s.sched.lateFlag fun notices => ?_
    obtain ⟨-, -, -, -, -, -, -, counter⟩ := notices
    have byte : field8 body 0 < 256 := (body.getD 0 0).isLt
    exact ⟨by omega, counter⟩

/-- An owner's work on a request of an allowed length. -/
theorem take_steady (k : RequestKind) (body : List Byte) (length : k.lengthOk body = true) (s : State) : Steady s (k.take body s).1 := by
  cases k with
  | identify | softReset | airStatus => exact .of_stores rfl
  | airStart => exact takeAirStart_steady body s
  | airStop => exact .of_stores (takeAirStop_stores body s)
  | sourceConfig => exact takeSourceConfig_steady body s
  | sourceMode => exact takeSourceMode_steady body s
  | sourceMute => exact takeSourceMute_steady body s
  | sourceStatus => exact .of_stores (takeSourceStatus_stores body s)
  | sourceLolSet => exact takeSourceLolSet_steady body s
  | channelStage => exact .of_stores (takeChannelStage_stores body s)
  | channelApply => exact .of_stores (takeChannelApply_stores body s)
  | channelClose => exact .of_stores (takeChannelClose_stores body s)
  | channelStatus => exact .of_stores (takeChannelStatus_stores body s)
  | noticePost => exact takeNoticePost_steady body length s
  | noticeCancel => exact takeNoticeCancel_steady body s
  | noticeStatus => exact .of_stores (takeNoticeStatus_stores body s)
  | schedConfig => exact takeSchedConfig_steady body s
  | poolStatus => exact takePoolStatus_steady body s
  | rackDefine => exact .of_stores (takeRackDefine_stores body s)
  | rackRemove => exact .of_stores (takeRackRemove_stores body s)
  | rackBudget => exact .of_stores (takeRackBudget_stores body s)
  | chargeConfig => exact .of_stores (takeChargeConfig_stores body s)
  | slotStatus => exact .of_stores (takeSlotStatus_stores body s)
  | slotClearFault => exact .of_stores (takeSlotClearFault_stores body s)
  | deviceRead => exact .of_stores (takeDeviceRead_stores body s)
  | deviceForget => exact .of_stores (takeDeviceForget_stores body s)
  | groupOpen => exact .of_stores (takeGroupOpen_stores body s)
  | groupClose => exact .of_stores (takeGroupClose_stores body s)
  | groupStatus => exact .of_stores (takeGroupStatus_stores body s)
  | issue => exact .of_stores (takeIssue_stores body s)
  | issueCancel => exact .of_stores (takeIssueCancel_stores body s)
  | issueStatus => exact .of_stores (takeIssueStatus_stores body s)
  | eventRead => exact .of_stores (takeEventRead_stores body s)
  | eventClear => exact .of_stores (takeEventClear_stores body s)
  | eventSet => exact .of_stores (takeEventSet_stores body s)
  | eventEnable => exact .of_stores (takeEventEnable_stores body s)
  | eventDisable => exact .of_stores (takeEventDisable_stores body s)

theorem judged_steady (k : RequestKind) (body : List Byte) (s : State) : Steady s (judged k.lengthOk k.take body s).1 := by
  unfold judged
  split
  · next length => exact take_steady k body length s
  · exact .refl s

theorem serveWith_steady (kind tag : Byte) {owner : State → Answer} (h : ∀ s, Steady s (owner s).1) (s : State) :
    Steady s (serveWith kind tag owner s) :=
  (Steady.of_stores (addOutbound_stores .reserved s)).trans ((h _).trans (.of_stores rfl))

theorem submit_steady (k : RequestKind) (tag : Byte) (body : List Byte) (s : State) :
    Steady s (submit k.code k.lengthOk k.take tag body s) := by
  rcases submit_cases k tag body s with ⟨-, -, -, served⟩ | ⟨-, placed⟩
  · rw [served]
    exact serveWith_steady _ _ (judged_steady k body) s
  · rw [placed]
    exact .of_stores (placeGoodFrame_stores ..)

theorem answerFrame_steady (f : Frame) (s : State) : Steady s (answerFrame f s).1 := by
  unfold answerFrame
  split
  · exact .refl s
  · exact judged_steady _ _ s

/-! ## The exchanges that tell a source -/

theorem bindRoster_steady (k : RosterId) (d : DeviceId) (s : State) : Steady s (bindRoster k d s) := by
  have bound : Steady s (s.setRoster k (.bound d)) := .of_stores rfl
  unfold bindRoster
  dsimp only
  split
  · exact bound.trans (sourceWaiting_steady ..)
  · exact bound

theorem unbindRoster_steady (k : RosterId) (s : State) : Steady s (unbindRoster k s) :=
  (Steady.of_stores (setRoster_stores k .free s)).trans (sourceOff_steady ..)

theorem returnDevice_steady (d : Device) (a : SlotAddr) (l : Nat) (s : State) : Steady s (returnDevice d a l s) := by
  unfold returnDevice
  split
  · exact .of_stores rfl
  · extract_lets g x counted told docked
    have group : Steady s counted := .of_stores rfl
    have source : Steady s told := by
      unfold told
      split
      · exact group.trans (unbindRoster_steady ..)
      · exact group
    refine source.trans (.of_stores ?_)
    rw [closeIfEmpty_stores, raise_stores]
    rfl

theorem issueDevice_steady (g : GroupId) (o : IssueOperation) (a : SlotAddr) (d : DeviceId) (s : State) :
    Steady s (issueDevice g o a d s) := by
  unfold issueDevice
  extract_lets c tuned s1 s2 x s3 released
  have records : Steady s released := .of_stores rfl
  split
  · exact records.trans (bindRoster_steady ..)
  · exact records

theorem releaseAnswered_steady (a : SlotAddr) (s : State) : Steady s (releaseAnswered a s) := by
  unfold releaseAnswered
  split
  · exact .refl s
  · next g _ =>
    split
    · next o id _ _ =>
      have issued := issueDevice_steady g o a id s
      dsimp only
      split
      · exact issued.trans (.of_stores (completeOp_stores ..))
      · exact issued.trans (.of_stores (nextOrComplete_stores ..))
    · exact .refl s

theorem probeOutcome_steady (a : SlotAddr) (d : DeviceId) (k : DeviceKind) (l : Nat) (s : State) : Steady s (probeOutcome a d k l s) := by
  unfold probeOutcome
  split
  · split
    · exact .of_stores (by rw [enterCharging_stores, occupySlot_stores]; rfl)
    · exact .of_stores (by rw [raise_stores, enterFault_stores, modSlot_stores])
  · split
    · exact (returnDevice_steady ..).trans (.of_stores (by rw [enterCharging_stores, requestClear_stores, occupySlot_stores]))
    · exact .of_stores (by rw [enterCharging_stores, occupySlot_stores, modDevice_stores])

theorem probeComplete_steady (a : SlotAddr) (p : List Byte) (s : State) : Steady s (probeComplete a p s) := by
  have faulted : Steady s (enterFault a .device (s.modSlot a (fun x => { x with deviceId := none }))) :=
    .of_stores (by rw [enterFault_stores, modSlot_stores])
  unfold probeComplete
  dsimp only
  split
  · exact faulted
  · split
    · exact faulted
    · refine Steady.trans ?_ (probeOutcome_steady ..)
      split
      · exact .of_stores (emptySlot_stores ..)
      · exact .refl s

theorem complete_steady (e : Exchange) (p : List Byte) (s : State) : Steady s (complete e p s) := by
  cases e with
  | scan r => exact .of_stores (scanComplete_stores r p s)
  | probe a => exact (Steady.of_stores (setTimeouts_stores a 0 s)).trans (probeComplete_steady ..)
  | poll a => exact .of_stores (by rw [complete, pollComplete_stores, setTimeouts_stores])
  | setCharge a m => exact .of_stores (by rw [complete, storeLevel_stores, setTimeouts_stores])
  | tune a c g o => exact .of_stores (by rw [complete, tuneAnswered_stores, storeLevel_stores, setTimeouts_stores])
  | release a =>
    exact (Steady.of_stores (by rw [storeLevel_stores, setTimeouts_stores])).trans (releaseAnswered_steady ..)
  | clear a d => exact .of_stores rfl

/-! ## The air -/

/-- A block has at most 168 samples where it counts (R31). -/
theorem takeUplinkBlock_steady (k : RosterId) (b : UplinkBlock) (good : Bool) (s : State) : Steady s (takeUplinkBlock k b good s) := by
  by_cases counted : good = true ∧ 152 ≤ b.samples.length ∧ b.samples.length ≤ 168
  · obtain ⟨rfl, few, many⟩ := counted
    rw [takeUplinkBlock, judge_counted few many]
    split
    · next judged =>
      split at judged
      · exact .refl s
      · exact .refl s
    · exact .of_stores (raise_stores ..)
    · exact .refl s
    · exact arrival_steady _ _ (by omega) s
  · have absent : good = false ∨ b.samples.length < 152 ∨ 168 < b.samples.length := by
      by_contra counts
      simp only [not_or, Bool.not_eq_false, not_lt] at counts
      exact counted counts
    rw [takeUplinkBlock, judge_absent absent]
    exact .refl s

theorem stopAir_steady (reason : StopReason) (order : List ChannelId) (s : State) : Steady s (stopAir reason order s) := by
  have begun : Steady s (airStopped reason s) := .of_stores rfl
  have off : Steady (airStopped reason s) (sourcesOff (airStopped reason s)) := .forEach sourceOff_steady _ _
  exact (begun.trans off).trans (.of_stores (forEach_stores stopChannel_stores (fullOrder order) _))

theorem buildImage_steady (s : State) : Steady s (buildImage s) :=
  (placeNotices_steady (s.air.count + 1) (noticeCapacity s) s).trans (.of_stores rfl)

/-! ## The resets -/

theorem hardReset_owned (rate : LineRate) (ready : Bool) : Owned (State.hardReset rate ready) := by
  refine ⟨.of_eq (hardReset_cells rate ready), ?_⟩
  simp [NoticesSound, State.hardReset, Scheduler.initial]

theorem sourceSound_softReset {x : Source} (h : SourceSound x) : SourceSound x.softReset := by
  obtain ⟨⟨f, acc, r, fixed, history, depth, counter, -, run, age, settings⟩, holds⟩ := sourceSound_rested h .off
  exact ⟨⟨f, acc, r, fixed, history, depth, counter, Nat.zero_le _, run, age, settings⟩, holds⟩

/-- A soft reset gives every cell back, and keeps late_limit (R48, R113). -/
theorem softReset_steady (s : State) : Steady s (softReset s) := by
  unfold softReset
  refine Steady.trans ?_ (.of_stores (scanAll_stores _))
  refine ⟨fun sound k => ?_, ?_⟩
  · dsimp only
    rw [mapAll_get]
    exact sourceSound_softReset (sound k)
  · rintro ⟨-, notices⟩
    obtain ⟨-, -, -, -, -, -, limit, -⟩ := notices
    constructor
    · have buffers : ((List.finRange 14).flatMap fun k : SourceId => (mapAll Source.softReset s.sources)[k].buffer.chain) = [] :=
        List.flatMap_eq_nil_iff.mpr fun k _ => by
          rw [mapAll_get]
          rfl
      unfold CellsSound allCells
      dsimp only
      rw [buffers, initial_freeList]
      simp [Scheduler.initial]
    · exact ⟨Nat.zero_le _, List.nodup_nil, nofun, .refl _, .refl _, show 1 ≤ 1 ∧ 1 ≤ 65535 by decide, limit, Nat.zero_le _⟩

/-! ## Every command, and every step -/

theorem exchangeStart_stores {s t : State} (h : exec .exchangeStart s = .next t) : t.stores = s.stores := by
  change execExchangeStart s = _ at h
  unfold execExchangeStart at h
  split at h
  · injection h with h
    exact h ▸ rfl
  · injection h with h
    exact h ▸ rfl

theorem exchangeAnswer_stores {bytes : List Byte} {s t : State} (h : exec (.exchangeAnswer bytes) s = .next t) : t.stores = s.stores := by
  change execExchangeAnswer bytes s = _ at h
  unfold execExchangeAnswer at h
  split at h
  · split at h
    · injection h with h
      exact h ▸ rfl
    · injection h with h
      exact h ▸ rfl
  · injection h with h
    exact h ▸ rfl

theorem exchangeComplete_steady {s t : State} (h : exec .exchangeComplete s = .next t) : Steady s t := by
  change execExchangeComplete s = _ at h
  unfold execExchangeComplete at h
  split at h
  · injection h with h
    exact h ▸ .refl s
  · split at h
    · injection h with h
      exact h ▸ .refl s
    · injection h with h
      rw [← h]
      split
      · exact .of_stores (by rw [deliverDiscarded_stores, freeBus_stores])
      · exact (Steady.of_stores (freeBus_stores s)).trans (complete_steady ..)

theorem exchangeTimeout_stores {s t : State} (h : exec .exchangeTimeout s = .next t) : t.stores = s.stores := by
  change execExchangeTimeout s = _ at h
  unfold execExchangeTimeout at h
  (repeat' split at h) <;> injection h with h <;> rw [← h]
  · exact (deliverDiscarded_stores ..).trans (freeBus_stores s)
  · exact (scanTimeout_stores ..).trans (freeBus_stores s)
  · exact (slotTimeout_stores ..).trans (freeBus_stores s)
  · exact freeBus_stores s

theorem pollTimerExpiry_stores {a : SlotAddr} {s t : State} (h : exec (.pollTimerExpiry a) s = .next t) : t.stores = s.stores := by
  change execPollTimerExpiry a s = _ at h
  unfold execPollTimerExpiry at h
  (repeat' split at h) <;> injection h with h <;> rw [← h]
  · rw [requestSetCharge_stores, modSlot_stores, ask_stores, modSlot_stores]
  · rw [ask_stores, modSlot_stores]

theorem request_steady (k : RequestKind) (tag : Byte) (body : List Byte) {s t : State} (h : exec (k.command tag body) s = .next t) :
    Steady s t := by
  rw [exec_command] at h
  injection h with h
  exact h ▸ submit_steady k tag body s

theorem requestService_steady {s t : State} (h : exec .requestService s = .next t) : Steady s t := by
  rcases requestService_cases s with waits | ⟨f, rest, -, -, serves⟩
  · rw [waits] at h
    injection h with h
    exact h ▸ .refl s
  · rw [serves] at h
    injection h with h
    rw [← h]
    exact (serveWith_steady f.kind f.tag (answerFrame_steady f) s).trans (.of_stores rfl)

theorem Steady.of_next {s t u : State} (h : Steady s u) (same : (.next u : Host.Outcome State Fault Refusal) = .next t) : Steady s t := by
  injection same with same
  exact same ▸ h

/-- Every command keeps the laws of the sources and of the cells. -/
theorem exec_steady (c : Instr) {s t : State} (h : exec c s = .next t) : Steady s t := by
  cases c
  case hardReset rate1 rate0 ready =>
    refine Steady.of_next ⟨fun _ => ?_, fun _ => ?_⟩ h
    · exact hardReset_sourcesSound (rateOf rate1 rate0) ready
    · exact hardReset_owned (rateOf rate1 rate0) ready
  case frameReceive chars =>
    exact .of_next (.of_stores (forEach_stores (fun c s => received_stores (receiveChar_received c s)) chars s)) h
  case gapExpiry =>
    refine .of_next ?_ h
    split
    · exact .of_stores (received_stores (.bad 2))
    · exact .refl s
  case requestService => exact requestService_steady h
  case frameTransmitted =>
    change execFrameTransmitted s = _ at h
    unfold execFrameTransmitted at h
    split at h
    · refine .of_next ?_ h
      exact .of_stores rfl
    · exact .of_next (.refl s) h
  case softResetPerform =>
    refine .of_next ?_ h
    split
    · exact softReset_steady s
    · exact .refl s
  case superframeStart =>
    refine .of_next ?_ h
    split
    · exact .of_stores rfl
    · exact .refl s
  case downlinkSlot slot =>
    change execDownlinkSlot slot s = _ at h
    unfold execDownlinkSlot at h
    split at h
    · refine .of_next ?_ h
      exact .of_stores rfl
    · exact .of_next (.refl s) h
  case uplinkBlockDelivery k bytes good =>
    change execUplinkBlockDelivery k bytes good s = _ at h
    unfold execUplinkBlockDelivery at h
    split at h
    · refine .of_next ?_ h
      have placed : Steady s (s.pastSlot k) := .of_stores rfl
      split
      · exact placed.trans (takeUplinkBlock_steady ..)
      · exact placed
    · exact .of_next (.refl s) h
  case lineBlockDelivery l v =>
    change execLineBlockDelivery l v s = _ at h
    unfold execLineBlockDelivery at h
    split at h
    · refine .of_next (Steady.trans (t := takeLine l s) (.of_stores rfl) (arrival_steady _ _ ?_ _)) h
      rw [Vector.length_toList]
      decide
    · exact .of_next (.refl s) h
  case outputMark order =>
    change execOutputMark order s = _ at h
    unfold execOutputMark at h
    split at h
    · exact .of_next (Steady.trans (t := s.pastOutput) (.of_stores rfl) (.forEach outputSource_steady _ _)) h
    · exact .of_next (.refl s) h
  case reviewMark order =>
    change execReviewMark order s = _ at h
    unfold execReviewMark at h
    split at h
    · refine .of_next ?_ h
      exact .of_stores ((forEach_stores reviewChannel_stores _ _).trans rfl)
    · exact .of_next (.refl s) h
  case buildMark order =>
    change execBuildMark order s = _ at h
    unfold execBuildMark at h
    split at h
    · refine .of_next ?_ h
      split
      · exact stopAir_steady ..
      · exact buildImage_steady s
    · exact .of_next (.refl s) h
  case readyLineFall order =>
    refine .of_next ?_ h
    have fell : Steady s (fallen s) := .of_stores rfl
    split
    · exact (fell.trans (stopAir_steady .readyLost order _)).trans (.of_stores (raise_stores ..))
    · exact .of_stores rfl
  case readyLineRise =>
    refine .of_next ?_ h
    exact .of_stores rfl
  case exchangeStart => exact .of_stores (exchangeStart_stores h)
  case exchangeAnswer => exact .of_stores (exchangeAnswer_stores h)
  case exchangeComplete => exact exchangeComplete_steady h
  case exchangeTimeout => exact .of_stores (exchangeTimeout_stores h)
  case scanTimerExpiry r =>
    change execScanTimerExpiry r s = _ at h
    unfold execScanTimerExpiry at h
    split at h
    · refine .of_next ?_ h
      split
      · exact .of_stores (ask_stores ..)
      · exact .refl s
    · exact .of_next (.refl s) h
  case attentionFall => exact .of_next (.of_stores (scanAll_stores s)) h
  case pollTimerExpiry => exact .of_stores (pollTimerExpiry_stores h)
  case identify => exact request_steady .identify _ _ h
  case softReset => exact request_steady .softReset _ _ h
  case airStart => exact request_steady .airStart _ _ h
  case airStop => exact request_steady .airStop _ _ h
  case airStatus => exact request_steady .airStatus _ _ h
  case poolStatus => exact request_steady .poolStatus _ _ h
  case sourceConfig => exact request_steady .sourceConfig _ _ h
  case sourceMode => exact request_steady .sourceMode _ _ h
  case sourceMute => exact request_steady .sourceMute _ _ h
  case sourceStatus => exact request_steady .sourceStatus _ _ h
  case sourceLolSet => exact request_steady .sourceLolSet _ _ h
  case channelStage => exact request_steady .channelStage _ _ h
  case channelApply => exact request_steady .channelApply _ _ h
  case channelClose => exact request_steady .channelClose _ _ h
  case channelStatus => exact request_steady .channelStatus _ _ h
  case noticePost => exact request_steady .noticePost _ _ h
  case noticeCancel => exact request_steady .noticeCancel _ _ h
  case noticeStatus => exact request_steady .noticeStatus _ _ h
  case schedConfig => exact request_steady .schedConfig _ _ h
  case rackDefine => exact request_steady .rackDefine _ _ h
  case rackRemove => exact request_steady .rackRemove _ _ h
  case slotStatus => exact request_steady .slotStatus _ _ h
  case slotClearFault => exact request_steady .slotClearFault _ _ h
  case rackBudget => exact request_steady .rackBudget _ _ h
  case chargeConfig => exact request_steady .chargeConfig _ _ h
  case deviceRead => exact request_steady .deviceRead _ _ h
  case deviceForget => exact request_steady .deviceForget _ _ h
  case groupOpen => exact request_steady .groupOpen _ _ h
  case groupClose => exact request_steady .groupClose _ _ h
  case groupStatus => exact request_steady .groupStatus _ _ h
  case issue => exact request_steady .issue _ _ h
  case issueCancel => exact request_steady .issueCancel _ _ h
  case issueStatus => exact request_steady .issueStatus _ _ h
  case eventRead => exact request_steady .eventRead _ _ h
  case eventClear => exact request_steady .eventClear _ _ h
  case eventSet => exact request_steady .eventSet _ _ h
  case eventEnable => exact request_steady .eventEnable _ _ h
  case eventDisable => exact request_steady .eventDisable _ _ h

theorem step_steady {s t : State} (h : step s = .next t) : Steady s t := by
  unfold step at h
  split at h
  · exact .of_next (.refl s) h
  · next c rest _ => exact Steady.trans (t := { s with pending := rest }) (.of_stores rfl) (exec_steady c h)

/-- Settles O4: every change of a source's record keeps its numbers in their ranges and its buffer laid out. -/
theorem sourceRangesKept : Obligations.SourceRangesKept := fun _ _ sound h => (step_steady h).sources sound

/-- Settles O5: cells go between the free list, the buffers and the records, and handles between the table and the queues. -/
theorem cellOwnershipKept : Obligations.CellOwnershipKept := fun _ _ owners notices h => (step_steady h).owned ⟨owners, notices⟩

end Sys2Proof.Machine
end

section
/-! PROOF. The OUTPUT mark for a source that finds no arrival: at rest, in prefill, into HOLDOVER and through it, and lost. -/

namespace Sys2Proof.Machine

/-! ## The reports of HOLDOVER and of a loss -/

theorem markReport_holdover (k : SourceId) (x : Source) :
    markReport k x 5 = if EntersHoldover x then some (k.val, BitVec.ofInt 32 (meanOfHistory x)) else none := by
  simp [markReport, Report.andThen, Report.when_apply, Report.one_same, Report.one_other]

theorem markReport_lost (k : SourceId) (x : Source) :
    markReport k x 6 = if lossCause x ≠ 0 then some (k.val, BitVec.ofNat 32 (lossCause x)) else none := by
  simp [markReport, Report.andThen, Report.when_apply, Report.one_same, Report.one_other]

/-- A kind that some source raises at a mark is set after it. -/
theorem ReportedBy.raw {e : EventId} {raises : SourceId → Prop} {detail : SourceId → BitVec 32} {s t : State}
    (h : ReportedBy e raises detail s t) {k : SourceId} (raised : raises k) : (t.events[e]).raw = true := by
  obtain ⟨_, _, raw, _⟩ := h.1 ⟨k, raised⟩
  exact raw

/-- A taken mark: every source's record, and what it leaves of SOURCE_HOLDOVER and of SOURCE_LOST. -/
theorem outputMark_reports (order : List SourceId) {s : State} (running : s.air.running = true) (due : s.air.due ≤ 36) :
    ∃ t, exec (.outputMark order) s = .next t ∧
      ReportedBy 5 (fun k => EntersHoldover s.sources[k]) (fun k => BitVec.ofInt 32 (meanOfHistory s.sources[k])) s t ∧
      ReportedBy 6 (fun k => lossCause s.sources[k] ≠ 0) (fun k => BitVec.ofNat 32 (lossCause s.sources[k])) s t ∧
      ∀ k : SourceId, t.sources[k] = s.sources[k].marked := by
  obtain ⟨-, -, kinds⟩ := (forEach_reports outputSource_sources outputSource_reports (fullOrder order) (fullOrder_nodup order)
    s.pastOutput).of_place rfl
  exact ⟨_, outputMark_taken order running due,
    reportedBy_each (mem_fullOrder order) (fun k => markReport_holdover k s.sources[k]) (kinds 5),
    reportedBy_each (mem_fullOrder order) (fun k => markReport_lost k s.sources[k]) (kinds 6),
    outputMark_get order s.pastOutput⟩

/-! ## The records -/

section
variable {x : Source}

theorem marked_rest (rest : x.state = .off ∨ x.state = .waiting) : x.marked = { x with blockArrived := false } := by
  have idle : x.markWorked = x := by
    unfold Source.markWorked
    rcases rest with h | h <;> rw [h]
  rw [Source.marked, idle]

/-- A mark in prefill is the work of R53. -/
theorem markWorked_prefill (prefill : x.prefill = true) (state : x.state = .acquire ∨ x.state = .fixed) :
    x.markWorked = x.prefillMarked := by
  unfold Source.markWorked
  rcases state with h | h <;> simp [h, prefill]

theorem marked_prefill_silent (prefill : x.prefill = true) (state : x.state = .acquire ∨ x.state = .fixed)
    (within : x.markedAge < x.settings.lostLimit) :
    x.marked = { x with age := x.markedAge, block := .silence, blockArrived := false } := by
  rw [Source.marked, markWorked_prefill prefill state, Source.prefillMarked, if_neg (Nat.not_le.mpr within)]

theorem marked_prefill_lost (prefill : x.prefill = true) (state : x.state = .acquire ∨ x.state = .fixed)
    (limit : x.settings.lostLimit ≤ x.markedAge) : x.marked = x.rested .waiting := by
  rw [Source.marked, markWorked_prefill prefill state, Source.prefillMarked, if_pos limit]
  rfl

theorem marked_fixed_lost (prefill : x.prefill = false) (state : x.state = .fixed) (missing : x.blockArrived = false)
    (limit : x.settings.lostLimit ≤ x.markedAge) : x.marked = x.rested .waiting := by
  have fixed : x.markWorked = x.fixedMarked := by
    unfold Source.markWorked
    simp [state, prefill]
  rw [Source.marked, fixed, Source.fixedMarked, if_pos ⟨missing, limit⟩]
  rfl

/-- The entry to HOLDOVER, with its output (R58, R62). -/
theorem marked_entering (enters : EntersHoldover x) : x.marked = produced (held x) := by
  obtain ⟨missing, state⟩ := enters
  have worked : x.markWorked = (held x).output := by
    unfold Source.markWorked Source.trackingMarked
    rcases state with h | ⟨h, prefill⟩ <;> simp [*]
  rw [Source.marked, worked]
  rfl

theorem markWorked_holdover (state : x.state = .holdover) : x.markWorked = x.holdoverMarked := by
  unfold Source.markWorked
  rw [state]

theorem marked_holdover_produces (state : x.state = .holdover) (within : x.age + 1 < x.settings.lostLimit) :
    x.marked = produced { x with age := x.age + 1 } := by
  rw [Source.marked, markWorked_holdover state, Source.holdoverMarked, if_neg (Nat.not_le.mpr within)]
  rfl

theorem marked_holdover_lost (state : x.state = .holdover) (limit : x.settings.lostLimit ≤ x.age + 1) :
    x.marked = x.rested .waiting := by
  rw [Source.marked, markWorked_holdover state, Source.holdoverMarked, if_pos limit]
  rfl

/-! ## The causes of a loss -/

theorem lossCause_prefill (prefill : x.prefill = true) (state : x.state = .acquire ∨ x.state = .fixed)
    (limit : x.settings.lostLimit ≤ x.markedAge) : lossCause x = 1 := if_pos ⟨prefill, state, limit⟩

theorem lossCause_holdover (state : x.state = .holdover) (limit : x.settings.lostLimit ≤ x.age + 1) : lossCause x = 2 := by
  simp [lossCause, state, limit]

theorem lossCause_fixed (prefill : x.prefill = false) (state : x.state = .fixed) (missing : x.blockArrived = false)
    (limit : x.settings.lostLimit ≤ x.markedAge) : lossCause x = 3 := by
  simp only [Source.markedAge, missing, Bool.false_eq_true, if_false] at limit
  simp [lossCause, prefill, state, missing, limit]

end

/-! ## The claims -/

/-- Settles O34: the entry to HOLDOVER and the two ends of a mark in HOLDOVER, each with its report. -/
theorem holdoverAtTheMark : Obligations.HoldoverAtTheMark := by
  intro order s running due
  obtain ⟨t, taken, holdovers, losses, records⟩ := outputMark_reports order running due
  refine ⟨t, taken, holdovers, losses, fun k prefill missing => ⟨fun state => ?_, fun state within => ?_, fun state limit => ?_⟩⟩
  · have enters : EntersHoldover s.sources[k] := ⟨missing, state.symm.imp_right fun acquire => ⟨acquire, prefill⟩⟩
    exact ⟨(records k).trans (marked_entering enters), holdovers.raw enters⟩
  · exact (records k).trans (marked_holdover_produces state within)
  · have lost : lossCause s.sources[k] ≠ 0 := ne_of_eq_of_ne (lossCause_holdover state limit) (by decide)
    exact ⟨(records k).trans (marked_holdover_lost state limit), losses.raw lost⟩

/-- Settles O35: a source at rest keeps its record, and a lost one takes the values of R49. -/
theorem prefillAndLossAtTheMark : Obligations.PrefillAndLossAtTheMark := by
  intro order s running due
  obtain ⟨t, taken, -, losses, records⟩ := outputMark_reports order running due
  refine ⟨t, taken, losses, fun k => ⟨fun rest => ?_, fun prefill state within => ?_, fun prefill state limit => ?_,
    fun prefill state missing limit => ?_⟩⟩
  · exact (records k).trans (marked_rest rest)
  · exact (records k).trans (marked_prefill_silent prefill state within)
  · have lost : lossCause s.sources[k] ≠ 0 := ne_of_eq_of_ne (lossCause_prefill prefill state limit) (by decide)
    exact ⟨(records k).trans (marked_prefill_lost prefill state limit), losses.raw lost⟩
  · have lost : lossCause s.sources[k] ≠ 0 := ne_of_eq_of_ne (lossCause_fixed prefill state missing limit) (by decide)
    exact ⟨(records k).trans (marked_fixed_lost prefill state missing limit), losses.raw lost⟩

end Sys2Proof.Machine
end

section
/-! PROOF. The requests SOURCE_CONFIG, SOURCE_MUTE, SOURCE_STATUS and SOURCE_LOL_SET: the answer and the source's record of each. -/

namespace Sys2Proof.Machine

/-! ## What they share -/

/-- The source is judged first: a number above 13 is refused whatever else the body holds (R66, R70, R71, R72). -/
theorem take_noSource {r : RequestKind} (kind : r = .sourceConfig ∨ r = .sourceMute ∨ r = .sourceStatus ∨ r = .sourceLolSet)
    {body : List Byte} (high : 13 < (body.getD 0 0).toNat) : r.take body = fun s => refuse s .noObject := by
  have absent : toIndex 14 (field8 body 0) = none := toIndex_none high
  funext s
  rcases kind with rfl | rfl | rfl | rfl
  · change takeSourceConfig body s = _
    rw [takeSourceConfig, absent]
  · change takeSourceMute body s = _
    rw [takeSourceMute, absent]
  · change takeSourceStatus body s = _
    rw [takeSourceStatus, absent]
  · change takeSourceLolSet body s = _
    rw [takeSourceLolSet, absent]

/-- A body whose first field is a source's number names that source. -/
theorem toIndex_source (k : SourceId) (rest : List Byte) : toIndex 14 (field8 (le8 k.val ++ rest) 0) = some k := by
  have source : field8 (le8 k.val ++ rest) 0 = k.val := field8_head k.val (by omega) rest
  rw [source, toIndex_val]

theorem raise_lolLimit (k : SourceId) (n : Nat) (s : State) :
    raise .sourceLolLimit k.val n s = reported 4 k.val (BitVec.ofNat 32 n) s := raiseKind_eq_reported ..

/-! ## SOURCE_CONFIG -/

/-- A source's record with its settings stored, and SOURCE_LOL_LIMIT when its threshold falls below its lol (R66, R67). -/
theorem takeSourceConfig_eq {k : SourceId} {body : List Byte} (source : toIndex 14 (field8 body 0) = some k) (s : State) :
    let x := s.sources[k]
    let c := settingsOf body
    let t := s.setSource k { x with settings := c }
    takeSourceConfig body s =
      (if x.lol ≤ x.settings.lolThreshold ∧ c.lolThreshold < x.lol then reported 4 k.val (BitVec.ofNat 32 x.lol) t else t,
        .okWith (le8 k.val ++ c.fields)) := by
  rw [takeSourceConfig, source]
  simp only [raise_lolLimit]

section
variable (k : SourceId) (target slope timer lost : BitVec 16) (bi1 bi2 bp1 bp2 lt depth re lol : Byte)

/-- A body of SOURCE_CONFIG, in the order of R66. -/
def sourceConfigBody : List Byte :=
  le8 k.val ++ le16 target.toNat ++ [bi1, bi2, bp1, bp2] ++ le16 slope.toNat ++ [lt] ++ le16 timer.toNat ++ [depth, re] ++
    le16 lost.toNat ++ [lol]

/-- The four two-byte fields of the body, at their offsets (R66). -/
theorem sourceConfigBody_words :
    let body := sourceConfigBody k target slope timer lost bi1 bi2 bp1 bp2 lt depth re lol
    field16 body 1 = target.toNat ∧ field16 body 7 = slope.toNat ∧ field16 body 10 = timer.toNat ∧ field16 body 14 = lost.toNat :=
  ⟨le16_value _ target.isLt, le16_value _ slope.isLt, le16_value _ timer.isLt, le16_value _ lost.isLt⟩

/-- The settings that the body gives, each brought into its range (R66). -/
theorem settingsOf_sourceConfigBody :
    let shift := fun b : Byte => max 4 (min 20 b.toNat)
    let reacquire := max 1 (min 255 re.toNat)
    settingsOf (sourceConfigBody k target slope timer lost bi1 bi2 bp1 bp2 lt depth re lol) =
      { targetFill := max 160 (min 800 target.toNat), biAcq := shift bi1, biTrk := shift bi2, bpAcq := shift bp1, bpTrk := shift bp2,
        slopeLimit := max 1 (min 4096 slope.toNat), lockThreshold := max 1 (min 64 lt.toNat),
        lockTimer := 2 * (max 2 (min 2000 timer.toNat) / 2), historyDepth := min 8 depth.toNat, reacquireLimit := reacquire,
        lostLimit := max (reacquire + 1) (max 10 (min 3000 lost.toNat)), lolThreshold := min 15 lol.toNat } := by
  obtain ⟨target_, slope_, timer_, lost_⟩ := sourceConfigBody_words k target slope timer lost bi1 bi2 bp1 bp2 lt depth re lol
  have even (n : Nat) : n - n % 2 = 2 * (n / 2) := by omega
  have low (n hi : Nat) : clamp 0 hi n = min hi n := Nat.zero_max _
  unfold settingsOf
  rw [target_, slope_, timer_, lost_]
  simp only [even, low]
  rfl

end

/-- Settles O39: the settings are stored as they are answered, and the threshold's fall is reported behind the reply. -/
theorem sourceConfigClampsAndStores : Obligations.SourceConfigClampsAndStores := by
  intro tag s now
  refine ⟨fun k target slope timer lost bi1 bi2 bp1 bp2 lt depth re lol => ?_, fun body len high => ?_⟩
  · have stored := settingsOf_sourceConfigBody k target slope timer lost bi1 bi2 bp1 bp2 lt depth re lol
    have source : toIndex 14 (field8 (sourceConfigBody k target slope timer lost bi1 bi2 bp1 bp2 lt depth re lol) 0) = some k :=
      toIndex_source k _
    intro x shift r c t
    have taken := takeSourceConfig_eq source
    rw [show settingsOf _ = c from stored] at taken
    exact exec_command_taken .sourceConfig tag _ s _ now rfl (.okWith (le8 k.val ++ c.fields)) (congrArg Prod.snd (taken _))
      (congrArg Prod.fst (taken _))
  · exact exec_command_refused .sourceConfig tag body s now (decide_eq_true len) .noObject (take_noSource (.inl rfl) high)

/-! ## SOURCE_MUTE and SOURCE_STATUS -/

/-- The flag that a mute byte of 0 or 1 gives is stored (R70). -/
theorem takeSourceMute_stores (k : SourceId) {m : Byte} (flag : m.toNat ≤ 1) (s : State) :
    takeSourceMute (le8 k.val ++ [m]) s =
      (s.setSource k { s.sources[k] with muted := decide (m = 1) }, .okWith (le8 k.val ++ [m])) := by
  have byte : (if decide (m = 1) then 1 else 0) = m := by
    rcases Nat.le_one_iff_eq_zero_or_eq_one.mp flag with zero | one
    · rw [(byte_eq_zero_iff m).mpr zero]
      rfl
    · rw [(byte_eq_one_iff m).mpr one]
      rfl
  have taken := takeSourceMute_eq k (decide (m = 1)) s
  rwa [byte] at taken

theorem takeSourceMute_badValue (k : SourceId) {m : Byte} (high : 1 < m.toNat) :
    takeSourceMute (le8 k.val ++ [m]) = fun s => refuse s .badValue := by
  funext s
  rw [takeSourceMute, toIndex_source]
  exact if_pos high

/-- The fields of SOURCE_STATUS's reply, in the order of R71. -/
def sourceStatusFields (k : SourceId) (x : Source) : List Byte :=
  le8 k.val ++ le8 (match x.state with | .off => 0 | .waiting => 1 | .acquire => 2 | .track => 3 | .holdover => 4 | .fixed => 5) ++
    le8 (match x.mode with | .auto => 0 | .fixed => 1) ++ leFlag x.line ++ leFlag x.muted ++ leFlag x.locked ++
    leFlag x.prefill ++ leFlag x.blockArrived ++ leInt16 x.f ++ leInt32 x.acc ++ leInt32 x.r ++ le16 x.run ++ le16 x.age ++
    le8 (match x.priorState with | none => 0 | some .acquire => 2 | some .track => 3) ++ leFlag x.priorLocked ++ le8 x.lol ++
    le8 x.history.length ++ le8 x.historyCounter ++ le16 x.buffer.samples.length ++ le8 x.buffer.chain.length ++
    leFlag x.lastSequence.isSome ++ [x.lastSequence.getD 0] ++
    (match x.block with | .none => [0, 0] | .silence => [1, 0] | .samples _ p => [2] ++ le8 p)

/-- The model's codes of the state, the mode and the output block are those of R71. -/
theorem fields_eq_sourceStatusFields (k : SourceId) (x : Source) : x.fields k = sourceStatusFields k x := by
  have state : x.state.code = match x.state with
      | .off => 0 | .waiting => 1 | .acquire => 2 | .track => 3 | .holdover => 4 | .fixed => 5 := by
    cases x.state <;> rfl
  have mode : x.mode.code = match x.mode with | .auto => 0 | .fixed => 1 := by
    cases x.mode <;> rfl
  unfold Source.fields sourceStatusFields
  rw [state, mode]
  cases x.block <;> rfl

theorem takeSourceStatus_eq (k : SourceId) (s : State) :
    takeSourceStatus (le8 k.val) s = (s, .okWith (sourceStatusFields k s.sources[k])) := by
  have source : toIndex 14 (field8 (le8 k.val) 0) = some k := toIndex_source k []
  rw [takeSourceStatus, source]
  dsimp only
  rw [fields_eq_sourceStatusFields]

/-- Settles O41: the flag alone is written, and the status only reads. -/
theorem sourceMuteAndStatus : Obligations.SourceMuteAndStatus := by
  intro tag s now
  refine ⟨fun k m => ⟨fun flag => ?_, fun high => ?_⟩, fun k => ?_, fun b m high => ?_, fun b high => ?_⟩
  · exact exec_command_taken .sourceMute tag _ s _ now rfl (.okWith (le8 k.val ++ [m]))
      (congrArg Prod.snd (takeSourceMute_stores k flag _)) (congrArg Prod.fst (takeSourceMute_stores k flag _))
  · exact exec_command_refused .sourceMute tag _ s now rfl .badValue (takeSourceMute_badValue k high)
  · exact exec_command_off_link .sourceStatus tag _ s s (.okWith (sourceStatusFields k s.sources[k])) now rfl rfl
      fun l => takeSourceStatus_eq k { s with link := l }
  · exact exec_command_refused .sourceMute tag [b, m] s now rfl .noObject (take_noSource (.inr (.inl rfl)) high)
  · exact exec_command_refused .sourceStatus tag [b] s now rfl .noObject (take_noSource (.inr (.inr (.inl rfl))) high)

/-! ## SOURCE_LOL_SET -/

/-- The counter takes the value clamped to 15, and SOURCE_LOL_LIMIT is raised when it crosses the threshold (R57, R72). -/
theorem takeSourceLolSet_eq (k : SourceId) (v : Byte) (s : State) :
    let x := s.sources[k]
    let n := min 15 v.toNat
    let t := s.setSource k { x with lol := n }
    takeSourceLolSet (le8 k.val ++ [v]) s =
      (if x.lol ≤ x.settings.lolThreshold ∧ x.settings.lolThreshold < n then reported 4 k.val (BitVec.ofNat 32 n) t else t,
        .okWith (le8 k.val ++ le8 n)) := by
  have value : field8 (le8 k.val ++ [v]) 1 = v.toNat := rfl
  rw [takeSourceLolSet, toIndex_source]
  simp only [value, setLol, raise_lolLimit]

/-- Settles O42: the counter is written, and its crossing is reported behind the reply. -/
theorem sourceLolSetWritesTheCounter : Obligations.SourceLolSetWritesTheCounter := by
  intro tag s now
  refine ⟨fun k v => ?_, fun b v high => ?_⟩
  · exact exec_command_taken .sourceLolSet tag _ s _ now rfl (.okWith (le8 k.val ++ le8 (min 15 v.toNat)))
      (congrArg Prod.snd (takeSourceLolSet_eq k v _)) (congrArg Prod.fst (takeSourceLolSet_eq k v _))
  · exact exec_command_refused .sourceLolSet tag [b, v] s now rfl .noObject (take_noSource (.inr (.inr (.inr rfl))) high)

end Sys2Proof.Machine
end

section
/-! PROOF. What a review makes of one channel: its verdict, the record that the verdict leaves, and what it reports. -/

namespace Sys2Proof.Machine

/-! ## The class of a source (R75) -/

theorem sourceClass_usable_iff (x : Source) : sourceClass x = .usable ↔ Usable x := by
  unfold sourceClass Usable
  cases x.muted <;> cases x.state <;> cases x.locked <;> cases x.prefill <;> decide

theorem sourceClass_producing_iff (x : Source) : sourceClass x = .producing ↔ Producing x := by
  unfold sourceClass Producing
  cases x.muted <;> cases x.state <;> cases x.locked <;> cases x.prefill <;> decide

theorem firstUsable_eq_bestUsable (l : List SourceId) (s : State) : firstUsable l s = bestUsable l s := by
  unfold firstUsable bestUsable
  simp only [sourceClass_usable_iff]

theorem bestUsable_congr {s t : State} (sources : t.sources = s.sources) (l : List SourceId) : bestUsable l t = bestUsable l s := by
  unfold bestUsable
  rw [sources]

/-- A source that is taken stands in the list. -/
theorem mem_of_bestUsable {l : List SourceId} {s : State} {k : SourceId} (h : bestUsable l s = some k) : k ∈ l :=
  List.mem_of_find?_eq_some h

/-! ## Verdicts -/

/-- What a review does to its channel: it writes the record and raises nothing, it takes a source with a cause of R83, or it falls
SILENT from an active source. -/
inductive Verdict
  | writes (x : Channel)
  | takes (cause : SwitchCause) (k : SourceId)
  | silences (active : SourceId)

/-- Reselection (R79). -/
def Channel.reselection (ch : Channel) (active : SourceId) (s : State) : Verdict :=
  match bestUsable ch.liveSources s with
  | some k => .takes .immediate k
  | none => .silences active

/-- The revert step of a plan (R81). -/
def Channel.revertVerdict (ch : Channel) (p : Plan) (active : SourceId) (s : State) : Verdict :=
  match bestUsable (p.sources.takeWhile (fun j => j ≠ active)) s with
  | none => .writes { ch with revertCandidate := none, revertCount := 0 }
  | some j =>
    let n := if ch.revertCandidate = some j then ch.revertCount + 1 else 1
    if p.revertWait ≤ n then .takes .revert j else .writes { ch with revertCandidate := some j, revertCount := n }

/-- LIVE, by the class of the active source (R80). -/
def Channel.liveVerdict (ch : Channel) (active : SourceId) (cls : SourceClass) (s : State) : Verdict :=
  match cls with
  | .absent => ch.reselection active s
  | .producing => .writes { ch with state := .bridging, bridgeCount := 0, revertCandidate := none, revertCount := 0 }
  | .usable =>
    match ch.livePlan with
    | some p => if p.revert then ch.revertVerdict p active s else .writes { ch with revertCandidate := none, revertCount := 0 }
    | none => .writes ch

/-- BRIDGING, by the class of the active source (R82). -/
def Channel.bridgingVerdict (ch : Channel) (active : SourceId) (cls : SourceClass) (s : State) : Verdict :=
  match cls with
  | .usable => .writes { ch with state := .live, bridgeCount := 0 }
  | .absent => ch.reselection active s
  | .producing =>
    let n := min 65535 (ch.bridgeCount + 1)
    match ch.livePlan, bestUsable ch.liveSources s with
    | some p, some k => if p.switchDelay < n then .takes .delay k else .writes { ch with bridgeCount := n }
    | _, _ => .writes { ch with bridgeCount := n }

/-- The class in which a review finds a channel's active source; one outside the live list is ABSENT (R75, R77 step 5). -/
def Channel.classOf (ch : Channel) (k : SourceId) (s : State) : SourceClass :=
  if k ∈ ch.liveSources then sourceClass s.sources[k] else .absent

/-- A review's verdict by the channel's state (R76, R78, R80, R82). -/
def Channel.verdict (ch : Channel) (s : State) : Verdict :=
  match ch.state, ch.activeSource with
  | .silent, _ => match bestUsable ch.liveSources s with
    | some k => .takes .first k
    | none => .writes ch
  | .live, some k => ch.liveVerdict k (ch.classOf k s) s
  | .bridging, some k => ch.bridgingVerdict k (ch.classOf k s) s
  | _, _ => .writes ch

/-- The record that a verdict leaves of a channel. -/
def Verdict.record (ch : Channel) : Verdict → Channel
  | .writes x => x
  | .takes _ k => ch.taking k
  | .silences _ => ch.silenced

/-- What a verdict on a channel reports (R79, R83). -/
def Verdict.report (c : ChannelId) (ch : Channel) : Verdict → Report
  | .writes _ => .nothing
  | .takes cause k =>
    .one 12 c.val (BitVec.ofNat 32 (cause.code * 65536 + (ch.activeSource.map Fin.val).getD 255 * 256 + k.val))
  | .silences active => .one 13 c.val (BitVec.ofNat 32 active.val)

/-- A verdict carried out. -/
def Verdict.perform (c : ChannelId) (s : State) : Verdict → State
  | .writes x => s.setChannel c x
  | .takes cause k => switchTo c cause k s
  | .silences active => raise .channelSilent c.val active.val (s.setChannel c s.channels[c].silenced)

/-- A verdict looks at nothing but the sources and the channel's own record. -/
theorem Channel.verdict_congr {s t : State} (sources : t.sources = s.sources) (ch : Channel) : ch.verdict t = ch.verdict s := by
  unfold Channel.verdict Channel.liveVerdict Channel.bridgingVerdict Channel.revertVerdict Channel.reselection Channel.classOf
  simp only [bestUsable_congr sources, sources]

theorem perform_channels (c : ChannelId) (s : State) (v : Verdict) :
    (v.perform c s).channels = s.channels.set c (v.record s.channels[c]) := by
  cases v with
  | writes x => rfl
  | takes cause k => rw [Verdict.perform, switchTo, raise_channels]; rfl
  | silences active => rw [Verdict.perform, raise_channels]; rfl

theorem Quiet.setChannel (c : ChannelId) (x : Channel) (s : State) : Quiet s (s.setChannel c x) := ⟨rfl, rfl, rfl⟩

theorem perform_reports (c : ChannelId) (s : State) (v : Verdict) : Reports (v.report c s.channels[c]) s (v.perform c s) := by
  cases v with
  | writes x => exact .of_quiet (.setChannel c x s)
  | takes cause k => exact .after_quiet (.setChannel ..) (reports_raise .channelSwitched ..)
  | silences active => exact .after_quiet (.setChannel ..) (reports_raise .channelSilent ..)

/-! ## The model's review carries its verdict out -/

section
variable (c : ChannelId) (active : SourceId) (s : State)

theorem silentReview_eq (silent : s.channels[c].state = .silent) :
    silentReview c s = (s.channels[c].verdict s).perform c s := by
  unfold silentReview Channel.verdict
  rw [silent, firstUsable_eq_bestUsable]
  dsimp only
  cases bestUsable s.channels[c].liveSources s with
  | some k => rfl
  | none => exact (setChannel_self c s).symm

theorem reselect_eq : reselect c active s = (s.channels[c].reselection active s).perform c s := by
  simp only [reselect, Channel.reselection, firstUsable_eq_bestUsable]
  cases bestUsable s.channels[c].liveSources s <;> rfl

theorem revertStep_eq (p : Plan) : revertStep c p active s = (s.channels[c].revertVerdict p active s).perform c s := by
  simp only [revertStep, Channel.revertVerdict, rankedAbove, firstUsable_eq_bestUsable]
  cases bestUsable (p.sources.takeWhile (fun j => j ≠ active)) s with
  | none => rfl
  | some j =>
    dsimp only
    rw [apply_ite (Verdict.perform c s)]
    rfl

theorem liveReview_eq (cls : SourceClass) :
    liveReview c active cls s = (s.channels[c].liveVerdict active cls s).perform c s := by
  unfold liveReview Channel.liveVerdict
  cases cls with
  | absent => exact reselect_eq c active s
  | producing => rfl
  | usable =>
    dsimp only
    cases s.channels[c].livePlan with
    | some p => rw [apply_ite (Verdict.perform c s), ← revertStep_eq]; rfl
    | none => exact (setChannel_self c s).symm

/-- The count that a BRIDGING channel has just stored is cleared by the switch (R82). -/
theorem switchTo_counted (cause : SwitchCause) (k : SourceId) (n : Nat) :
    switchTo c cause k (s.setChannel c { s.channels[c] with bridgeCount := n }) = switchTo c cause k s := by
  simp only [switchTo, State.setChannel_channels, get_set_same, setChannel_setChannel]

theorem bridgingReview_eq (cls : SourceClass) :
    bridgingReview c active cls s = (s.channels[c].bridgingVerdict active cls s).perform c s := by
  unfold bridgingReview Channel.bridgingVerdict
  cases cls with
  | usable => rfl
  | absent => exact reselect_eq c active s
  | producing =>
    simp only [firstUsable_eq_bestUsable]
    generalize counted : ({ s.channels[c] with bridgeCount := min 65535 (s.channels[c].bridgeCount + 1) } : Channel) = x
    cases s.channels[c].livePlan with
    | none => rfl
    | some p =>
      cases bestUsable s.channels[c].liveSources s with
      | none => rfl
      | some k =>
        dsimp only
        rw [apply_ite (Verdict.perform c s), ← counted, switchTo_counted]
        rfl

theorem reviewByState_eq : reviewByState c s = (s.channels[c].verdict s).perform c s := by
  have nothing : s = Verdict.perform c s (.writes s.channels[c]) := (setChannel_self c s).symm
  cases state : s.channels[c].state with
  | closed => simpa only [reviewByState, Channel.verdict, state] using nothing
  | silent => simpa only [reviewByState, state] using silentReview_eq c s state
  | live =>
    cases active : s.channels[c].activeSource with
    | none => simpa only [reviewByState, Channel.verdict, state, active] using nothing
    | some k => simpa only [reviewByState, Channel.verdict, Channel.classOf, state, active] using liveReview_eq c k s _
  | bridging =>
    cases active : s.channels[c].activeSource with
    | none => simpa only [reviewByState, Channel.verdict, state, active] using nothing
    | some k => simpa only [reviewByState, Channel.verdict, Channel.classOf, state, active] using bridgingReview_eq c k s _

end

/-! ## The review of a channel (R76, R77) -/

/-- A channel as its review finds it after a pending apply (R77). -/
def Channel.begun (ch : Channel) : Channel := if ch.applyPending then ch.applied else ch

/-- A channel's record after its review. -/
def Channel.reviewed (ch : Channel) (s : State) : Channel := (ch.begun.verdict s).record ch.begun

/-- What a channel's review reports: PLAN_APPLIED with detail 1 if a staged plan is applied, and what the verdict reports (R77, R83). -/
def Channel.reviewReport (c : ChannelId) (ch : Channel) (s : State) : Report :=
  ((Report.one 14 c.val 1).when ch.Applies).andThen ((ch.begun.verdict s).report c ch.begun)

/-- The state in which a channel's review goes on after a pending apply (R77). -/
def reviewBegun (c : ChannelId) (s : State) : State := if s.channels[c].applyPending then applyPlan c 1 s else s

theorem reviewBegun_sources (c : ChannelId) (s : State) : (reviewBegun c s).sources = s.sources := by
  unfold reviewBegun
  split
  · exact (congrArg State.sources (applyPlan_offChannels c 1 s) :)
  · rfl

theorem reviewBegun_channels (c : ChannelId) (s : State) :
    (reviewBegun c s).channels = s.channels.set c s.channels[c].begun := by
  unfold reviewBegun Channel.begun
  split
  · rw [applyPlan_eq, State.setChannel_channels]
    split
    · rfl
    · rw [raise_channels]
  · exact (Vector.set_getElem_self _).symm

theorem reviewBegun_reports (c : ChannelId) (s : State) :
    Reports ((Report.one 14 c.val 1).when s.channels[c].Applies) s (reviewBegun c s) := by
  unfold reviewBegun
  by_cases pending : s.channels[c].applyPending = true
  · rw [if_pos pending, applyPlan_eq]
    by_cases staged : s.channels[c].stagedPlan = none
    · rw [if_pos staged, Report.when, if_neg fun applies => applies.2 staged]
      exact .of_quiet (.setChannel ..)
    · rw [if_neg staged, Report.when, if_pos ⟨pending, staged⟩]
      exact (reports_raise .planApplied c.val 1 s).then_quiet (.setChannel ..)
  · rw [if_neg pending, Report.when, if_neg fun applies => pending applies.1]
    exact .refl s

/-- A CLOSED channel that is not visited is one on which a verdict writes nothing new (R76). -/
theorem reviewChannel_eq (c : ChannelId) (s : State) :
    reviewChannel c s = ((reviewBegun c s).channels[c].verdict (reviewBegun c s)).perform c (reviewBegun c s) := by
  unfold reviewChannel reviewBegun
  dsimp only
  split
  · exact reviewByState_eq c _
  · split
    · next closed =>
      have verdict : s.channels[c].verdict s = .writes s.channels[c] := by
        unfold Channel.verdict
        rw [closed]
      rw [verdict]
      exact (setChannel_self c s).symm
    · exact reviewByState_eq c s

theorem reviewChannel_channels (c : ChannelId) (s : State) :
    (reviewChannel c s).channels = s.channels.set c (s.channels[c].reviewed s) := by
  rw [reviewChannel_eq, perform_channels, Channel.verdict_congr (reviewBegun_sources c s), reviewBegun_channels, get_set_same,
    Vector.set_set]
  rfl

theorem reviewChannel_reports (c : ChannelId) (s : State) :
    Reports (s.channels[c].reviewReport c s) s (reviewChannel c s) := by
  have verdict := perform_reports c (reviewBegun c s) ((reviewBegun c s).channels[c].verdict (reviewBegun c s))
  rw [← reviewChannel_eq, Channel.verdict_congr (reviewBegun_sources c s), reviewBegun_channels, get_set_same] at verdict
  exact (reviewBegun_reports c s).trans verdict

theorem reviewChannel_sources (c : ChannelId) (s : State) : (reviewChannel c s).sources = s.sources :=
  (congrArg State.sources (reviewChannel_offChannels c s) :)

theorem Channel.reviewed_congr {s t : State} (sources : t.sources = s.sources) (ch : Channel) : ch.reviewed t = ch.reviewed s := by
  unfold Channel.reviewed
  rw [Channel.verdict_congr sources]

/-- The verdict's report speaks of kinds 12 and 13 alone. -/
theorem verdict_report_other (c : ChannelId) (ch : Channel) (v : Verdict) {e : EventId} (switched : e ≠ 12) (silent : e ≠ 13) :
    v.report c ch e = none := by
  cases v with
  | writes x => rfl
  | takes cause k => exact Report.one_other _ _ switched
  | silences active => exact Report.one_other _ _ silent

theorem reviewReport_other (c : ChannelId) (ch : Channel) (s : State) {e : EventId} (h : e ∉ ([12, 13, 14] : List EventId)) :
    ch.reviewReport c s e = none := by
  simp only [List.mem_cons, List.not_mem_nil, or_false, not_or] at h
  obtain ⟨switched, silent, applied⟩ := h
  exact Report.andThen_none (Report.when_none _ (Report.one_other _ _ applied)) (verdict_report_other c _ _ switched silent)

theorem reviewChannel_reportsOnly (c : ChannelId) (s : State) : ReportsOnly [12, 13, 14] s (reviewChannel c s) :=
  ⟨_, reviewChannel_reports c s, fun _ other => reviewReport_other c _ s other⟩

/-! ## What a verdict can be -/

/-- The cause of a switch away from a source of this class (R83). -/
def SourceClass.cause : SourceClass → SwitchCause
  | .absent => .immediate
  | .producing => .delay
  | .usable => .revert

/-- The cause of a switch, by the class in which the review finds the active source (R83). -/
def Channel.causeIn (ch : Channel) (s : State) : SwitchCause :=
  match ch.activeSource with
  | none => .first
  | some k => (ch.classOf k s).cause

/-- The channel produces from an active source. -/
abbrev Channel.OnAir (ch : Channel) : Prop := ch.state = .live ∨ ch.state = .bridging

/-- x is the channel's record with nothing changed but the counts of its review, and LIVE and BRIDGING exchanged perhaps. -/
structure Channel.Rewrites (ch x : Channel) : Prop where
  livePlan : x.livePlan = ch.livePlan
  stagedPlan : x.stagedPlan = ch.stagedPlan
  applyPending : x.applyPending = ch.applyPending
  activeSource : x.activeSource = ch.activeSource
  boundGroups : x.boundGroups = ch.boundGroups
  switchCount : x.switchCount = ch.switchCount
  state : x.state = ch.state ∨ ch.OnAir ∧ x.OnAir

/-- The verdicts that a review can come to: the active source of a channel that stays on the air is listed; the source taken is
listed, and the cause is that of the class; a channel falls SILENT from its active source (R74, R78 to R83). -/
inductive Verdict.Fits (ch : Channel) (s : State) : Verdict → Prop
  | writes {x : Channel} (same : ch.Rewrites x) (listed : ch.OnAir → ∀ k, ch.activeSource = some k → k ∈ ch.liveSources) :
      Fits ch s (.writes x)
  | takes {k : SourceId} (isOpen : ch.state ≠ .closed) (listed : k ∈ ch.liveSources) : Fits ch s (.takes (ch.causeIn s) k)
  | silences {k : SourceId} (onAir : ch.OnAir) (active : ch.activeSource = some k) : Fits ch s (.silences k)

section
variable {ch : Channel} {s : State} {k : SourceId}

theorem Channel.causeIn_eq {cls : SourceClass} (active : ch.activeSource = some k) (class_ : ch.classOf k s = cls) :
    ch.causeIn s = cls.cause := by
  subst class_
  simp only [Channel.causeIn, active]

/-- A source that is not judged ABSENT is listed. -/
theorem Channel.listed_of_classOf (class_ : ch.classOf k s ≠ .absent) : k ∈ ch.liveSources := by
  by_contra outside
  exact class_ (if_neg outside)

theorem Verdict.Fits.of_listed {x : Channel} (same : ch.Rewrites x) (active : ch.activeSource = some k)
    (class_ : ch.classOf k s ≠ .absent) : Verdict.Fits ch s (.writes x) :=
  .writes same fun _ _ named => Option.some.inj (active.symm.trans named) ▸ Channel.listed_of_classOf class_

theorem reselection_fits (onAir : ch.OnAir) (active : ch.activeSource = some k) (absent : ch.classOf k s = .absent) :
    Verdict.Fits ch s (ch.reselection k s) := by
  have isOpen : ch.state ≠ .closed := by rcases onAir with h | h <;> rw [h] <;> decide
  have cause : ch.causeIn s = .immediate := Channel.causeIn_eq active absent
  unfold Channel.reselection
  split
  · next j best =>
    rw [← cause]
    exact .takes isOpen (mem_of_bestUsable best)
  · exact .silences onAir active

theorem liveVerdict_fits (live : ch.state = .live) (active : ch.activeSource = some k) :
    Verdict.Fits ch s (ch.liveVerdict k (ch.classOf k s) s) := by
  have onAir : ch.OnAir := .inl live
  have isOpen : ch.state ≠ .closed := by rw [live]; decide
  cases class_ : ch.classOf k s with
  | absent => exact reselection_fits onAir active class_
  | producing => exact .of_listed ⟨rfl, rfl, rfl, rfl, rfl, rfl, .inr ⟨onAir, .inr rfl⟩⟩ active (by rw [class_]; decide)
  | usable =>
    have listed : ch.classOf k s ≠ .absent := by rw [class_]; decide
    have cause : ch.causeIn s = .revert := Channel.causeIn_eq active class_
    simp only [Channel.liveVerdict, Channel.revertVerdict]
    split
    · next p plan =>
      split
      · split
        · exact .of_listed ⟨rfl, rfl, rfl, rfl, rfl, rfl, .inl rfl⟩ active listed
        · next j best =>
          have higher : j ∈ ch.liveSources := by
            rw [Channel.liveSources, plan]
            exact List.takeWhile_subset _ (mem_of_bestUsable best)
          generalize (if ch.revertCandidate = some j then ch.revertCount + 1 else 1) = n
          split
          · rw [← cause]
            exact .takes isOpen higher
          · exact .of_listed ⟨rfl, rfl, rfl, rfl, rfl, rfl, .inl rfl⟩ active listed
      · exact .of_listed ⟨rfl, rfl, rfl, rfl, rfl, rfl, .inl rfl⟩ active listed
    · exact .of_listed ⟨rfl, rfl, rfl, rfl, rfl, rfl, .inl rfl⟩ active listed

theorem bridgingVerdict_fits (bridging : ch.state = .bridging) (active : ch.activeSource = some k) :
    Verdict.Fits ch s (ch.bridgingVerdict k (ch.classOf k s) s) := by
  have onAir : ch.OnAir := .inr bridging
  have isOpen : ch.state ≠ .closed := by rw [bridging]; decide
  cases class_ : ch.classOf k s with
  | absent => exact reselection_fits onAir active class_
  | usable => exact .of_listed ⟨rfl, rfl, rfl, rfl, rfl, rfl, .inr ⟨onAir, .inl rfl⟩⟩ active (by rw [class_]; decide)
  | producing =>
    have listed : ch.classOf k s ≠ .absent := by rw [class_]; decide
    have cause : ch.causeIn s = .delay := Channel.causeIn_eq active class_
    have counted : Verdict.Fits ch s (.writes { ch with bridgeCount := min 65535 (ch.bridgeCount + 1) }) :=
      .of_listed ⟨rfl, rfl, rfl, rfl, rfl, rfl, .inl rfl⟩ active listed
    simp only [Channel.bridgingVerdict]
    split
    · next p j _ best =>
      split
      · rw [← cause]
        exact .takes isOpen (mem_of_bestUsable best)
      · exact counted
    · exact counted

/-- The verdict on a channel that has no active source in SILENT is one of these. -/
theorem verdict_fits (quiet : ch.state = .silent → ch.activeSource = none) : Verdict.Fits ch s (ch.verdict s) := by
  have stays (off : ¬ ch.OnAir ∨ ch.activeSource = none) : Verdict.Fits ch s (.writes ch) :=
    .writes ⟨rfl, rfl, rfl, rfl, rfl, rfl, .inl rfl⟩ fun onAir k active =>
      off.elim (absurd onAir) fun none => absurd (none.symm.trans active) nofun
  unfold Channel.verdict
  cases state : ch.state with
  | closed => exact stays (.inl (by simp [Channel.OnAir, state]))
  | silent =>
    dsimp only
    split
    · next k best =>
      have cause : ch.causeIn s = .first := by simp only [Channel.causeIn, quiet state]
      rw [← cause]
      exact .takes (by rw [state]; decide) (mem_of_bestUsable best)
    · exact stays (.inr (quiet state))
  | live =>
    cases active : ch.activeSource with
    | none => exact stays (.inr active)
    | some k => exact liveVerdict_fits state active
  | bridging =>
    cases active : ch.activeSource with
    | none => exact stays (.inr active)
    | some k => exact bridgingVerdict_fits state active

end

end Sys2Proof.Machine
end

section
/-! PROOF. The REVIEW mark: what it leaves of each channel by the class of the active source, and what it reports. -/

namespace Sys2Proof.Machine

/-! ## The mark over all channels -/

/-- The air timer past the REVIEW mark. -/
def State.pastReview (s : State) : State := { s with air := { s.air with due := 38 } }

/-- A mark that has no effect (R19, assumption 10). -/
theorem reviewMark_ignored (order : List ChannelId) {s : State} (h : s.air.running = false ∨ s.air.due ≠ 37) :
    exec (.reviewMark order) s = .next s := by
  refine if_neg fun c => ?_
  obtain ⟨running, due⟩ := c
  rcases h with stopped | elsewhere
  · rw [stopped] at running
    exact absurd running Bool.false_ne_true
  · exact elsewhere due

theorem reviewMark_taken (order : List ChannelId) {s : State} (running : s.air.running = true) (due : s.air.due = 37) :
    exec (.reviewMark order) s = .next (forEach (fullOrder order) reviewChannel s.pastReview) := if_pos ⟨running, due⟩

/-- Each channel is reviewed once, with the sources as the mark finds them (R76). -/
theorem forEach_review_get (l : List ChannelId) (once : l.Nodup) (s : State) (c : ChannelId) :
    (forEach l reviewChannel s).channels[c] = if c ∈ l then s.channels[c].reviewed s else s.channels[c] := by
  induction l generalizing s with
  | nil => rfl
  | cons a l ih =>
    obtain ⟨new, rest⟩ := List.nodup_cons.mp once
    rw [forEach_cons, ih rest, reviewChannel_channels, get_set_cases, Channel.reviewed_congr (reviewChannel_sources a s)]
    by_cases same : c = a
    · subst same
      rw [if_neg new, if_pos rfl, if_pos List.mem_cons_self]
    · simp only [List.mem_cons, same, false_or, if_false]

theorem fullOrder_channels (order : List ChannelId) : (fullOrder order).Nodup ∧ ∀ c, c ∈ fullOrder order := by
  have all := fullOrder_perm order
  exact ⟨all.nodup_iff.mpr (List.nodup_finRange 16), fun c => all.mem_iff.mpr (List.mem_finRange c)⟩

/-- Every channel's record after the mark. -/
theorem reviewMark_get (order : List ChannelId) (s : State) (c : ChannelId) :
    (forEach (fullOrder order) reviewChannel s).channels[c] = s.channels[c].reviewed s := by
  obtain ⟨once, all⟩ := fullOrder_channels order
  rw [forEach_review_get _ once, if_pos (all c)]

/-- The mark reports of channels alone (R77, R79, R83). -/
theorem forEach_review_reportsOnly (l : List ChannelId) (s : State) : ReportsOnly [12, 13, 14] s (forEach l reviewChannel s) :=
  forEach_keeps (ReportsOnly [12, 13, 14] s) _ (fun c t ht => ht.trans (reviewChannel_reportsOnly c t)) l s
    (.of_quiet ⟨rfl, rfl, rfl⟩)

/-! ## The record that a review leaves, case by case -/

theorem classOf_listed {ch : Channel} {p : Plan} {k : SourceId} (s : State) (plan : ch.livePlan = some p) (listed : k ∈ p.sources) :
    ch.classOf k s = sourceClass s.sources[k] := by
  have live : ch.liveSources = p.sources := by
    rw [Channel.liveSources, plan]
    rfl
  rw [Channel.classOf, live, if_pos listed]

theorem sourceClass_absent {x : Source} (useless : ¬ Usable x) (mute : ¬ Producing x) : sourceClass x = .absent := by
  cases class_ : sourceClass x with
  | usable => exact absurd ((sourceClass_usable_iff x).mp class_) useless
  | producing => exact absurd ((sourceClass_producing_iff x).mp class_) mute
  | absent => rfl

section
variable {ch : Channel} (s : State)

/-- Without an apply the review is the verdict on the record as it stands. -/
theorem reviewed_idle (idle : ch.applyPending = false) : ch.reviewed s = (ch.verdict s).record ch := by
  have begun : ch.begun = ch := if_neg (by rw [idle]; decide)
  rw [Channel.reviewed, begun]

theorem verdict_closed (state : ch.state = .closed) : ch.verdict s = .writes ch := by
  simp only [Channel.verdict, state]

theorem verdict_live {k : SourceId} (state : ch.state = .live) (active : ch.activeSource = some k) :
    ch.verdict s = ch.liveVerdict k (ch.classOf k s) s := by
  simp only [Channel.verdict, state, active]

theorem verdict_bridging {k : SourceId} (state : ch.state = .bridging) (active : ch.activeSource = some k) :
    ch.verdict s = ch.bridgingVerdict k (ch.classOf k s) s := by
  simp only [Channel.verdict, state, active]

/-- A SILENT channel takes the first USABLE source (R78). -/
theorem record_silent (state : ch.state = .silent) :
    (ch.verdict s).record ch = match bestUsable ch.liveSources s with | some j => ch.taking j | none => ch := by
  simp only [Channel.verdict, state]
  cases bestUsable ch.liveSources s <;> rfl

/-- An ABSENT active source makes the channel reselect, in LIVE and in BRIDGING (R79). -/
theorem record_absent {k : SourceId} (onAir : ch.OnAir) (active : ch.activeSource = some k) (absent : ch.classOf k s = .absent) :
    (ch.verdict s).record ch = ch.reselected (bestUsable ch.liveSources s) := by
  have verdict : ch.verdict s = ch.reselection k s := by
    rcases onAir with live | bridging
    · rw [verdict_live s live active, absent]
      rfl
    · rw [verdict_bridging s bridging active, absent]
      rfl
  rw [verdict]
  unfold Channel.reselection Channel.reselected
  cases bestUsable ch.liveSources s <;> rfl

/-- The revert step (R81). -/
theorem record_revert {p : Plan} {k : SourceId} (state : ch.state = .live) (plan : ch.livePlan = some p)
    (active : ch.activeSource = some k) (usable : ch.classOf k s = .usable) (revert : p.revert = true) :
    (ch.verdict s).record ch = match bestUsable (p.sources.takeWhile (fun j => j ≠ k)) s with
      | none => { ch with revertCandidate := none, revertCount := 0 }
      | some j =>
        let n := if ch.revertCandidate = some j then ch.revertCount + 1 else 1
        if p.revertWait ≤ n then ch.taking j else { ch with revertCandidate := some j, revertCount := n } := by
  have verdict : ch.verdict s = ch.revertVerdict p k s := by
    simp only [verdict_live s state active, usable, Channel.liveVerdict, plan, revert, if_true]
  rw [verdict, Channel.revertVerdict]
  cases bestUsable (p.sources.takeWhile (fun j => j ≠ k)) s with
  | none => rfl
  | some j => exact apply_ite (Verdict.record ch) ..

/-- LIVE on a USABLE source with revert off: the candidate is cleared (R80). -/
theorem record_live_kept {p : Plan} {k : SourceId} (state : ch.state = .live) (plan : ch.livePlan = some p)
    (active : ch.activeSource = some k) (usable : ch.classOf k s = .usable) (revert : p.revert = false) :
    (ch.verdict s).record ch = { ch with revertCandidate := none, revertCount := 0 } := by
  have verdict : ch.verdict s = .writes { ch with revertCandidate := none, revertCount := 0 } := by
    rw [verdict_live s state active, usable]
    unfold Channel.liveVerdict
    dsimp only
    split
    · next q named =>
      obtain rfl := Option.some.inj (named.symm.trans plan)
      rw [revert]
      rfl
    · next none => exact absurd (none.symm.trans plan) nofun
  rw [verdict]
  rfl

/-- BRIDGING on a PRODUCING source counts, and switches past its delay when a source is USABLE (R82). -/
theorem record_bridging_counts {p : Plan} {k : SourceId} (state : ch.state = .bridging) (plan : ch.livePlan = some p)
    (active : ch.activeSource = some k) (producing : ch.classOf k s = .producing) :
    let n := min 65535 (ch.bridgeCount + 1)
    (ch.verdict s).record ch = match bestUsable ch.liveSources s with
      | some j => if p.switchDelay < n then ch.taking j else { ch with bridgeCount := n }
      | none => { ch with bridgeCount := n } := by
  rw [verdict_bridging s state active, producing]
  unfold Channel.bridgingVerdict
  dsimp only
  split
  · next q j named best =>
    obtain rfl := Option.some.inj (named.symm.trans plan)
    rw [best]
    exact apply_ite (Verdict.record ch) ..
  · next none =>
    split
    · next j best => exact (none p j plan best).elim
    · rfl

end

/-- Settles O36: the verdict on each channel, read off by its state and the class of its active source. -/
theorem reviewByClass : Obligations.ReviewByClass := by
  intro order s
  refine ⟨reviewMark_ignored order, fun running due => ⟨_, reviewMark_taken order running due, ?_⟩⟩
  have frame : (forEach (fullOrder order) reviewChannel s.pastReview).offChannels = s.pastReview.offChannels :=
    forEach_same State.offChannels _ (fun c t => reviewChannel_offChannels c t) _ _
  have records := reviewMark_get order s.pastReview
  obtain ⟨r, reports, others⟩ := forEach_review_reportsOnly (fullOrder order) s.pastReview
  obtain ⟨notices, -, kinds⟩ := reports.of_place rfl
  generalize forEach (fullOrder order) reviewChannel s.pastReview = t at *
  refine ⟨eq_of_offChannels frame, notices, fun j switched silent applied => ?_, fun c => ?_⟩
  · have kind := kinds j
    rwa [others j (by simp [switched, silent, applied])] at kind
  intro ch best idle
  have record : t.channels[c] = (ch.verdict s).record ch := (records c).trans (reviewed_idle s idle)
  refine ⟨fun closed => ?_, fun silent => ?_, fun p plan k active listed => ?_⟩
  · rw [record, verdict_closed s closed]
    rfl
  · exact record.trans (record_silent s silent)
  have class_ : ch.classOf k s = sourceClass s.sources[k] := classOf_listed s plan listed
  rw [record]
  refine ⟨fun onAir useless mute => ?_, fun live producing => ?_, fun live usable off => ?_, fun bridging usable => ?_,
    fun bridging producing => ?_⟩
  · exact record_absent s onAir active (class_.trans (sourceClass_absent useless mute))
  · rw [verdict_live s live active, class_, (sourceClass_producing_iff _).mpr producing]
    rfl
  · exact record_live_kept s live plan active (class_.trans ((sourceClass_usable_iff _).mpr usable)) off
  · rw [verdict_bridging s bridging active, class_, (sourceClass_usable_iff _).mpr usable]
    rfl
  · exact record_bridging_counts s bridging plan active (class_.trans ((sourceClass_producing_iff _).mpr producing))

end Sys2Proof.Machine
end

section
/-! PROOF. The REVIEW mark with a pending apply, and the reports of the only channel that is reviewed. -/

namespace Sys2Proof.Machine

/-! ## The apply at a review (R77) -/

theorem applied_staged {ch : Channel} {p : Plan} (staged : ch.stagedPlan = some p) : ch.applied =
    { ch with state := if ch.state = .closed then .silent else ch.state, livePlan := some p, stagedPlan := none,
              applyPending := false, bridgeCount := 0, revertCandidate := none, revertCount := 0 } := by
  unfold Channel.applied
  rw [staged]

/-- A review with a pending apply is the review of the channel with the plan applied (R77). -/
theorem reviewed_pending {ch : Channel} (pending : ch.applyPending = true) (s : State) : ch.reviewed s = ch.applied.reviewed s := by
  have begun : ch.begun = ch.applied := if_pos pending
  have idle : ch.applied.applyPending = false := by
    unfold Channel.applied
    split <;> rfl
  rw [reviewed_idle s idle, Channel.reviewed, begun]

/-- An active source that the applied plan leaves out is judged ABSENT (R77 step 5). -/
theorem reviewed_outside {ch : Channel} {p : Plan} {k : SourceId} (idle : ch.applyPending = false) (onAir : ch.OnAir)
    (plan : ch.livePlan = some p) (active : ch.activeSource = some k) (outside : k ∉ p.sources) (s : State) :
    ch.reviewed s = ch.reselected (bestUsable p.sources s) := by
  have live : ch.liveSources = p.sources := by
    rw [Channel.liveSources, plan]
    rfl
  have absent : ch.classOf k s = .absent := if_neg (live ▸ outside)
  rw [reviewed_idle s idle, record_absent s onAir active absent, live]

/-- The apply reports its plan with detail 1 (R83). -/
theorem reviewReport_applied {ch : Channel} (applies : ch.Applies) (c : ChannelId) (s : State) :
    ch.reviewReport c s 14 = some (c.val, 1) := by
  rw [Channel.reviewReport, Report.andThen, verdict_report_other c _ _ (by decide) (by decide), Report.when, if_pos applies]
  rfl

/-- PLAN_APPLIED stands set after a mark at which one channel applies a plan (R77). -/
theorem forEach_review_applied (l : List ChannelId) (s : State) (c : ChannelId) (mem : c ∈ l) (applies : s.channels[c].Applies) :
    ((forEach l reviewChannel s).events[(14 : EventId)]).raw = true := by
  induction l generalizing s with
  | nil => exact absurd mem List.not_mem_nil
  | cons a l ih =>
    by_cases same : c = a
    · subst same
      obtain ⟨-, -, kinds⟩ := reviewChannel_reports c s
      obtain ⟨_, ⟨⟨keeps, -⟩, -, -⟩, -⟩ := forEach_review_reportsOnly l (reviewChannel c s)
      have kind := kinds 14
      rw [reviewReport_applied applies] at kind
      exact (keeps 14).2 kind.1
    · refine ih _ (List.mem_of_ne_of_mem same mem) ?_
      rwa [reviewChannel_channels, get_set_other _ _ _ _ same]

/-! ## A mark that finds one channel to review -/

theorem reviewChannel_closed {c : ChannelId} {s : State} (closed : s.channels[c].state = .closed)
    (idle : s.channels[c].applyPending = false) : reviewChannel c s = s := by
  simp only [reviewChannel, idle, closed, if_true, if_false, Bool.false_eq_true]

theorem forEach_review_closed (l : List ChannelId) (s : State)
    (closed : ∀ j ∈ l, s.channels[j].state = .closed ∧ s.channels[j].applyPending = false) : forEach l reviewChannel s = s := by
  induction l with
  | nil => rfl
  | cons a l ih =>
    obtain ⟨shut, idle⟩ := closed a List.mem_cons_self
    rw [forEach_cons, reviewChannel_closed shut idle]
    exact ih fun j mem => closed j (List.mem_cons_of_mem _ mem)

/-- All others CLOSED, the mark is one channel's review. -/
theorem forEach_review_only (l : List ChannelId) (once : l.Nodup) {c : ChannelId} (mem : c ∈ l) (s : State)
    (closed : ∀ j : ChannelId, j ≠ c → s.channels[j].state = .closed ∧ s.channels[j].applyPending = false) :
    forEach l reviewChannel s = reviewChannel c s := by
  induction l with
  | nil => exact absurd mem List.not_mem_nil
  | cons a l ih =>
    obtain ⟨new, rest⟩ := List.nodup_cons.mp once
    rw [forEach_cons]
    by_cases same : c = a
    · subst same
      refine forEach_review_closed l _ fun j listed => ?_
      have other : j ≠ c := fun e => new (e ▸ listed)
      rw [reviewChannel_channels, get_set_other _ _ _ _ other]
      exact closed j other
    · obtain ⟨shut, idle⟩ := closed a fun e => same e.symm
      rw [reviewChannel_closed shut idle]
      exact ih rest (List.mem_of_ne_of_mem same mem)

/-! ## What one channel's review reports (R83) -/

section
variable {c : ChannelId} {ch : Channel} {s : State}

/-- Only a channel on the air has an active source (R74). -/
theorem onAir_of_active {k : SourceId} (sound : ChannelSound ch) (active : ch.activeSource = some k) : ch.OnAir := by
  obtain ⟨-, quiet, -⟩ := sound
  cases state : ch.state with
  | closed => exact absurd ((quiet (.inl state)).symm.trans active) nofun
  | silent => exact absurd ((quiet (.inr state)).symm.trans active) nofun
  | live => exact .inl state
  | bridging => exact .inr state

/-- An active source is one of the live list (R74). -/
theorem listed_of_active {k : SourceId} (sound : ChannelSound ch) (active : ch.activeSource = some k) : k ∈ ch.liveSources := by
  have onAir := onAir_of_active sound active
  obtain ⟨-, -, live, -⟩ := sound
  obtain ⟨j, named, listed⟩ := live onAir
  exact Option.some.inj (named.symm.trans active) ▸ listed

/-- The code of a cause, by what the review makes of the active source (R75, R83). -/
theorem causeIn_code (listed : ∀ k, ch.activeSource = some k → k ∈ ch.liveSources) :
    (ch.causeIn s).code = match ch.activeSource with
      | none => 1
      | some j => if Producing s.sources[j] then 3 else if Usable s.sources[j] then 4 else 2 := by
  unfold Channel.causeIn
  cases active : ch.activeSource with
  | none => rfl
  | some k =>
    dsimp only
    rw [Channel.classOf, if_pos (listed k active)]
    by_cases producing : Producing s.sources[k]
    · rw [if_pos producing, (sourceClass_producing_iff _).mpr producing]
      rfl
    · rw [if_neg producing]
      by_cases usable : Usable s.sources[k]
      · rw [if_pos usable, (sourceClass_usable_iff _).mpr usable]
        rfl
      · rw [if_neg usable, sourceClass_absent usable producing]
        rfl

theorem reviewReport_of_verdict {v : Verdict} (verdict : ch.begun.verdict s = v) {e : EventId} {d : Nat × BitVec 32}
    (report : v.report c ch.begun e = some d) : ch.reviewReport c s e = some d := by
  rw [Channel.reviewReport, Report.andThen, verdict, report]
  rfl

/-- A change of switch_count is a switch to the new active source, reported with its cause (R83). -/
theorem reviewReport_switched {k : SourceId} (sound : ChannelSound ch) (idle : ch.applyPending = false)
    (counted : (ch.reviewed s).switchCount ≠ ch.switchCount) (active : (ch.reviewed s).activeSource = some k) :
    ch.reviewReport c s 12 = some (c.val, BitVec.ofNat 32
      ((ch.causeIn s).code * 65536 + (ch.activeSource.map Fin.val).getD 255 * 256 + k.val)) := by
  obtain ⟨-, quiet, -⟩ := sound
  have begun : ch.begun = ch := if_neg (by rw [idle]; decide)
  rw [reviewed_idle s idle] at counted active
  have fits : Verdict.Fits ch s (ch.verdict s) := verdict_fits fun silent => quiet (.inr silent)
  generalize verdict : ch.verdict s = v at fits counted active
  cases fits with
  | writes same _ => exact absurd same.switchCount counted
  | silences _ _ => exact absurd rfl counted
  | takes _ _ =>
    obtain rfl := Option.some.inj active
    refine reviewReport_of_verdict (begun.symm ▸ verdict) ?_
    rw [begun]
    exact Report.one_same ..

/-- A channel that leaves the air at its review reports the source it had (R79). -/
theorem reviewReport_silenced {k : SourceId} (sound : ChannelSound ch) (active : ch.activeSource = some k)
    (silent : (ch.reviewed s).state = .silent) : ch.reviewReport c s 13 = some (c.val, BitVec.ofNat 32 k.val) := by
  have onAir := onAir_of_active sound active
  have stays : ch.begun.state = ch.state ∧ ch.begun.activeSource = ch.activeSource := by
    unfold Channel.begun Channel.applied
    rcases onAir with state | state <;> split <;> (try split) <;> simp [state]
  obtain ⟨state, source⟩ := stays
  have begunOnAir : ch.begun.OnAir := by rwa [Channel.OnAir, state]
  have fits : Verdict.Fits ch.begun s (ch.begun.verdict s) := verdict_fits fun h => by
    rcases begunOnAir with g | g <;> exact absurd (h.symm.trans g) (by decide)
  unfold Channel.reviewed at silent
  generalize verdict : ch.begun.verdict s = v at fits silent
  cases fits with
  | writes same _ =>
    have air : (Verdict.record ch.begun (.writes _)).OnAir := same.state.elim (fun h => by rwa [Channel.OnAir, Verdict.record, h]) And.right
    rcases air with g | g <;> exact absurd (silent.symm.trans g) (by decide)
  | takes _ _ => exact absurd (show ChannelState.live = .silent from silent) (by decide)
  | silences _ named =>
    obtain rfl := Option.some.inj (named.symm.trans (source.trans active))
    exact reviewReport_of_verdict verdict (Report.one_same ..)

end

/-- Settles O37: the revert step is the verdict's, the apply comes before it, and one channel's reports are the mark's. -/
theorem revertApplyAndReports : Obligations.RevertApplyAndReports := by
  intro order s running due
  obtain ⟨once, all⟩ := fullOrder_channels order
  refine ⟨_, reviewMark_taken order running due, fun c => ?_⟩
  intro ch
  have record : (forEach (fullOrder order) reviewChannel s.pastReview).channels[c] = ch.reviewed s := reviewMark_get order s.pastReview c
  refine ⟨fun idle live p plan k active listed usable revert => ?_, fun pending p staged => ?_, fun sound closed => ?_⟩
  · have class_ : ch.classOf k s = .usable := (classOf_listed s plan listed).trans ((sourceClass_usable_iff _).mpr usable)
    rw [record, reviewed_idle s idle]
    exact record_revert s live plan active class_ revert
  · intro new
    have applied : ch.reviewed s = new.reviewed s := by
      rw [reviewed_pending pending, applied_staged staged]
    refine ⟨⟨_, reviewMark_taken order running due, ?_⟩, fun k active onAir outside => ?_, ?_⟩
    · have written : (s.setChannel c new).pastReview.channels[c] = new := get_set_same _ _ _
      rw [record, applied, reviewMark_get, written]
      rfl
    · have newOnAir : new.OnAir := by
        rcases onAir with state | state <;> simp [new, Channel.OnAir, state]
      rw [record, applied, reviewed_outside rfl newOnAir rfl active outside]
    · refine forEach_review_applied _ _ c (all c) ⟨pending, ?_⟩
      exact staged ▸ Option.some_ne_none p
  · rw [record, forEach_review_only _ once (all c) s.pastReview closed]
    obtain ⟨-, -, kinds⟩ := (reviewChannel_reports c s.pastReview).of_place rfl
    have told {e : EventId} {d : Nat × BitVec 32} (report : ch.reviewReport c s e = some d) :
        Raised e d.1 d.2 s (reviewChannel c s.pastReview) := by
      have kind := kinds e
      rw [show s.pastReview.channels[c].reviewReport c s.pastReview e = some d from report] at kind
      exact kind
    refine ⟨fun pending => ?_, fun idle k counted active => ?_, fun k active silent => told (reviewReport_silenced sound active silent)⟩
    · obtain ⟨-, -, -, plan, -⟩ := sound
      exact told (reviewReport_applied ⟨pending, plan pending⟩ c s)
    · have switched := told (reviewReport_switched (c := c) sound idle counted active)
      rwa [causeIn_code fun _ => listed_of_active sound] at switched

end Sys2Proof.Machine
end

section
/-! PROOF. The requests of the channel selector: CHANNEL_STAGE, CHANNEL_APPLY, CHANNEL_CLOSE and CHANNEL_STATUS. -/

namespace Sys2Proof.Machine

/-! ## Objects named by a byte -/

/-- A body whose first field is an object's number names that object. -/
theorem toIndex_head {n : Nat} (few : n ≤ 256) (k : Fin n) (rest : List Byte) :
    toIndex n (field8 (le8 k.val ++ rest) 0) = some k := by
  rw [field8_head k.val (Nat.lt_of_lt_of_le k.isLt few), toIndex_val]

/-- The object with a number, found among all (00_scope.md, Names). -/
theorem toIndex_eq_find? {n : Nat} (x : Nat) : toIndex n x = (List.finRange n).find? (fun k => k.val = x) := by
  unfold toIndex
  split
  · next within =>
    symm
    rw [List.find?_eq_some_iff_getElem]
    refine ⟨decide_eq_true rfl, x, by rwa [List.length_finRange], by simp, fun j earlier => ?_⟩
    simpa using Nat.ne_of_lt earlier
  · next outside =>
    symm
    rw [List.find?_eq_none]
    intro k _
    simpa using fun same : k.val = x => outside (same ▸ k.isLt)

/-- Numbers in range name their objects, one each. -/
theorem filterMap_toIndex_val {n : Nat} (l : List Nat) (within : ∀ x ∈ l, x < n) : (l.filterMap (toIndex n)).map Fin.val = l := by
  induction l with
  | nil => rfl
  | cons x l ih =>
    have head : toIndex n x = some ⟨x, within x List.mem_cons_self⟩ := dif_pos _
    rw [List.filterMap_cons_some head, List.map_cons, ih fun y mem => within y (List.mem_cons_of_mem _ mem)]

theorem flatMap_le8 (l : List Nat) : l.flatMap le8 = l.map (BitVec.ofNat 8) := (List.map_eq_flatMap ..).symm

/-! ## CHANNEL_STATUS (R91) -/

/-- A plan in the reply of CHANNEL_STATUS, all zero when absent (R91). -/
def planBytes : Option Plan → List Byte
  | none => List.replicate 13 0
  | some p => [1, p.language.first, p.language.second, p.language.third] ++ le8 p.sources.length ++
      ((p.sources.map (fun k : SourceId => BitVec.ofNat 8 k.val) ++ List.replicate 4 (255 : Byte)).take 4) ++ leFlag p.revert ++
      le8 p.switchDelay ++ le16 p.revertWait

/-- The sources of a plan in its four places (R84). -/
theorem sourcePlaces_eq (l : List SourceId) : ((l.map Fin.val ++ List.replicate 4 255).take 4).flatMap le8 =
    (l.map (fun k : SourceId => BitVec.ofNat 8 k.val) ++ List.replicate 4 (255 : Byte)).take 4 := by
  rw [flatMap_le8, List.map_take, List.map_append, List.map_map]
  rfl

theorem planReport_eq_planBytes (o : Option Plan) : planReport o = planBytes o := by
  cases o with
  | none => rfl
  | some p =>
    rw [planReport, Plan.fields, sourcePlaces_eq]
    rfl

/-- The class of a source as a byte, 255 for none (R75, R91). -/
def classByte (k : Option SourceId) (s : State) : Byte :=
  match k with
  | none => 255
  | some k => if Usable s.sources[k] then 0 else if Producing s.sources[k] then 1 else 2

theorem classByte_eq (k : Option SourceId) (s : State) :
    le8 ((k.map (fun j => (sourceClass s.sources[j]).code)).getD 255) = [classByte k s] := by
  cases k with
  | none => rfl
  | some k =>
    change le8 (sourceClass s.sources[k]).code = [if Usable s.sources[k] then 0 else if Producing s.sources[k] then 1 else 2]
    by_cases usable : Usable s.sources[k]
    · rw [if_pos usable, (sourceClass_usable_iff _).mpr usable]
      rfl
    · rw [if_neg usable]
      by_cases producing : Producing s.sources[k]
      · rw [if_pos producing, (sourceClass_producing_iff _).mpr producing]
        rfl
      · rw [if_neg producing, sourceClass_absent usable producing]
        rfl

/-- The fields of CHANNEL_STATUS's reply, in the order of R91. -/
def channelStatusFields (c : ChannelId) (s : State) : List Byte :=
  let ch := s.channels[c]
  le8 c.val ++ le8 (match ch.state with | .closed => 0 | .silent => 1 | .live => 2 | .bridging => 3) ++
    leFlag ch.applyPending ++ le8 ((ch.activeSource.map Fin.val).getD 255) ++ [classByte ch.activeSource s] ++ le16 ch.bridgeCount ++
    le8 ((ch.revertCandidate.map Fin.val).getD 255) ++ le16 ch.revertCount ++ le8 ch.boundGroups ++ le16 ch.switchCount ++
    planBytes ch.livePlan ++ planBytes ch.stagedPlan

theorem takeChannelStatus_eq (c : ChannelId) (s : State) :
    takeChannelStatus (le8 c.val) s = (s, .okWith (channelStatusFields c s)) := by
  have channel : toIndex 16 (field8 (le8 c.val) 0) = some c := toIndex_head (by decide) c []
  have state : s.channels[c].state.code = match s.channels[c].state with | .closed => 0 | .silent => 1 | .live => 2 | .bridging => 3 := by
    cases s.channels[c].state <;> rfl
  rw [takeChannelStatus, channel]
  dsimp only
  rw [classByte_eq, planReport_eq_planBytes, planReport_eq_planBytes, state]
  rfl

/-- The channel is judged first: a number above 15 is refused whatever else the body holds (R84, R85, R88, R91). -/
theorem take_noChannel {r : RequestKind} (kind : r = .channelStage ∨ r = .channelApply ∨ r = .channelClose ∨ r = .channelStatus)
    {body : List Byte} (high : 15 < (body.getD 0 0).toNat) : r.take body = fun s => refuse s .noObject := by
  have absent : toIndex 16 (field8 body 0) = none := toIndex_none high
  funext s
  rcases kind with rfl | rfl | rfl | rfl
  · change takeChannelStage body s = _
    rw [takeChannelStage, absent]
  · change takeChannelApply body s = _
    rw [takeChannelApply, absent]
  · change takeChannelClose body s = _
    rw [takeChannelClose, absent]
  · change takeChannelStatus body s = _
    rw [takeChannelStatus, absent]

/-- Settles O44: the request only reads. -/
theorem channelStatusReports : Obligations.ChannelStatusReports := by
  intro tag s now
  refine ⟨fun c => ?_, fun b high => ?_⟩
  · exact exec_command_off_link .channelStatus tag _ s s (.okWith (channelStatusFields c s)) now rfl rfl
      fun l => takeChannelStatus_eq c { s with link := l }
  · exact exec_command_refused .channelStatus tag [b] s now rfl .noObject (take_noChannel (.inr (.inr (.inr rfl))) high)

/-! ## CHANNEL_STAGE (R84) -/

section
variable (c : ChannelId) (a b d n : Byte) (listed : List Byte) (rv dl : Byte) (wait : BitVec 16) (full : Bool)

/-- A body of CHANNEL_STAGE in its full or its short form (R84). -/
def stageBody : List Byte :=
  le8 c.val ++ [a, b, d, n] ++ listed ++ (if full then [rv, dl] ++ le16 wait.toNat else [])

/-- A letter A-Z (R84). -/
abbrev Letter (x : Byte) : Prop := 0x41 ≤ x.toNat ∧ x.toNat ≤ 0x5A

/-- The values that check 3 of R84 lets pass. -/
def StageGood : Prop :=
  Letter a ∧ Letter b ∧ Letter d ∧ 1 ≤ n.toNat ∧ n.toNat ≤ 4 ∧ (∀ x ∈ listed.take n.toNat, x.toNat ≤ 13) ∧
    (listed.take n.toNat).Nodup ∧ (full = true → rv.toNat ≤ 1)

/-- The plan that such a body gives (R84). -/
def stagePlan : Plan :=
  { language := { first := a, second := b, third := d },
    sources := (listed.take n.toNat).filterMap (fun x => (List.finRange 14).find? (fun k => k.val = x.toNat)),
    revert := full && decide (rv = 1), switchDelay := if full then dl.toNat else 20,
    revertWait := if full then max 1 (min 1000 wait.toNat) else 100 }

variable (four : listed.length = 4)
include four

theorem stageBody_length : channelStageLength (stageBody c a b d n listed rv dl wait full) = true := by
  unfold channelStageLength stageBody
  cases full <;> simp [four, le8, le16]

/-- The source numbers listed, as far as the body's four places reach. -/
theorem listedSources_stageBody (few : n.toNat ≤ 4) :
    listedSources (stageBody c a b d n listed rv dl wait full) = (listed.take n.toNat).map BitVec.toNat := by
  obtain ⟨w, x, y, z, rfl⟩ : ∃ w x y z, listed = [w, x, y, z] := by
    match listed, four with
    | [w, x, y, z], _ => exact ⟨w, x, y, z, rfl⟩
  have count : field8 (stageBody c a b d n [w, x, y, z] rv dl wait full) 4 = n.toNat := rfl
  unfold listedSources
  rw [count]
  generalize n.toNat = m at few
  interval_cases m <;> rfl

/-- The fields that only the full form has (R84). -/
theorem stageBody_full : let body := stageBody c a b d n listed rv dl wait full
    decide (body.length = 13) = full ∧ (full = true → field8 body 9 = rv.toNat ∧ field8 body 10 = dl.toNat ∧ field16 body 11 = wait.toNat) := by
  obtain ⟨w, x, y, z, rfl⟩ : ∃ w x y z, listed = [w, x, y, z] := by
    match listed, four with
    | [w, x, y, z], _ => exact ⟨w, x, y, z, rfl⟩
  cases full with
  | false => exact ⟨rfl, nofun⟩
  | true => exact ⟨rfl, fun _ => ⟨rfl, rfl, le16_value _ wait.isLt⟩⟩

/-- The tests of check 3 are those of the claims (R84). -/
theorem planOf_tests : let body := stageBody c a b d n listed rv dl wait full
    (isLetter a = true ∧ isLetter b = true ∧ isLetter d = true ∧ 1 ≤ n.toNat ∧ n.toNat ≤ 4 ∧ (∀ k ∈ listedSources body, k ≤ 13) ∧
      (listedSources body).Nodup ∧ (if full then field8 body 9 else 0) ≤ 1) ↔ StageGood a b d n listed rv full := by
  intro body
  have letter (x : Byte) : isLetter x = true ↔ Letter x := decide_eq_true_iff
  have flag : (if full then field8 body 9 else 0) ≤ 1 ↔ (full = true → rv.toNat ≤ 1) := by
    obtain ⟨-, fields⟩ := stageBody_full c a b d n listed rv dl wait full four
    cases full with
    | false => exact ⟨fun _ => nofun, fun _ => Nat.zero_le 1⟩
    | true =>
      obtain ⟨revert, -⟩ := fields rfl
      rw [if_pos rfl, revert]
      exact ⟨fun h _ => h, fun h => h rfl⟩
  by_cases few : n.toNat ≤ 4
  · have sources : listedSources body = (listed.take n.toNat).map BitVec.toNat :=
      listedSources_stageBody c a b d n listed rv dl wait full four few
    have once : (listedSources body).Nodup ↔ (listed.take n.toNat).Nodup := by
      rw [sources]
      exact List.nodup_map_iff fun _ _ => BitVec.eq_of_toNat_eq
    have within : (∀ k ∈ listedSources body, k ≤ 13) ↔ ∀ x ∈ listed.take n.toNat, x.toNat ≤ 13 := by
      rw [sources, List.forall_mem_map]
    unfold StageGood
    rw [letter, letter, letter, once, within, flag]
  · refine iff_of_false ?_ ?_
    · rintro ⟨-, -, -, -, count, -⟩
      exact few count
    · rintro ⟨-, -, -, -, count, -⟩
      exact few count

theorem planOf_good (good : StageGood a b d n listed rv full) :
    planOf (stageBody c a b d n listed rv dl wait full) = some (stagePlan a b d n listed rv dl wait full) := by
  have tests := (planOf_tests c a b d n listed rv dl wait full four).mpr good
  obtain ⟨form, fields⟩ := stageBody_full c a b d n listed rv dl wait full four
  obtain ⟨-, -, -, -, few, -⟩ := good
  have sources := listedSources_stageBody c a b d n listed rv dl wait full four few
  have named : ((listed.take n.toNat).map BitVec.toNat).filterMap (toIndex 14) =
      (listed.take n.toNat).filterMap (fun x => (List.finRange 14).find? (fun k => k.val = x.toNat)) := by
    rw [List.filterMap_map]
    exact congrArg (fun f => (listed.take n.toNat).filterMap f) (funext fun x => toIndex_eq_find? x.toNat)
  unfold planOf
  dsimp only
  rw [form]
  refine (if_pos tests).trans ?_
  rw [sources, named]
  unfold stagePlan
  cases full with
  | false => rfl
  | true =>
    obtain ⟨revert, delay, waits⟩ := fields rfl
    have on : decide (field8 (stageBody c a b d n listed rv dl wait true) 9 = 1) = decide (rv = 1) := by
      rw [revert]
      exact decide_eq_decide.mpr (byte_eq_one_iff rv).symm
    simp only [if_true, delay, waits, on, Bool.true_and]
    rfl

theorem planOf_bad (bad : ¬ StageGood a b d n listed rv full) : planOf (stageBody c a b d n listed rv dl wait full) = none := by
  obtain ⟨form, -⟩ := stageBody_full c a b d n listed rv dl wait full four
  unfold planOf
  dsimp only
  rw [form]
  exact if_neg fun tests => bad ((planOf_tests c a b d n listed rv dl wait full four).mp tests)

/-- The fields of a staged plan in the reply, with unused places sent as 255 (R84). -/
theorem stagePlan_fields (good : StageGood a b d n listed rv full) : (stagePlan a b d n listed rv dl wait full).fields =
    [a, b, d, n] ++ listed.take n.toNat ++ List.replicate (4 - n.toNat) 255 ++ leFlag (full && decide (rv = 1)) ++
      le8 (if full then dl.toNat else 20) ++ le16 (if full then max 1 (min 1000 wait.toNat) else 100) := by
  obtain ⟨-, -, -, -, few, within, -⟩ := good
  have count : (listed.take n.toNat).length = n.toNat := List.length_take_of_le (by omega)
  have named : (stagePlan a b d n listed rv dl wait full).sources.map Fin.val = (listed.take n.toNat).map BitVec.toNat := by
    have ids := filterMap_toIndex_val (n := 14) ((listed.take n.toNat).map BitVec.toNat) (by
      intro x mem
      obtain ⟨y, listed, rfl⟩ := List.mem_map.mp mem
      exact Nat.lt_succ_of_le (within y listed))
    rw [List.filterMap_map] at ids
    refine Eq.trans ?_ ids
    refine congrArg (fun f => ((listed.take n.toNat).filterMap f).map Fin.val) (funext fun x => ?_)
    exact (toIndex_eq_find? x.toNat).symm
  have length : (stagePlan a b d n listed rv dl wait full).sources.length = n.toNat := by
    rw [← List.length_map Fin.val, named, List.length_map, count]
  have places : (((listed.take n.toNat).map BitVec.toNat ++ List.replicate 4 255).take 4).flatMap le8 =
      listed.take n.toNat ++ List.replicate (4 - n.toNat) 255 := by
    have bytes : (BitVec.ofNat 8 ∘ BitVec.toNat : Byte → Byte) = id := funext fun x => BitVec.eq_of_toNat_eq (by simp)
    rw [flatMap_le8, List.take_append, List.take_of_length_le (by rw [List.length_map, count]; exact few), List.length_map, count,
      List.take_replicate, List.map_append, List.map_map, bytes, List.map_id, List.map_replicate, Nat.min_eq_left (by omega)]
    rfl
  rw [Plan.fields, length, named, places]
  have byte : le8 n.toNat = [n] := by rw [le8, BitVec.ofNat_toNat, BitVec.setWidth_eq]
  rw [byte]
  simp [Language.bytes, stagePlan]

end

section
variable {c : ChannelId} {body : List Byte} {s : State} (channel : toIndex 16 (field8 body 0) = some c)
include channel

theorem takeChannelStage_pending (pending : s.channels[c].applyPending = true) : takeChannelStage body s = refuse s .pending := by
  rw [takeChannelStage, channel]
  exact if_pos pending

theorem takeChannelStage_bad (idle : s.channels[c].applyPending = false) (bad : planOf body = none) :
    takeChannelStage body s = refuse s .badValue := by
  rw [takeChannelStage, channel]
  dsimp only
  rw [idle, bad]
  rfl

theorem takeChannelStage_good {p : Plan} (idle : s.channels[c].applyPending = false) (good : planOf body = some p) :
    takeChannelStage body s =
      (s.setChannel c { s.channels[c] with stagedPlan := some p }, .okWith (le8 c.val ++ p.fields)) := by
  rw [takeChannelStage, channel]
  dsimp only
  rw [idle, good]
  rfl

/-! ## CHANNEL_APPLY and CHANNEL_CLOSE (R85, R88) -/

theorem takeChannelApply_pending (pending : s.channels[c].applyPending = true) : takeChannelApply body s = refuse s .pending := by
  rw [takeChannelApply, channel]
  exact if_pos pending

theorem takeChannelApply_nothing (idle : s.channels[c].applyPending = false) (nothing : s.channels[c].stagedPlan = none) :
    takeChannelApply body s = refuse s .wrongState := by
  rw [takeChannelApply, channel]
  dsimp only
  rw [idle, nothing]
  rfl

theorem takeChannelApply_waits (idle : s.channels[c].applyPending = false) (staged : s.channels[c].stagedPlan ≠ none)
    (running : s.air.running = true) : takeChannelApply body s =
      (s.setChannel c { s.channels[c] with applyPending := true }, { status := .accepted, fields := [] }) := by
  rw [takeChannelApply, channel]
  dsimp only
  rw [idle, if_neg staged, running]
  rfl

theorem takeChannelApply_applies (idle : s.channels[c].applyPending = false) (staged : s.channels[c].stagedPlan ≠ none)
    (stopped : s.air.running = false) : takeChannelApply body s = (applyPlan c 2 s, .okWith []) := by
  rw [takeChannelApply, channel]
  dsimp only
  rw [idle, if_neg staged, stopped]
  rfl

theorem takeChannelClose_bound (bound : 0 < s.channels[c].boundGroups) : takeChannelClose body s = refuse s .conflict := by
  rw [takeChannelClose, channel]
  exact if_pos bound

theorem takeChannelClose_closes (free : s.channels[c].boundGroups = 0) : takeChannelClose body s =
    (s.setChannel c { Channel.initial with switchCount := s.channels[c].switchCount }, .okWith []) := by
  rw [takeChannelClose, channel]
  dsimp only
  rw [free]
  rfl

end

/-- An apply writes the record with the plan live and reports it (R77, R83). -/
theorem applyPlan_reported {c : ChannelId} {s : State} (staged : s.channels[c].stagedPlan ≠ none) (detail : Nat) :
    applyPlan c detail s = reported 14 c.val (BitVec.ofNat 32 detail) (s.setChannel c s.channels[c].applied) := by
  rw [applyPlan_eq, if_neg staged, ← raise_setChannel]
  exact raiseKind_eq_reported ..

/-- Settles O43: each request's checks in their order, and what is left of the channel when they pass. -/
theorem channelStageApplyClose : Obligations.ChannelStageApplyClose := by
  intro tag s now
  refine ⟨fun c a b d listed n rv dl wait full four => ?_, fun body len high => ?_, fun c => ?_, fun b high => ⟨?_, ?_⟩⟩
  · intro ch body letter used good
    have len : channelStageLength body = true := stageBody_length c a b d n listed rv dl wait full four
    have channel : toIndex 16 (field8 body 0) = some c := toIndex_head (by decide) c ([a, b, d, n] ++ listed ++ _)
    refine ⟨fun pending => ?_, fun idle bad => ?_, fun idle passes => ?_⟩
    · exact exec_command_off_link .channelStage tag body s s (.bare .pending) now len rfl
        fun l => takeChannelStage_pending (s := { s with link := l }) channel pending
    · exact exec_command_off_link .channelStage tag body s s (.bare .badValue) now len rfl
        fun l => takeChannelStage_bad (s := { s with link := l }) channel idle (planOf_bad c a b d n listed rv dl wait full four bad)
    · intro p
      have plan : planOf body = some p := planOf_good c a b d n listed rv dl wait full four passes
      have sent : le8 c.val ++ p.fields = le8 c.val ++ [a, b, d, n] ++ used ++ List.replicate (4 - n.toNat) 255 ++ leFlag p.revert ++
          le8 p.switchDelay ++ le16 p.revertWait := by
        rw [show p.fields = _ from stagePlan_fields a b d n listed rv dl wait full four passes]
        simp only [List.append_assoc]
        rfl
      refine exec_command_off_link .channelStage tag body s (s.setChannel c { ch with stagedPlan := some p }) (.okWith _) now len rfl
        fun l => (takeChannelStage_good (s := { s with link := l }) channel idle plan).trans ?_
      rw [sent]
      rfl
  · exact exec_command_refused .channelStage tag body s now (decide_eq_true len) .noObject (take_noChannel (.inl rfl) high)
  · intro ch applied closed
    have channel : toIndex 16 (field8 (le8 c.val) 0) = some c := toIndex_head (by decide) c []
    refine ⟨fun pending => ?_, fun idle nothing => ?_, fun idle staged running => ?_, fun p idle staged stopped => ?_,
      fun bound => ?_, fun free => ?_⟩
    · exact exec_command_off_link .channelApply tag _ s s (.bare .pending) now rfl rfl
        fun l => takeChannelApply_pending (s := { s with link := l }) channel pending
    · exact exec_command_off_link .channelApply tag _ s s (.bare .wrongState) now rfl rfl
        fun l => takeChannelApply_nothing (s := { s with link := l }) channel idle nothing
    · exact exec_command_off_link .channelApply tag _ s (s.setChannel c { ch with applyPending := true })
        { status := .accepted, fields := [] } now rfl rfl
        fun l => takeChannelApply_waits (s := { s with link := l }) channel idle staged running
    · have some : ch.stagedPlan ≠ none := staged ▸ Option.some_ne_none p
      have record : ch.applied = applied p := by
        rw [applied_staged staged, ← idle]
      have work (t : State) (same : t.channels = s.channels) (air : t.air = s.air) : takeChannelApply (le8 c.val) t =
          (reported 14 c.val 2 (t.setChannel c (applied p)), .okWith []) := by
        rw [takeChannelApply_applies channel (by rwa [same]) (by rwa [same]) (by rwa [air]), applyPlan_reported (by rwa [same]), same,
          show s.channels[c].applied = applied p from record]
        rfl
      exact exec_command_taken .channelApply tag _ s _ now rfl (.okWith [])
        (congrArg Prod.snd (work (s.addOutbound .reserved) rfl rfl)) (congrArg Prod.fst (work (replied 0x19 tag 0x00 [] s) rfl rfl))
    · exact exec_command_off_link .channelClose tag _ s s (.bare .conflict) now rfl rfl
        fun l => takeChannelClose_bound (s := { s with link := l }) channel bound
    · exact exec_command_off_link .channelClose tag _ s (s.setChannel c closed) (.okWith []) now rfl rfl
        fun l => takeChannelClose_closes (s := { s with link := l }) channel free
  · exact exec_command_refused .channelApply tag [b] s now rfl .noObject (take_noChannel (.inr (.inl rfl)) high)
  · exact exec_command_refused .channelClose tag [b] s now rfl .noObject (take_noChannel (.inr (.inr (.inl rfl))) high)

end Sys2Proof.Machine
end

section
/-! PROOF. The requests of the fleet: DEVICE_READ, DEVICE_FORGET, GROUP_OPEN, GROUP_CLOSE and GROUP_STATUS. -/

namespace Sys2Proof.Machine

/-! ## Fields of a body -/

theorem field32_le32 (x : BitVec 32) : field32 (le32 x.toNat) 0 = x.toNat := le32_value _ x.isLt

/-! ## The device table in the order of its ids (R145, R146) -/

/-- The order of DEVICE_READ by place. -/
abbrev IdLe (d e : Device) : Prop := d.id.toNat ≤ e.id.toNat

theorem insertById_eq (d : Device) (l : List Device) : insertById d l = l.orderedInsert IdLe d := by
  induction l with
  | nil => rfl
  | cons e l ih => rw [insertById, List.orderedInsert_cons, ih]

theorem devicesById_eq (s : State) : devicesById s = s.devices.insertionSort IdLe :=
  congrArg (fun f => s.devices.foldr f []) (funext fun d => funext fun l => insertById_eq d l)

theorem devicesById_perm (s : State) : (devicesById s).Perm s.devices := devicesById_eq s ▸ List.perm_insertionSort IdLe s.devices

theorem devicesById_ordered (s : State) : (devicesById s).Pairwise IdLe := by
  have total : Std.Total IdLe := ⟨fun d e => Nat.le_total d.id.toNat e.id.toNat⟩
  have transitive : IsTrans Device IdLe := ⟨fun _ _ _ => Nat.le_trans⟩
  exact devicesById_eq s ▸ List.pairwise_insertionSort IdLe s.devices

/-- In a table ordered by distinct ids, a record stands behind those of a smaller id. -/
theorem getElem?_count_smaller {l : List Device} (ordered : l.Pairwise IdLe) (distinct : (l.map Device.id).Nodup) {d : Device}
    (mem : d ∈ l) : l[(l.filter (fun e => e.id.toNat < d.id.toNat)).length]? = some d := by
  obtain ⟨before, after, rfl⟩ := List.append_of_mem mem
  obtain ⟨-, tail, across⟩ := List.pairwise_append.mp ordered
  obtain ⟨rest, -⟩ := List.pairwise_cons.mp tail
  have apart : ∀ e ∈ before, e.id ≠ d.id := by
    intro e earlier same
    rw [List.map_append, List.map_cons] at distinct
    exact List.disjoint_of_nodup_append distinct (List.mem_map_of_mem earlier) (same ▸ List.mem_cons_self)
  have smaller : before.filter (fun e => e.id.toNat < d.id.toNat) = before := List.filter_eq_self.mpr fun e earlier =>
    decide_eq_true (Nat.lt_of_le_of_ne (across e earlier d List.mem_cons_self) fun same =>
      apart e earlier (BitVec.eq_of_toNat_eq same))
  have none : (d :: after).filter (fun e => e.id.toNat < d.id.toNat) = [] := List.filter_eq_nil_iff.mpr fun e later => by
    rcases List.mem_cons.mp later with rfl | later
    · simp
    · simpa using rest e later
  rw [List.filter_append, smaller, none, List.append_nil, List.getElem?_append_right (Nat.le_refl _), Nat.sub_self]
  rfl

/-- The record at a place in increasing order of id. -/
theorem devicesById_get {s : State} (sound : DevicesSound s) {d : Device} (mem : d ∈ s.devices) :
    (devicesById s)[(s.devices.filter (fun e => e.id.toNat < d.id.toNat)).length]? = some d := by
  have same := devicesById_perm s
  obtain ⟨-, distinct, -⟩ := sound
  rw [← (same.filter _).length_eq]
  exact getElem?_count_smaller (devicesById_ordered s) ((same.map Device.id).nodup_iff.mpr distinct) (same.mem_iff.mpr mem)

theorem device?_of_mem {s : State} (sound : DevicesSound s) {d : Device} (mem : d ∈ s.devices) : s.device? d.id = some d := by
  unfold State.device?
  have found : (s.devices.find? (fun e => e.id = d.id)).isSome := List.find?_isSome.mpr ⟨d, mem, decide_eq_true rfl⟩
  obtain ⟨e, at_e⟩ := Option.isSome_iff_exists.mp found
  have same : e.id = d.id := by simpa using List.find?_some at_e
  rw [at_e, eq_of_id_eq sound (List.mem_of_find?_eq_some at_e) mem same]

theorem device?_none {s : State} {id : DeviceId} (absent : ∀ d ∈ s.devices, d.id ≠ id) : s.device? id = none :=
  List.find?_eq_none.mpr fun d mem => by simpa using absent d mem

/-! ## DEVICE_READ and DEVICE_FORGET (R146, R147) -/

section
variable {s : State}

theorem takeDeviceRead_id (id : DeviceId) : takeDeviceRead (le32 id.toNat) s =
    (s.device? id).elim (refuse s .noObject) fun d => (s, .okWith (d.fields s.devices.length)) := by
  rw [takeDeviceRead, if_pos (show (le32 id.toNat).length = 4 from rfl), field32_le32, BitVec.ofNat_toNat, BitVec.setWidth_eq]
  cases s.device? id <;> rfl

theorem takeDeviceRead_place {n : Nat} (small : n < 65536) : takeDeviceRead (le16 n) s =
    (devicesById s)[n]?.elim (refuse s .noObject) fun d => (s, .okWith (d.fields s.devices.length)) := by
  rw [takeDeviceRead, if_neg (show (le16 n).length ≠ 4 from show 2 ≠ 4 by decide), show field16 (le16 n) 0 = n from le16_value n small]
  cases (devicesById s)[n]? <;> rfl

theorem takeDeviceForget_id (id : DeviceId) : takeDeviceForget (le32 id.toNat) s =
    (s.device? id).elim (refuse s .noObject) fun d => if d.state ≠ .unseen then refuse s .wrongState else
      ({ s with devices := s.devices.filter (fun e => e.id ≠ d.id) },
        .okWith (le16 (s.devices.filter (fun e => e.id ≠ d.id)).length)) := by
  rw [takeDeviceForget, field32_le32, BitVec.ofNat_toNat, BitVec.setWidth_eq]
  cases s.device? id <;> rfl

end

/-! ## GROUP_OPEN, GROUP_CLOSE and GROUP_STATUS (R148, R149, R150) -/

section
variable (g : GroupId) (c : ChannelId) {s : State}

theorem group_named (rest : List Byte) : toIndex 24 (field8 (le8 g.val ++ rest) 0) = some g := toIndex_head (by decide) g rest

theorem takeGroupOpen_named : takeGroupOpen (le8 g.val ++ le8 c.val) s =
    if s.groups[g].state ≠ .free then refuse s .wrongState
    else if s.channels[c].state = .closed then refuse s .wrongState
    else ((s.setGroup g { state := .opened, channel := some c, outCount := 0, issueHandle := none, lastIssue := none }).modBound c
      (fun n => n + 1), .okWith (le8 g.val ++ le8 c.val)) := by
  have channel : toIndex 16 (field8 (le8 g.val ++ le8 c.val) 1) = some c := toIndex_head (by decide) c []
  rw [takeGroupOpen, group_named, channel]

theorem takeGroupOpen_nowhere {b d : Byte} (high : 23 < b.toNat ∨ 15 < d.toNat) :
    takeGroupOpen [b, d] s = refuse s .noObject := by
  unfold takeGroupOpen
  rcases high with high | high
  · rw [show toIndex 24 (field8 [b, d] 0) = none from toIndex_none high]
  · rw [show toIndex 16 (field8 [b, d] 1) = none from toIndex_none high]
    cases toIndex 24 (field8 [b, d] 0) <;> rfl

theorem takeGroupClose_named : takeGroupClose (le8 g.val) s =
    if s.groups[g].state = .free then refuse s .wrongState
    else if s.groups[g].issueHandle.isSome then refuse s .busy
    else if s.groups[g].state = .opened ∧ s.groups[g].outCount = 0 then (freeGroup g s, .okWith [0])
    else (s.setGroup g { s.groups[g] with state := .closing }, .okWith [2]) := by
  rw [takeGroupClose, show toIndex 24 (field8 (le8 g.val) 0) = some g from group_named g []]
  rfl

theorem freeGroup_bound {c : ChannelId} (bound : s.groups[g].channel = some c) : freeGroup g s =
    (s.setGroup g { s.groups[g] with state := .free, channel := none }).modBound c (fun n => n - 1) := by
  rw [freeGroup, bound]

/-- The fields of GROUP_STATUS's reply, in the order of R150. -/
def groupStatusFields (s : State) : List Byte :=
  let x := s.groups[g]
  le8 g.val ++ le8 (match x.state with | .free => 0 | .opened => 1 | .closing => 2) ++ le8 ((x.channel.map Fin.val).getD 255) ++
    le16 x.outCount ++ le8 (x.issueHandle.getD 0) ++ leFlag x.lastIssue.isSome ++
    (match x.lastIssue with
      | none => [0, 0, 0, 0]
      | some l => le8 l.issued ++ le8 l.count ++ leFlag l.retuned ++ leFlag l.cancelled)

theorem takeGroupStatus_named : takeGroupStatus (le8 g.val) s = (s, .okWith (groupStatusFields g s)) := by
  rw [takeGroupStatus, show toIndex 24 (field8 (le8 g.val) 0) = some g from group_named g []]
  unfold groupStatusFields
  dsimp only
  have state : s.groups[g].state.code = match s.groups[g].state with | .free => 0 | .opened => 1 | .closing => 2 := by
    cases s.groups[g].state <;> rfl
  rw [state]
  cases s.groups[g].lastIssue with
  | none => rfl
  | some l => simp only [Option.getD_some, List.append_assoc]; rfl

end

/-- Settles O58: every request by its checks in their order; what each leaves is the state it is called in but for the records named. -/
theorem fleetRequests : Obligations.FleetRequests := by
  intro tag s now sound
  refine ⟨fun d mem => ?_, fun id absent => ⟨?_, ?_⟩, fun n past => ?_, fun b c high => ?_, fun b high => ⟨?_, ?_⟩, fun g => ?_⟩
  · intro roster or255 fields others
    have found := device?_of_mem sound mem
    have record : d.fields s.devices.length = fields := by
      have kind : d.kind.code = match d.kind with | .receiver => 0 | .mic => 1 := by cases d.kind <;> rfl
      have state : d.state.code = match d.state with | .docked => 0 | .out => 1 | .unseen => 2 := by cases d.state <;> rfl
      have clear : d.clearState.code = match d.clearState with | .none => 0 | .owed => 1 | .queued => 2 := by
        cases d.clearState <;> rfl
      rw [Device.fields, kind, state, clear]
      simp only [indexOr255, Option.map_map]
      rfl
    refine ⟨?_, ?_, ?_⟩
    · refine exec_command_off_link .deviceRead tag _ s s (.okWith fields) now rfl rfl fun l => ?_
      refine (takeDeviceRead_id d.id).trans ?_
      rw [show ({ s with link := l } : State).device? d.id = some d from found, ← record]
      rfl
    · have few : (s.devices.filter (fun e => e.id.toNat < d.id.toNat)).length < 65536 :=
        Nat.lt_of_le_of_lt (Nat.le_trans (List.length_filter_le ..) sound.1) (by decide)
      refine exec_command_off_link .deviceRead tag _ s s (.okWith fields) now rfl rfl fun l => ?_
      refine (takeDeviceRead_place few).trans ?_
      rw [show (devicesById { s with link := l })[_]? = some d from devicesById_get sound mem, ← record]
      rfl
    · by_cases unseen : d.state = .unseen
      · rw [if_pos unseen]
        refine exec_command_off_link .deviceForget tag _ s { s with devices := others } (.okWith (le16 others.length)) now rfl rfl
          fun l => ?_
        refine (takeDeviceForget_id d.id).trans ?_
        rw [show ({ s with link := l } : State).device? d.id = some d from found]
        exact if_neg (not_not_intro unseen)
      · rw [if_neg unseen]
        refine exec_command_off_link .deviceForget tag _ s s (.bare .wrongState) now rfl rfl fun l => ?_
        refine (takeDeviceForget_id d.id).trans ?_
        rw [show ({ s with link := l } : State).device? d.id = some d from found]
        exact if_pos unseen
  · refine exec_command_off_link .deviceRead tag _ s s (.bare .noObject) now rfl rfl fun l => ?_
    refine (takeDeviceRead_id id).trans ?_
    rw [show ({ s with link := l } : State).device? id = none from device?_none absent]
    rfl
  · refine exec_command_off_link .deviceForget tag _ s s (.bare .noObject) now rfl rfl fun l => ?_
    refine (takeDeviceForget_id id).trans ?_
    rw [show ({ s with link := l } : State).device? id = none from device?_none absent]
    rfl
  · refine exec_command_off_link .deviceRead tag _ s s (.bare .noObject) now rfl rfl fun l => ?_
    refine (takeDeviceRead_place n.isLt).trans ?_
    rw [show (devicesById { s with link := l })[n.toNat]? = none from
      List.getElem?_eq_none ((devicesById_perm s).length_eq ▸ past)]
    rfl
  · exact exec_command_refused .groupOpen tag [b, c] s now rfl .noObject (funext fun t => takeGroupOpen_nowhere high)
  · refine exec_command_refused .groupClose tag [b] s now rfl .noObject (funext fun t => ?_)
    change takeGroupClose [b] t = _
    rw [takeGroupClose, show toIndex 24 (field8 [b] 0) = none from toIndex_none high]
  · refine exec_command_refused .groupStatus tag [b] s now rfl .noObject (funext fun t => ?_)
    change takeGroupStatus [b] t = _
    rw [takeGroupStatus, show toIndex 24 (field8 [b] 0) = none from toIndex_none high]
  · intro x
    refine ⟨fun c => ⟨fun barred => ?_, fun free opened => ?_⟩, fun free => ?_, fun used issuing => ?_,
      fun c opened idle home bound => ?_, fun leaving idle => ?_, ?_⟩
    · refine exec_command_off_link .groupOpen tag _ s s (.bare .wrongState) now rfl rfl fun l => (takeGroupOpen_named g c).trans ?_
      rcases barred with used | closed
      · exact if_pos used
      · exact (if_congr Iff.rfl rfl (if_pos closed)).trans (ite_self _)
    · refine exec_command_off_link .groupOpen tag _ s _ (.okWith (le8 g.val ++ le8 c.val)) now rfl rfl
        fun l => (takeGroupOpen_named g c).trans ?_
      exact (if_neg (not_not_intro free)).trans (if_neg opened)
    · refine exec_command_off_link .groupClose tag _ s s (.bare .wrongState) now rfl rfl fun l => (takeGroupClose_named g).trans ?_
      exact if_pos free
    · refine exec_command_off_link .groupClose tag _ s s (.bare .busy) now rfl rfl fun l => (takeGroupClose_named g).trans ?_
      exact (if_neg used).trans (if_pos (Option.isSome_iff_ne_none.mpr issuing))
    · have used : x.state ≠ .free := opened ▸ nofun
      have quiet : ¬ x.issueHandle.isSome := idle ▸ nofun
      refine exec_command_off_link .groupClose tag _ s _ (.okWith [0]) now rfl rfl fun l => (takeGroupClose_named g).trans ?_
      refine (if_neg used).trans ((if_neg quiet).trans
        ((if_pos ⟨opened, home⟩).trans ?_))
      exact congrArg (·, Reply.okWith [0]) (freeGroup_bound g (s := { s with link := l }) bound)
    · have used : x.state ≠ .free := by
        rcases leaving with closing | ⟨opened, -⟩
        · exact closing ▸ nofun
        · exact opened ▸ nofun
      have quiet : ¬ x.issueHandle.isSome := idle ▸ nofun
      have out : ¬ (x.state = .opened ∧ x.outCount = 0) := by
        rintro ⟨opened, home⟩
        rcases leaving with closing | ⟨-, some⟩
        · exact absurd (opened.symm.trans closing) nofun
        · exact some home
      refine exec_command_off_link .groupClose tag _ s _ (.okWith [2]) now rfl rfl fun l => (takeGroupClose_named g).trans ?_
      exact (if_neg used).trans ((if_neg quiet).trans (if_neg out))
    · exact exec_command_off_link .groupStatus tag _ s s (.okWith (groupStatusFields g s)) now rfl rfl
        fun l => takeGroupStatus_named g

end Sys2Proof.Machine
end

section
/-! PROOF. The work that moves no group, touches neither channel nor air, and leaves the event unit's records in agreement: raises, the
sources and the notices. -/

namespace Sys2Proof.Machine

/-! ## What the laws of channels, bindings, events and air are about -/

/-- The groups as the binding law sees them: of each its state and its channel (R87). -/
def State.seats (s : State) : Vector (GroupState × Option ChannelId) 24 := s.groups.map fun x => (x.state, x.channel)

/-- What the laws of the channels, of the bindings and of the air are about. -/
def State.halls (s : State) : Vector Channel 16 × Vector (GroupState × Option ChannelId) 24 × Air := (s.channels, s.seats, s.air)

/-- The work moves no group and touches neither channel nor air, and it keeps the event unit's records in agreement. -/
structure Tame (s t : State) : Prop where
  halls : t.halls = s.halls
  events : EventsSound s → EventsSound t

/-- One kind's record as the law of events has it (R164, R168). -/
def EventKindState.Agrees (x : EventKindState) : Prop :=
  x.repeats ≤ 255 ∧ (x.raw = false → x.repeats = 0) ∧ (x.raw = true → x.latest ≠ none)

theorem agrees_raised {x : EventKindState} (agrees : x.Agrees) (l : LatestRecord) : (x.raised l).Agrees := by
  obtain ⟨few, -, -⟩ := agrees
  refine ⟨?_, nofun, fun _ => Option.some_ne_none l⟩
  unfold EventKindState.raised
  split
  · exact Nat.min_le_left ..
  · exact few

theorem eventsSound_set {s t : State} {k : EventId} {x : EventKindState} (sound : EventsSound s) (agrees : x.Agrees)
    (events : t.events = s.events.set k x) : EventsSound t := by
  intro j
  change (t.events[j]).Agrees
  rw [events, get_set_cases]
  split
  · exact agrees
  · exact sound j

namespace Tame

theorem refl (s : State) : Tame s s := ⟨rfl, id⟩

theorem channels_eq {s t : State} (h : Tame s t) : t.channels = s.channels := congrArg (fun v => v.1) h.halls
theorem seats_eq {s t : State} (h : Tame s t) : t.seats = s.seats := congrArg (fun v => v.2.1) h.halls
theorem air_eq {s t : State} (h : Tame s t) : t.air = s.air := congrArg (fun v => v.2.2) h.halls

theorem of_same {s t : State} (halls : t.halls = s.halls) (events : t.events = s.events) : Tame s t := by
  refine ⟨halls, fun sound => ?_⟩
  unfold EventsSound
  rwa [events]

section
variable {s t : State}

theorem trans {u : State} (h : Tame s t) (g : Tame t u) : Tame s u :=
  ⟨g.halls.trans h.halls, g.events ∘ h.events⟩

/-- Work on other parts of the state. -/
theorem aside {u : State} (h : Tame s t) (halls : u.halls = t.halls) (events : u.events = t.events) : Tame s u :=
  h.trans (.of_same halls events)

/-- The charge controller and the rack bus touch the racks, the slots and the bus alone. -/
theorem offRacks {u : State} (h : Tame s t) (same : u.offRacks = t.offRacks) : Tame s u :=
  h.aside (congrArg State.halls same : u.offRacks.halls = t.offRacks.halls) (congrArg State.events same : u.offRacks.events = _)

theorem forEach {α : Type} {f : α → State → State} (step : ∀ (a : α) {u : State}, Tame s u → Tame s (f a u)) (l : List α)
    (h : Tame s t) : Tame s (Machine.forEach l f t) := forEach_keeps (Tame s) f (fun a _ => step a) l t h

/-! ## Raises and the records of groups -/

theorem setEvent {k : EventId} {x : EventKindState} (h : Tame s t) (keeps : (t.events[k]).Agrees → x.Agrees) :
    Tame s (t.setEvent k x) :=
  h.trans ⟨rfl, fun sound => eventsSound_set sound (keeps (sound k)) rfl⟩

theorem raiseKind {k : EventId} {o : Nat} {d : BitVec 32} {b : Bool} (h : Tame s t) : Tame s (Machine.raiseKind k o d b t) := by
  refine h.trans ⟨?_, fun sound => eventsSound_set sound (agrees_raised (sound k) _) (raiseKind_events ..)⟩
  rw [raiseKind_eq]
  rfl

theorem raise {k : EventKind} {o d : Nat} (h : Tame s t) : Tame s (Machine.raise k o d t) := h.raiseKind

theorem raiseInt {k : EventKind} {o : Nat} {d : Int} (h : Tame s t) : Tame s (Machine.raiseInt k o d t) := h.raiseKind

theorem offerNotice {k : EventId} (h : Tame s t) : Tame s (Machine.offerNotice k t) := by
  unfold Machine.offerNotice addNotice
  split
  · split
    · exact h.aside rfl rfl
    · exact h
  · exact h

/-- A group's record changes, but for its state and its channel. -/
theorem setGroup {g : GroupId} {x : Group} (h : Tame s t) (state : x.state = (t.groups[g]).state)
    (channel : x.channel = (t.groups[g]).channel) : Tame s (t.setGroup g x) := by
  refine h.aside ?_ rfl
  have seats : (t.setGroup g x).seats = t.seats := by
    unfold State.seats
    refine Vector.ext fun i bound => ?_
    rw [Vector.getElem_map, Vector.getElem_map]
    have place : (t.setGroup g x).groups[i] = _ := get_set_cases t.groups g ⟨i, bound⟩ x
    rw [place]
    split
    · next here =>
      subst here
      exact Prod.ext state channel
    · rfl
  exact Prod.ext rfl (Prod.ext seats rfl)

/-! ## The sources -/

theorem sourceOff {k : SourceId} (h : Tame s t) : Tame s (Machine.sourceOff k t) := by
  unfold Machine.sourceOff
  split
  · exact h
  · exact h.aside rfl rfl

theorem sourceWaiting {k : SourceId} (h : Tame s t) : Tame s (Machine.sourceWaiting k t) := by
  unfold Machine.sourceWaiting
  split
  · exact h.aside rfl rfl
  · exact h

theorem lendElastic {c : CellId} {u : State} (h : Tame s t) (lent : Machine.lendElastic t = some (c, u)) : Tame s u := by
  unfold Machine.lendElastic at lent
  split at lent
  · exact absurd lent nofun
  · rw [Option.some.injEq, Prod.mk.injEq] at lent
    obtain ⟨-, rfl⟩ := lent
    split
    · exact .raise (h.aside rfl rfl)
    · exact h.aside rfl rfl

theorem growBuffer {n : Nat} {k : SourceId} {xs : List Sample} (h : Tame s t) : Tame s (Machine.growBuffer n k xs t).2 := by
  induction n generalizing xs t with
  | zero => exact h
  | succ n ih =>
    cases xs with
    | nil => exact h
    | cons x xs =>
      unfold Machine.growBuffer
      split
      · exact h
      · next lent => exact ih ((h.lendElastic lent).aside rfl rfl)

theorem append {k : SourceId} {xs : List Sample} (h : Tame s t) : Tame s (Machine.append k xs t) := by
  have overrun : Tame s (Machine.overrun k xs.length t) := by
    unfold Machine.overrun
    dsimp only
    split
    · exact h
    · exact .raise (h.aside rfl rfl)
  unfold Machine.append
  generalize Machine.overrun k xs.length t = u at overrun
  unfold writeSamples
  extract_lets b written grew
  have grown : Tame s grew.2 := .growBuffer (overrun.aside rfl rfl)
  split
  · exact grown
  · exact .raise grown

theorem setLol {k : SourceId} {n : Nat} (h : Tame s t) : Tame s (Machine.setLol k n t) := by
  unfold Machine.setLol
  dsimp only
  split
  · exact .raise (h.aside rfl rfl)
  · exact h.aside rfl rfl

theorem filterAndDetect {k : SourceId} (h : Tame s t) : Tame s (Machine.filterAndDetect k t) := by
  unfold Machine.filterAndDetect detectLock
  dsimp only
  split
  · (repeat' split) <;> exact h.aside rfl rfl
  · split
    · split
      · split
        · exact .raiseInt (h.aside rfl rfl)
        · exact h.aside rfl rfl
      · exact h.aside rfl rfl
    · split
      · exact h.aside rfl rfl
      · exact .raise (.setLol (h.aside rfl rfl))
  · exact h.aside rfl rfl

theorem endHoldover {k : SourceId} (h : Tame s t) : Tame s (Machine.endHoldover k t) := by
  unfold Machine.endHoldover
  dsimp only
  split
  · exact h.aside rfl rfl
  · split
    · exact .raise (.setLol (h.aside rfl rfl))
    · exact h.aside rfl rfl

theorem prefillTest {k : SourceId} (h : Tame s t) : Tame s (Machine.prefillTest k t) := by
  unfold Machine.prefillTest
  dsimp only
  split
  · exact h.aside rfl rfl
  · split
    · exact h.aside rfl rfl
    · exact .filterAndDetect (h.aside rfl rfl)

theorem arrivalProcessing {k : SourceId} (h : Tame s t) : Tame s (Machine.arrivalProcessing k t) := by
  unfold Machine.arrivalProcessing
  dsimp only
  split
  · exact h.prefillTest
  · split
    · exact h.filterAndDetect
    · exact h.filterAndDetect
    · exact h.endHoldover.filterAndDetect
    · exact h.aside rfl rfl
    · exact h
    · exact h

theorem firstArrival {k : SourceId} (h : Tame s t) : Tame s (Machine.firstArrival k t) := by
  unfold Machine.firstArrival
  dsimp only
  split
  · exact h.aside rfl rfl
  · exact h.aside rfl rfl
  · exact h

theorem arrival {k : SourceId} {q : Option Byte} {xs : List Sample} (h : Tame s t) : Tame s (Machine.arrival k q xs t) := by
  unfold Machine.arrival
  split
  · exact h
  · exact .arrivalProcessing (Tame.aside (.append (.firstArrival h)) rfl rfl)

theorem takeUplinkBlock {k : RosterId} {b : UplinkBlock} {good : Bool} (h : Tame s t) :
    Tame s (Machine.takeUplinkBlock k b good t) := by
  unfold Machine.takeUplinkBlock
  split
  · exact h
  · exact h.raise
  · exact h
  · exact h.arrival

theorem output {k : SourceId} (h : Tame s t) : Tame s (Machine.output k t) := by
  unfold Machine.output
  dsimp only
  split
  · exact .raise (h.aside rfl rfl)
  · exact h.aside rfl rfl

theorem loseSource {k : SourceId} {d : Nat} (h : Tame s t) : Tame s (Machine.loseSource k d t) := .raise (h.aside rfl rfl)

theorem prefillMark {k : SourceId} (h : Tame s t) : Tame s (Machine.prefillMark k t) := by
  unfold Machine.prefillMark
  extract_lets x age worked
  split
  · exact .loseSource (h.aside rfl rfl)
  · exact h.aside rfl rfl

theorem holdoverMark {k : SourceId} (h : Tame s t) : Tame s (Machine.holdoverMark k t) := by
  unfold Machine.holdoverMark
  extract_lets x worked
  split
  · exact .loseSource (h.aside rfl rfl)
  · exact .output (h.aside rfl rfl)

theorem fixedMark {k : SourceId} (h : Tame s t) : Tame s (Machine.fixedMark k t) := by
  unfold Machine.fixedMark
  extract_lets x age worked
  split
  · exact .loseSource (h.aside rfl rfl)
  · exact .output (h.aside rfl rfl)

theorem trackingMark {k : SourceId} (h : Tame s t) : Tame s (Machine.trackingMark k t) := by
  unfold Machine.trackingMark recordHistory enterHoldover
  dsimp only
  split
  · split
    · split
      · exact h.output.aside rfl rfl
      · exact h.output.aside rfl rfl
    · exact h.output
  · exact .output (.raiseInt (h.aside rfl rfl))

theorem outputSource {k : SourceId} (h : Tame s t) : Tame s (Machine.outputSource k t) := by
  refine Tame.aside (t := markWork k t) ?_ rfl rfl
  unfold markWork
  dsimp only
  split
  · exact h
  · exact h
  · split
    · exact h.prefillMark
    · exact h.trackingMark
  · split
    · exact h.prefillMark
    · exact h.fixedMark
  · exact h.trackingMark
  · exact h.holdoverMark

theorem setLine {k : SourceId} {on : Bool} (h : Tame s t) : Tame s (Machine.setLine k on t) := by
  unfold Machine.setLine
  dsimp only
  split
  · split
    · exact .sourceWaiting (h.aside rfl rfl)
    · exact h.aside rfl rfl
  · exact .sourceOff (h.aside rfl rfl)

/-! ## The notices of a build -/

theorem placeNotices {m : Count} {room : Nat} (h : Tame s t) : Tame s (Machine.placeNotices m room t).1 := by
  have expired : Tame s (expireNotices m t) := .forEach (fun n u g => by
    unfold expireOne
    split
    · split
      · exact .raise (g.aside rfl rfl)
      · exact g
    · exact g) _ h
  have scanned (p : Placement) (cls : NoticeClass) (g : Tame s p.state) : Tame s (scanQueue m cls p).state := by
    unfold scanQueue
    generalize p.state.sched.queue cls = queue
    induction queue generalizing p with
    | nil => exact g
    | cons n queue ih =>
      refine ih _ ?_
      unfold scanOne afterPlacement
      dsimp only
      (repeat' split)
      · exact g
      · exact g
      · exact g
      · exact g.aside rfl rfl
      · exact g.aside rfl rfl
  have late (p : Placement) (g : Tame s p.state) : Tame s (updateLate p) := g.aside rfl rfl
  unfold Machine.placeNotices
  dsimp only
  split
  · exact late _ (scanned _ _ (scanned _ _ (expired.aside rfl rfl)))
  · exact late _ (scanned _ _ (scanned _ _ (expired.aside rfl rfl)))

end

end Tame

end Sys2Proof.Machine
end

section
/-! PROOF. The racks, charging and the issue operations move no group, touch neither channel nor air, and leave the event unit's records
in agreement. -/

namespace Sys2Proof.Machine

namespace Tame

section
variable {s t : State}

/-! ## Exchanges asked for, and charging -/

theorem ask {e : Exchange} (h : Tame s t) : Tame s (Machine.ask e t) := h.offRacks (ask_offRacks ..)
theorem request {e : Exchange} (h : Tame s t) : Tame s (Machine.request e t).2 := h.offRacks (request_offRacks ..)
theorem attempt {r : RackId} (h : Tame s t) : Tame s (Machine.attempt r t) := h.offRacks (attempt_offRacks ..)
theorem enterCharging {a : SlotAddr} (h : Tame s t) : Tame s (Machine.enterCharging a t) := h.offRacks (enterCharging_offRacks ..)
theorem endCharging {a : SlotAddr} (h : Tame s t) : Tame s (Machine.endCharging a t) := h.offRacks (endCharging_offRacks ..)
theorem judgePoll {a : SlotAddr} (h : Tame s t) : Tame s (Machine.judgePoll a t) := h.offRacks (judgePoll_offRacks ..)
theorem requestSetCharge {a : SlotAddr} {m : ChargeMode} (h : Tame s t) : Tame s (Machine.requestSetCharge a m t) :=
  h.offRacks (requestSetCharge_offRacks ..)

theorem requestClear {a : SlotAddr} {d : DeviceId} (h : Tame s t) : Tame s (Machine.requestClear a d t) := by
  have asked := h.request (e := .clear a d)
  unfold Machine.requestClear
  split
  · next same =>
    rw [same] at asked
    exact asked.aside rfl rfl
  · next same =>
    rw [same] at asked
    exact asked.aside rfl rfl

/-! ## The roster and the issue operations -/

theorem bindRoster {k : RosterId} {d : DeviceId} (h : Tame s t) : Tame s (Machine.bindRoster k d t) := by
  unfold Machine.bindRoster
  dsimp only
  split
  · exact .sourceWaiting (h.aside rfl rfl)
  · exact h.aside rfl rfl

theorem unbindRoster {k : RosterId} (h : Tame s t) : Tame s (Machine.unbindRoster k t) := .sourceOff (h.aside rfl rfl)

theorem completeOp {g : GroupId} (h : Tame s t) : Tame s (Machine.completeOp g t) := by
  unfold Machine.completeOp
  split
  · exact h
  · extract_lets freed x closed reported
    have roster : Tame s freed := by
      unfold freed
      split
      · split
        · exact h.aside rfl rfl
        · exact h
      · exact h
    have told : Tame s reported := .raise (Tame.setGroup roster rfl rfl)
    exact told.aside rfl rfl

theorem reserveSlot {g : GroupId} {o : IssueOperation} {a : SlotAddr} (h : Tame s t) : Tame s (Machine.reserveSlot g o a t) := by
  unfold Machine.reserveSlot
  extract_lets c reserved
  have ended : Tame s reserved := .offRacks (t := t.modSlot a _) (h.aside rfl rfl) (endByReservation_offRacks ..)
  exact .ask (ended.aside rfl rfl)

theorem chooseNext {g : GroupId} (h : Tame s t) : Tame s (Machine.chooseNext g t) := by
  unfold Machine.chooseNext
  (repeat' split)
  · exact h
  · exact h.reserveSlot
  · exact h.completeOp

theorem nextOrComplete {g : GroupId} (h : Tame s t) : Tame s (Machine.nextOrComplete g t) := by
  unfold Machine.nextOrComplete
  (repeat' split)
  · exact h
  · exact h.completeOp
  · exact h.chooseNext

theorem failCandidate {g : GroupId} {a : SlotAddr} {b : Bool} (h : Tame s t) : Tame s (Machine.failCandidate g a b t) := by
  unfold Machine.failCandidate
  extract_lets failed occupied
  have record : Tame s failed := h.aside rfl rfl
  refine .nextOrComplete ?_
  split
  · exact record.offRacks (handBack_offRacks ..)
  · exact record

theorem failAt {a : SlotAddr} {l : List Stage} {b : Bool} (h : Tame s t) : Tame s (Machine.failAt a l b t) := by
  unfold Machine.failAt
  split
  · exact h.failCandidate
  · exact h

theorem tuneAnswered {a : SlotAddr} (h : Tame s t) : Tame s (Machine.tuneAnswered a t) := by
  unfold Machine.tuneAnswered
  split
  · exact h
  · extract_lets noted
    have device : Tame s noted := by
      unfold noted
      split
      · exact h.aside rfl rfl
      · exact h
    have asked := device.request (e := .release a)
    split
    · next same =>
      rw [same] at asked
      exact asked.failCandidate
    · next same =>
      rw [same] at asked
      exact asked.aside rfl rfl

theorem issueDevice {g : GroupId} {o : IssueOperation} {a : SlotAddr} {d : DeviceId} (h : Tame s t) :
    Tame s (Machine.issueDevice g o a d t) := by
  unfold Machine.issueDevice
  extract_lets c tuned s1 s2 x s3 released
  have begun : Tame s s2 := h.aside rfl rfl
  have counted : Tame s s3 := begun.setGroup rfl rfl
  have out : Tame s released := counted.aside rfl rfl
  split
  · exact out.bindRoster
  · exact out

theorem releaseAnswered {a : SlotAddr} (h : Tame s t) : Tame s (Machine.releaseAnswered a t) := by
  unfold Machine.releaseAnswered
  split
  · exact h
  · split
    · dsimp only
      split
      · exact h.issueDevice.completeOp
      · exact h.issueDevice.nextOrComplete
    · exact h

theorem createOp {g : GroupId} {body : List Byte} (h : Tame s t) : Tame s (Machine.createOp g body t) := by
  unfold Machine.createOp
  extract_lets o x opened held
  have handle : Tame s opened := h.setGroup rfl rfl
  have roster : Tame s held := by
    unfold held
    split
    · exact handle.aside rfl rfl
    · exact handle
  exact roster.aside rfl rfl

/-! ## Discards, emptied slots and faults -/

theorem deliverDiscarded {b : Bool} {e : Exchange} (h : Tame s t) : Tame s (Machine.deliverDiscarded b e t) := by
  cases e with
  | tune => exact h.failAt
  | release => exact h.failAt
  | clear => exact h.aside rfl rfl
  | scan | probe | poll | setCharge => exact h

theorem deliverTimeout {e : Exchange} (h : Tame s t) : Tame s (Machine.deliverTimeout e t) := by
  cases e with
  | tune => exact h.failAt
  | release => exact h.failAt
  | clear => exact h.aside rfl rfl
  | setCharge => exact h.aside rfl rfl
  | scan | probe | poll => exact h

theorem discardWhere {p : Exchange → Bool} {b : Bool} (h : Tame s t) : Tame s (Machine.discardWhere p b t) := by
  unfold Machine.discardWhere
  refine .forEach (fun e u before => ?_) _ h
  have unqueued : Tame s (unqueue e u) := before.aside rfl rfl
  exact unqueued.deliverDiscarded

theorem discardSlot {a : SlotAddr} {b : Bool} (h : Tame s t) : Tame s (Machine.discardSlot a b t) := h.discardWhere

theorem emptySlot {r : EmptyReason} {a : SlotAddr} (h : Tame s t) : Tame s (Machine.emptySlot r a t) := by
  have device {u : State} (g : Tame s u) : Tame s (emptiedDevice r a u) := by
    unfold emptiedDevice
    (repeat' split)
    · exact g
    · exact g.aside rfl rfl
    · exact .raise (g.aside rfl rfl)
    · exact g.aside rfl rfl
    · exact g
    · exact g
  have reservation {u : State} (g : Tame s u) : Tame s (emptiedReservation a u) := by
    unfold emptiedReservation
    split
    · exact g.failAt
    · exact g
  unfold Machine.emptySlot
  (repeat' split)
  · exact h
  · exact h
  · have ended : Tame s (Machine.endCharging a (Machine.discardSlot a true t)) := h.discardSlot.endCharging
    have emptied := device (reservation ended)
    generalize emptiedDevice r a _ = u at emptied
    exact emptied.aside rfl rfl

theorem enterFault {a : SlotAddr} {c : FaultCause} (h : Tame s t) : Tame s (Machine.enterFault a c t) := by
  have marked : Tame s (markFault a c t) := by
    cases c with
    | timeout => exact .raise (h.aside rfl rfl)
    | device => exact .raise (h.aside rfl rfl)
    | fleetFull => exact h.aside rfl rfl
  exact marked.discardSlot.endCharging

/-! ## Answers and timeouts -/

theorem scanComplete {r : RackId} {p : List Byte} (h : Tame s t) : Tame s (Machine.scanComplete r p t) := by
  have position {w : RackWindow} (a : SlotAddr) {u : State} (g : Tame s u) : Tame s (scanPosition w p a u) := by
    unfold scanPosition
    dsimp only
    (repeat' split)
    · exact g
    · exact .ask (g.aside rfl rfl)
    · exact g
    · exact g
    · exact g.ask
    · exact g.emptySlot
    · exact g
    · exact g.emptySlot
  have clears (a : SlotAddr) {u : State} (g : Tame s u) : Tame s (clearOwed a u) := by
    unfold clearOwed
    (repeat' split)
    · exact g
    · exact g
    · exact g.requestClear
    · exact g
  unfold Machine.scanComplete
  split
  · exact h
  · exact .forEach clears _ (.forEach position _ (h.aside rfl rfl))

theorem storeLevel {a : SlotAddr} {l : Nat} (h : Tame s t) : Tame s (Machine.storeLevel a l t) := by
  unfold Machine.storeLevel
  dsimp only
  split
  · exact h.aside rfl rfl
  · exact h.aside rfl rfl

theorem pollComplete {a : SlotAddr} {p : List Byte} (h : Tame s t) : Tame s (Machine.pollComplete a p t) := by
  unfold Machine.pollComplete
  dsimp only
  split
  · exact h.storeLevel.enterFault
  · exact h.storeLevel.judgePoll

theorem slotTimeout {e : Exchange} {a : SlotAddr} (h : Tame s t) : Tame s (Machine.slotTimeout e a t) := by
  have again {u : State} (g : Tame s u) : Tame s (probeAgain e u) := by
    cases e with
    | probe => exact g.ask
    | scan | poll | setCharge | tune | release | clear => exact g
  unfold Machine.slotTimeout
  split
  · exact again (.deliverTimeout (.raise (h.aside rfl rfl)))
  · exact .deliverTimeout (.enterFault (h.aside rfl rfl))

theorem scanTimeout {r : RackId} (h : Tame s t) : Tame s (Machine.scanTimeout r t) := by
  unfold Machine.scanTimeout
  (repeat' split)
  · exact h
  · exact h
  · exact h.aside rfl rfl
  · exact .forEach (fun _ _ g => g.emptySlot) _ (.raise (h.aside rfl rfl))

/-! ## Requests -/

theorem defineRack {r : RackId} {w : RackWindow} (h : Tame s t) : Tame s (Machine.defineRack r w t) := by
  unfold Machine.defineRack
  refine .ask (.forEach (fun _ _ before => ?_) _ (h.aside rfl rfl))
  exact before.aside rfl rfl

theorem removeRack {r : RackId} {w : RackWindow} (h : Tame s t) : Tame s (Machine.removeRack r w t) := by
  unfold Machine.removeRack
  extract_lets discarded emptied
  have paused : Tame s (t.modRack r (fun v => { v with scanTimer := false })) := h.aside rfl rfl
  have doomed : Tame s discarded := .aside (paused.discardWhere (p := namesRack r w) (b := false)) rfl rfl
  have cleared : Tame s emptied := .forEach (fun _ _ g => g.emptySlot) _ doomed
  have gone : Tame s _ := .forEach (f := fun a u => u.setSlot a none) (fun _ _ g => g.aside rfl rfl) w.addresses cleared
  exact gone.aside rfl rfl

theorem clearFault {a : SlotAddr} (h : Tame s t) : Tame s (Machine.clearFault a t) := by
  unfold Machine.clearFault
  extract_lets noted
  have device : Tame s noted := by
    unfold noted
    (repeat' split)
    · exact h.aside rfl rfl
    · exact h
    · exact h
  exact .ask (device.aside rfl rfl)

theorem shedLoop {n : Nat} {r : RackId} (h : Tame s t) : Tame s (Machine.shedLoop n r t).2 := by
  induction n generalizing t with
  | zero => exact h
  | succ n ih =>
    unfold Machine.shedLoop
    (repeat' split)
    · exact h
    · exact h
    · exact h
    · exact ih (.requestSetCharge (h.aside rfl rfl))

theorem writeBudget {r : RackId} {w : RackWindow} {b : Nat} (h : Tame s t) : Tame s (Machine.writeBudget r w b t).2 := by
  have shedding {u : State} (g : Tame s u) : Tame s (shed r u).2 := by
    unfold shed
    split
    · exact g
    · dsimp only
      split
      · exact g.shedLoop
      · exact .attempt (.raise (Tame.aside (.shedLoop g) rfl rfl))
  unfold Machine.writeBudget
  dsimp only
  (repeat' split)
  · exact shedding (h.aside rfl rfl)
  · exact .attempt (h.aside rfl rfl)
  · exact h.aside rfl rfl

end

end Tame

end Sys2Proof.Machine
end

section
/-! PROOF. The records of the channels and the counts of their groups: what a review, a stop and a plan leave of a channel, and how a
group's move changes the counts. -/

namespace Sys2Proof.Machine

/-! ## A channel's record (R74) -/

/-- What holds of a channel's record between the apply of a plan and the judgement of its active source: all of the channel's law but
that the active source is listed (R74, R77). -/
structure Channel.Kept (ch : Channel) : Prop where
  planned : ch.state = .closed ↔ ch.livePlan = none
  quiet : ch.state = .closed ∨ ch.state = .silent → ch.activeSource = none
  producing : ch.OnAir → ch.activeSource ≠ none
  pending : ch.applyPending = true → ch.stagedPlan ≠ none
  live : ∀ p ∈ ch.livePlan, PlanSound p
  staged : ∀ p ∈ ch.stagedPlan, PlanSound p

/-- The active source, if there is one, is listed. -/
abbrev Channel.Listed (ch : Channel) : Prop := ∀ k, ch.activeSource = some k → k ∈ ch.liveSources

theorem Channel.state_cases (ch : Channel) : (ch.state = .closed ∨ ch.state = .silent) ∨ ch.OnAir := by
  unfold Channel.OnAir
  cases ch.state <;> simp

theorem channelSound_iff (ch : Channel) : ChannelSound ch ↔ ch.Kept ∧ ch.Listed := by
  constructor
  · rintro ⟨planned, quiet, listed, pending, live, staged⟩
    refine ⟨⟨planned, quiet, fun onAir none => ?_, pending, live, staged⟩, fun k active => ?_⟩
    · obtain ⟨k, active, -⟩ := listed onAir
      exact absurd (none ▸ active) nofun
    · rcases ch.state_cases with off | onAir
      · exact absurd ((quiet off).symm.trans active) nofun
      · obtain ⟨j, active', mem⟩ := listed onAir
        exact Option.some.inj (active.symm.trans active') ▸ mem
  · rintro ⟨⟨planned, quiet, producing, pending, live, staged⟩, listed⟩
    refine ⟨planned, quiet, fun onAir => ?_, pending, live, staged⟩
    obtain ⟨k, active⟩ := Option.ne_none_iff_exists'.mp (producing onAir)
    exact ⟨k, active, listed k active⟩

theorem listed_of_quiet {ch : Channel} (quiet : ch.activeSource = none) : ch.Listed :=
  fun _ active => absurd (quiet.symm.trans active) nofun

theorem kept_applied {ch : Channel} (kept : ch.Kept) : ch.applied.Kept := by
  obtain ⟨planned, quiet, producing, pending, live, staged⟩ := kept
  unfold Channel.applied
  split
  · exact ⟨planned, quiet, producing, nofun, live, staged⟩
  · next p plan =>
    refine ⟨⟨fun closed => ?_, nofun⟩, fun off => ?_, fun onAir => ?_, nofun, fun q same => ?_, nofun⟩
    · dsimp only at closed
      split at closed
      · exact absurd closed nofun
      · next opened => exact absurd closed opened
    · dsimp only at off
      split at off
      · next closed => exact quiet (.inl closed)
      · exact quiet off
    · unfold Channel.OnAir at onAir
      dsimp only at onAir
      split at onAir
      · exact absurd onAir (by simp)
      · exact producing onAir
    · exact staged q (plan.trans same)

theorem kept_begun {ch : Channel} (kept : ch.Kept) : ch.begun.Kept := by
  unfold Channel.begun
  split
  · exact kept_applied kept
  · exact kept

theorem open_of_onAir {ch : Channel} (onAir : ch.OnAir) : ch.state ≠ .closed := by
  rcases onAir with h | h <;> rw [h] <;> decide

theorem kept_silenced {ch : Channel} (kept : ch.Kept) (opened : ch.state ≠ .closed) : ch.silenced.Kept := by
  obtain ⟨planned, quiet, producing, pending, live, staged⟩ := kept
  exact ⟨⟨nofun, fun none => absurd (planned.mpr none) opened⟩, fun _ => rfl, fun onAir => absurd onAir (by simp [Channel.OnAir,
    Channel.silenced]), pending, live, staged⟩

/-- A verdict that fits leaves a sound record. -/
theorem channelSound_record {ch : Channel} {s : State} {v : Verdict} (kept : ch.Kept) (fits : v.Fits ch s) :
    ChannelSound (v.record ch) := by
  rw [channelSound_iff]
  cases fits with
  | @writes x same listed =>
    obtain ⟨livePlan, stagedPlan, applyPending, activeSource, -, -, state⟩ := same
    obtain ⟨planned, quiet, producing, pending, live, staged⟩ := kept
    have closed : x.state = .closed ↔ ch.state = .closed := by
      rcases state with same | ⟨onAir, onAir'⟩
      · rw [same]
      · exact iff_of_false (open_of_onAir onAir') (open_of_onAir onAir)
    have onAir : x.OnAir ↔ ch.OnAir := by
      rcases state with same | ⟨onAir, onAir'⟩
      · unfold Channel.OnAir
        rw [same]
      · exact iff_of_true onAir' onAir
    have off : x.state = .closed ∨ x.state = .silent → x.activeSource = none := by
      intro off
      rw [activeSource]
      rcases state with same | ⟨-, onAir'⟩
      · exact quiet (same ▸ off)
      · rcases onAir' with h | h <;> simp [h] at off
    refine ⟨⟨?_, off, ?_, ?_, ?_, ?_⟩, fun k active => ?_⟩
    · change x.state = .closed ↔ x.livePlan = none
      rw [closed, livePlan, planned]
    · change x.OnAir → x.activeSource ≠ none
      rwa [onAir, activeSource]
    · change x.applyPending = true → x.stagedPlan ≠ none
      rwa [applyPending, stagedPlan]
    · change ∀ p ∈ x.livePlan, PlanSound p
      rwa [livePlan]
    · change ∀ p ∈ x.stagedPlan, PlanSound p
      rwa [stagedPlan]
    · change x.activeSource = some k at active
      change k ∈ x.liveSources
      rw [activeSource] at active
      rw [Channel.liveSources, livePlan]
      rcases ch.state_cases with off | onAir
      · exact absurd ((quiet off).symm.trans active) nofun
      · exact listed onAir k active
  | @takes k opened listed =>
    obtain ⟨planned, -, -, pending, live, staged⟩ := kept
    refine ⟨⟨⟨nofun, fun none => absurd (planned.mpr none) opened⟩, nofun, fun _ => Option.some_ne_none k, pending, live, staged⟩,
      fun j active => ?_⟩
    exact Option.some.inj active ▸ listed
  | silences onAir _ => exact ⟨kept_silenced kept (open_of_onAir onAir), listed_of_quiet rfl⟩

/-- A review leaves a sound record (R76 to R82). -/
theorem channelSound_reviewed {ch : Channel} (sound : ChannelSound ch) (s : State) : ChannelSound (ch.reviewed s) := by
  obtain ⟨kept, -⟩ := (channelSound_iff ch).mp sound
  have begun := kept_begun kept
  exact channelSound_record begun (verdict_fits fun silent => begun.quiet (.inr silent))

/-- A stop leaves a sound record that is CLOSED or SILENT with no apply pending (R90). -/
theorem channelSound_stopped {ch : Channel} (sound : ChannelSound ch) :
    ChannelSound ch.stopped ∧ (ch.stopped.state = .closed ∨ ch.stopped.state = .silent) ∧ ch.stopped.applyPending = false := by
  obtain ⟨kept, -⟩ := (channelSound_iff ch).mp sound
  have begun : ch.begun.Kept := kept_begun kept
  have settled : ch.begun.applyPending = false := by
    unfold Channel.begun Channel.applied
    split
    · split <;> rfl
    · next idle => exact Bool.eq_false_iff.mpr idle
  change ChannelSound ch.begun.hushed ∧ (ch.begun.hushed.state = .closed ∨ ch.begun.hushed.state = .silent) ∧
    ch.begun.hushed.applyPending = false
  unfold Channel.hushed
  split
  · next onAir =>
    exact ⟨(channelSound_iff _).mpr ⟨kept_silenced begun (open_of_onAir onAir), listed_of_quiet rfl⟩, .inr rfl, settled⟩
  · next off =>
    have quiet := ch.begun.state_cases.resolve_right off
    exact ⟨(channelSound_iff _).mpr ⟨begun, listed_of_quiet (begun.quiet quiet)⟩, quiet, settled⟩

/-- An apply on a CLOSED or SILENT channel leaves a sound record (R85). -/
theorem channelSound_applied {ch : Channel} (sound : ChannelSound ch) (off : ch.state = .closed ∨ ch.state = .silent) :
    ChannelSound ch.applied ∧ (ch.applied.state = .closed ∨ ch.applied.state = .silent) ∧ ch.applied.applyPending = false := by
  obtain ⟨kept, -⟩ := (channelSound_iff ch).mp sound
  have state : ch.applied.state = .closed ∨ ch.applied.state = .silent := by
    unfold Channel.applied
    split
    · exact off
    · dsimp only
      split
      · exact .inr rfl
      · exact off
  have applied := kept_applied kept
  refine ⟨(channelSound_iff _).mpr ⟨applied, listed_of_quiet (applied.quiet state)⟩, state, ?_⟩
  unfold Channel.applied
  split <;> rfl

/-- What a stop keeps of a channel's record (R90). -/
theorem stopped_boundGroups (ch : Channel) : ch.stopped.boundGroups = ch.boundGroups := by
  unfold Channel.stopped Channel.hushed Channel.applied Channel.silenced
  (repeat' split) <;> rfl

theorem applied_boundGroups (ch : Channel) : ch.applied.boundGroups = ch.boundGroups := by
  unfold Channel.applied
  split <;> rfl

/-! ## A staged plan (R84) -/

theorem planOf_sound {body : List Byte} {p : Plan} (plan : planOf body = some p) : PlanSound p := by
  unfold planOf at plan
  obtain ⟨⟨-, -, -, some, few, within, once, -⟩, same⟩ := Option.ite_none_right_eq_some.mp plan
  rw [← Option.some.inj same]
  have named := filterMap_toIndex_val (n := 14) (listedSources body) fun x mem => Nat.lt_succ_of_le (within x mem)
  have count : ((listedSources body).filterMap (toIndex 14)).length = field8 body 4 := by
    rw [← List.length_map Fin.val, named]
    simp [listedSources]
  have byte : field8 body 10 ≤ 255 := Nat.le_of_lt_succ (body.getD 10 0).isLt
  refine ⟨count ▸ some, count ▸ few, .of_map Fin.val (named.symm ▸ once), ?_, ?_, ?_⟩
  · dsimp only [clamp]
    split <;> omega
  · dsimp only [clamp]
    split <;> omega
  · dsimp only
    split <;> omega

/-! ## The counts of groups (R87) -/

theorem seat_eq (s : State) (g : GroupId) : s.seats[g] = (s.groups[g].state, s.groups[g].channel) := by
  unfold State.seats
  exact Vector.getElem_map ..

theorem seat_of_seats {s t : State} (seats : t.seats = s.seats) (g : GroupId) :
    t.groups[g].state = s.groups[g].state ∧ t.groups[g].channel = s.groups[g].channel := by
  have same : t.seats[g] = s.seats[g] := by rw [seats]
  rw [seat_eq, seat_eq] at same
  exact Prod.ext_iff.mp same

/-- The binding law looks at the counts and at the groups' states and channels. -/
theorem bindingsSound_congr {s t : State} (bound : ∀ c : ChannelId, t.channels[c].boundGroups = s.channels[c].boundGroups)
    (seats : t.seats = s.seats) (sound : BindingsSound s) : BindingsSound t := by
  obtain ⟨counts, homes⟩ := sound
  refine ⟨fun c => ?_, fun g => ?_⟩
  · have same : groupsOn c t = groupsOn c s := by
      unfold groupsOn
      congr 2
      funext g
      rw [(seat_of_seats seats g).2]
    rw [bound, same]
    exact counts c
  · obtain ⟨state, channel⟩ := seat_of_seats seats g
    rw [state, channel]
    exact homes g

/-- Two tests that differ at one member of a list count the list alike but for that member. -/
theorem length_filter_differ {α : Type} {p q : α → Bool} {a : α} (off : ∀ b, b ≠ a → p b = q b) {l : List α} (nodup : l.Nodup)
    (mem : a ∈ l) : (l.filter p).length + (q a).toNat = (l.filter q).length + (p a).toNat := by
  obtain ⟨l₁, l₂, rfl⟩ := List.append_of_mem mem
  obtain ⟨-, tail, apart⟩ := List.nodup_append.mp nodup
  have left : l₁.filter p = l₁.filter q := List.filter_congr fun b h => off b fun same => apart b h a List.mem_cons_self same
  have right : l₂.filter p = l₂.filter q := List.filter_congr fun b h => off b fun same =>
    (List.nodup_cons.mp tail).1 (same ▸ h)
  rw [List.filter_append, List.filter_append, left, List.filter_cons, List.filter_cons, right]
  rw [List.length_append, List.length_append]
  cases p a with
  | false => cases q a with
    | false => rfl
    | true => exact (Nat.add_assoc ..)
  | true => cases q a with
    | false => exact (Nat.add_assoc ..).symm
    | true => rfl

/-- A group's record is written: the groups on a channel, counted again. -/
theorem groupsOn_set {s t : State} {g : GroupId} {x : Group} (groups : t.groups = s.groups.set g x) (c : ChannelId) :
    groupsOn c t = groupsOn c s + (if x.channel = some c then 1 else 0) - (if s.groups[g].channel = some c then 1 else 0) := by
  have here : t.groups[g] = x := by
    rw [groups]
    exact get_set_same ..
  have differ : groupsOn c t + (decide (s.groups[g].channel = some c)).toNat =
      groupsOn c s + (decide (t.groups[g].channel = some c)).toNat :=
    length_filter_differ (p := fun j : GroupId => decide (t.groups[j].channel = some c))
      (q := fun j : GroupId => decide (s.groups[j].channel = some c)) (fun j other => by rw [groups, get_set_other _ _ _ _ other])
      (List.nodup_finRange 24) (List.mem_finRange g)
  rw [here, Bool.toNat, Bool.toNat, Bool.cond_decide, Bool.cond_decide] at differ
  omega

/-- A group's record is written, and the counts follow its channel (R87). -/
theorem bindingsSound_reseat {s t : State} {g : GroupId} {x : Group} (sound : BindingsSound s)
    (groups : t.groups = s.groups.set g x) (home : x.state = .free ↔ x.channel = none)
    (bound : ∀ c : ChannelId, t.channels[c].boundGroups =
      s.channels[c].boundGroups + (if x.channel = some c then 1 else 0) - (if s.groups[g].channel = some c then 1 else 0)) :
    BindingsSound t := by
  obtain ⟨counts, homes⟩ := sound
  refine ⟨fun c => ?_, fun j => ?_⟩
  · rw [bound, groupsOn_set groups, counts]
  · rw [groups, get_set_cases]
    split
    · exact home
    · exact homes j

end Sys2Proof.Machine
end

section
/-! PROOF. The laws of channels, bindings, events and air are kept by the work on channels, groups and the air. -/

namespace Sys2Proof.Machine

/-- The work keeps the law of the channels, that of the bindings, that of the event unit and that of the air timer, each alone. -/
structure Lawful (s t : State) : Prop where
  channels : ChannelsSound s → ChannelsSound t
  bindings : BindingsSound s → BindingsSound t
  events : EventsSound s → EventsSound t
  air : AirSound s.air → AirSound t.air

/-- The channels' law looks at the channels and at whether the air runs. -/
theorem channelsSound_congr {s t : State} (channels : t.channels = s.channels) (running : t.air.running = s.air.running)
    (sound : ChannelsSound s) : ChannelsSound t := by
  unfold ChannelsSound
  rwa [channels, running]

theorem Tame.lawful {s t : State} (h : Tame s t) : Lawful s t where
  channels := channelsSound_congr h.channels_eq (by rw [h.air_eq])
  bindings := bindingsSound_congr (fun c => by rw [h.channels_eq]) h.seats_eq
  events := h.events
  air sound := by rwa [h.air_eq]

namespace Lawful

theorem refl (s : State) : Lawful s s := ⟨id, id, id, id⟩

theorem trans {s t u : State} (h : Lawful s t) (g : Lawful t u) : Lawful s u :=
  ⟨g.channels ∘ h.channels, g.bindings ∘ h.bindings, g.events ∘ h.events, g.air ∘ h.air⟩

/-- Tame work after work that keeps the laws. -/
theorem tame {s t u : State} (h : Lawful s t) (g : Tame t u) : Lawful s u := h.trans g.lawful

/-- The time of a running air goes on (2.1). -/
theorem ticks {s t : State} (channels : t.channels = s.channels) (seats : t.seats = s.seats) (events : t.events = s.events)
    (before : s.air.running = true) (after : t.air.running = true) (place : s.air.due ≤ 39 → t.air.due ≤ 39) : Lawful s t where
  channels := channelsSound_congr channels (after.trans before.symm)
  bindings := bindingsSound_congr (fun c => by rw [channels]) seats
  events sound := by
    unfold EventsSound
    rwa [events]
  air := fun ⟨_, _, due⟩ => ⟨fun _ => after, fun stopped => absurd (after.symm.trans stopped) nofun, place due⟩

end Lawful

/-! ## One channel's record -/

/-- A channel's record is written while the air runs, or with one that is CLOSED or SILENT with no apply pending. -/
theorem channelsSound_set {s t : State} {c : ChannelId} {x : Channel} (sound : ChannelsSound s)
    (channels : t.channels = s.channels.set c x) (running : t.air.running = s.air.running) (record : ChannelSound x)
    (quiet : s.air.running = false → (x.state = .closed ∨ x.state = .silent) ∧ x.applyPending = false) : ChannelsSound t := by
  obtain ⟨records, rest⟩ := sound
  refine ⟨fun d => ?_, fun stopped d => ?_⟩
  · rw [channels, get_set_cases]
    split
    · exact record
    · exact records d
  · rw [running] at stopped
    rw [channels, get_set_cases]
    split
    · exact quiet stopped
    · exact rest stopped d

theorem boundGroups_set {s t : State} {c : ChannelId} {x : Channel} (channels : t.channels = s.channels.set c x)
    (bound : x.boundGroups = s.channels[c].boundGroups) (d : ChannelId) : t.channels[d].boundGroups = s.channels[d].boundGroups := by
  rw [channels, get_set_cases]
  split
  · next same =>
    subst same
    exact bound
  · rfl

/-- A channel's count is changed, and nothing of its law. -/
theorem channelsSound_modBound {s : State} (c : ChannelId) (f : Nat → Nat) (sound : ChannelsSound s) : ChannelsSound (s.modBound c f) :=
  channelsSound_set sound rfl rfl (sound.1 c) fun stopped => sound.2 stopped c

theorem boundGroups_modBound (c d : ChannelId) (f : Nat → Nat) (s : State) : (s.modBound c f).channels[d].boundGroups =
    if d = c then f s.channels[d].boundGroups else s.channels[d].boundGroups := by
  rw [State.modBound_channels, get_set_cases]
  split
  · next same =>
    subst same
    rfl
  · rfl

/-! ## The groups (R87, R99, R148, R149, R161) -/

theorem freeGroup_lawful (g : GroupId) (s : State) : Lawful s (freeGroup g s) := by
  cases home : s.groups[g].channel with
  | none =>
    have freed : freeGroup g s = s.setGroup g { s.groups[g] with state := .free, channel := none } := by
      unfold freeGroup
      dsimp only
      rw [home]
    rw [freed]
    refine ⟨id, fun sound => bindingsSound_reseat (x := { s.groups[g] with state := .free, channel := none }) sound rfl
      (iff_of_true rfl rfl) fun c => ?_, id, id⟩
    rw [home]
    rfl
  | some c =>
    rw [freeGroup_bound g home]
    refine ⟨fun sound => channelsSound_modBound (s := s.setGroup g _) c _ sound, fun sound => bindingsSound_reseat
      (x := { s.groups[g] with state := .free, channel := none }) sound rfl (iff_of_true rfl rfl) fun d => ?_, id, id⟩
    rw [boundGroups_modBound, home]
    by_cases same : d = c
    · subst same
      simp
    · simp [same, Ne.symm same]

theorem closeIfEmpty_lawful (g : GroupId) (s : State) : Lawful s (closeIfEmpty g s) := by
  unfold closeIfEmpty
  dsimp only
  split
  · exact (freeGroup_lawful g s).tame (.raise (.refl _))
  · exact .refl s

/-- A RETUNE moves a group that has a channel (R99). -/
theorem retuneGroup_lawful {g : GroupId} (c : ChannelId) {s : State} (seated : s.groups[g].state ≠ .free) :
    Lawful s (retuneGroup g c s) := by
  have home (sound : BindingsSound s) : ({ s.groups[g] with channel := some c } : Group).state = .free ↔
      ({ s.groups[g] with channel := some c } : Group).channel = none := iff_of_false seated nofun
  unfold retuneGroup
  cases old : s.groups[g].channel with
  | none =>
    refine ⟨id, fun sound => absurd ((sound.2 g).mpr old) seated, id, id⟩
  | some b =>
    dsimp only
    split
    · next same =>
      subst same
      refine ⟨id, fun sound => bindingsSound_reseat (x := { s.groups[g] with channel := some b }) sound rfl (home sound)
        fun d => ?_, id, id⟩
      rw [old]
      exact (Nat.add_sub_cancel ..).symm
    · next other =>
      refine ⟨fun sound => channelsSound_modBound c _ (channelsSound_modBound b _ sound), fun sound => bindingsSound_reseat
        (x := { s.groups[g] with channel := some c }) sound rfl (home sound) fun d => ?_, id, id⟩
      rw [boundGroups_modBound, boundGroups_modBound, old]
      by_cases left : d = b
      · subst left
        simp [other, Ne.symm other]
      · by_cases joined : d = c
        · subst joined
          simp [left, Ne.symm left]
        · simp [left, joined, Ne.symm left, Ne.symm joined]

theorem retuneEffect_lawful {n : NoticeRecord} {s : State}
    (seated : ∀ g, n.targetType = .group → toIndex 24 n.targetValue.toNat = some g → s.groups[g].state ≠ .free) :
    Lawful s (retuneEffect n s) := by
  unfold retuneEffect
  split
  · next target =>
    split
    · next g named => exact retuneGroup_lawful _ (seated g target named)
    · exact .refl s
  · exact Tame.lawful (.aside (.refl s) rfl rfl)
  · exact .refl s

theorem returnDevice_lawful (d : Device) (a : SlotAddr) (l : Nat) (s : State) : Lawful s (returnDevice d a l s) := by
  unfold returnDevice
  split
  · exact Tame.lawful (.aside (.refl s) rfl rfl)
  · extract_lets g x counted told docked
    have group : Tame s counted := .setGroup (.refl s) rfl rfl
    have source : Tame s told := by
      unfold told
      split
      · exact group.unbindRoster
      · exact group
    have reported : Tame s (raise .deviceReturned a.val d.id.toNat docked) := .raise (source.aside rfl rfl)
    exact reported.lawful.trans (closeIfEmpty_lawful g _)

/-! ## The exchanges of the rack bus -/

theorem probeOutcome_lawful (a : SlotAddr) (d : DeviceId) (k : DeviceKind) (l : Nat) (s : State) :
    Lawful s (probeOutcome a d k l s) := by
  unfold probeOutcome
  split
  · split
    · exact Tame.lawful (.enterCharging (.aside (.refl s) rfl rfl))
    · exact Tame.lawful (.raise (.enterFault (.aside (.refl s) rfl rfl)))
  · split
    · exact (returnDevice_lawful ..).tame (.enterCharging (.requestClear (.aside (.refl _) rfl rfl)))
    · exact Tame.lawful (.enterCharging (.aside (.refl s) rfl rfl))

theorem probeComplete_lawful (a : SlotAddr) (p : List Byte) (s : State) : Lawful s (probeComplete a p s) := by
  have faulted : Lawful s (enterFault a .device (s.modSlot a (fun x => { x with deviceId := none }))) :=
    Tame.lawful (.enterFault (.aside (.refl s) rfl rfl))
  unfold probeComplete
  dsimp only
  split
  · exact faulted
  · split
    · exact faulted
    · refine Lawful.trans ?_ (probeOutcome_lawful ..)
      split
      · exact (Tame.emptySlot (.refl s)).lawful
      · exact .refl s

theorem complete_lawful (e : Exchange) (p : List Byte) (s : State) : Lawful s (complete e p s) := by
  have answered (a : SlotAddr) : Tame s (setTimeouts a 0 s) := .aside (.refl s) rfl rfl
  cases e with
  | scan r => exact (Tame.scanComplete (.refl s)).lawful
  | probe a => exact (answered a).lawful.trans (probeComplete_lawful ..)
  | poll a => exact (answered a).pollComplete.lawful
  | setCharge a m => exact (answered a).storeLevel.lawful
  | tune a c g o => exact (answered a).storeLevel.tuneAnswered.lawful
  | release a => exact (answered a).storeLevel.releaseAnswered.lawful
  | clear a d => exact ((answered a).aside (u := setClear d .none (setTimeouts a 0 s)) rfl rfl).lawful

/-! ## The channels -/

theorem fits_boundGroups {ch : Channel} {s : State} {v : Verdict} (fits : v.Fits ch s) :
    (v.record ch).boundGroups = ch.boundGroups := by
  cases fits with
  | writes same => exact same.boundGroups
  | takes => rfl
  | silences => rfl

/-- A verdict moves no group (R76 to R82). -/
theorem verdict_boundGroups (ch : Channel) (s : State) : ((ch.verdict s).record ch).boundGroups = ch.boundGroups := by
  unfold Channel.verdict
  cases state : ch.state with
  | closed => rfl
  | silent => cases bestUsable ch.liveSources s <;> rfl
  | live =>
    cases active : ch.activeSource with
    | none => rfl
    | some k => exact fits_boundGroups (liveVerdict_fits state active)
  | bridging =>
    cases active : ch.activeSource with
    | none => rfl
    | some k => exact fits_boundGroups (bridgingVerdict_fits state active)

theorem reviewed_boundGroups (ch : Channel) (s : State) : (ch.reviewed s).boundGroups = ch.boundGroups := by
  have begun : ch.begun.boundGroups = ch.boundGroups := by
    unfold Channel.begun
    split
    · exact applied_boundGroups ch
    · rfl
  exact (verdict_boundGroups ch.begun s).trans begun

theorem eventsSound_raise {k : EventKind} {o d : Nat} {s : State} (sound : EventsSound s) : EventsSound (raise k o d s) :=
  (Tame.raise (.refl s)).events sound

theorem eventsSound_applyPlan (c : ChannelId) (d : Nat) {s : State} (sound : EventsSound s) : EventsSound (applyPlan c d s) := by
  rw [applyPlan_eq]
  split
  · exact sound
  · exact eventsSound_raise (k := .planApplied) (o := c.val) (d := d) sound

theorem eventsSound_perform (c : ChannelId) {s : State} (v : Verdict) (sound : EventsSound s) : EventsSound (v.perform c s) := by
  cases v with
  | writes x => exact sound
  | takes cause k => exact eventsSound_raise (s := s.setChannel c _) sound
  | silences active => exact eventsSound_raise (s := s.setChannel c _) sound

theorem eventsSound_reviewChannel (c : ChannelId) {s : State} (sound : EventsSound s) : EventsSound (reviewChannel c s) := by
  rw [reviewChannel_eq]
  refine eventsSound_perform c _ ?_
  unfold reviewBegun
  split
  · exact eventsSound_applyPlan c 1 sound
  · exact sound

theorem air_of_offChannels {s t : State} (same : t.offChannels = s.offChannels) : t.air = s.air :=
  (congrArg State.air same : t.offChannels.air = s.offChannels.air)

theorem seats_of_offChannels {s t : State} (same : t.offChannels = s.offChannels) : t.seats = s.seats :=
  (congrArg State.seats same : t.offChannels.seats = s.offChannels.seats)

/-- A review is made while the air runs (R76). -/
theorem reviewChannel_lawful (c : ChannelId) {s : State} (running : s.air.running = true) : Lawful s (reviewChannel c s) := by
  have frame := reviewChannel_offChannels c s
  have air := air_of_offChannels frame
  have channels := reviewChannel_channels c s
  exact ⟨fun sound => channelsSound_set sound channels (by rw [air]) (channelSound_reviewed (sound.1 c) s)
      fun stopped => absurd (running.symm.trans stopped) nofun,
    bindingsSound_congr (boundGroups_set channels (reviewed_boundGroups ..)) (seats_of_offChannels frame),
    eventsSound_reviewChannel c, fun sound => by rwa [air]⟩

theorem reviews_lawful (l : List ChannelId) {s : State} (running : s.air.running = true) :
    Lawful s (forEach l reviewChannel s) := by
  suffices kept : Lawful s (forEach l reviewChannel s) ∧ (forEach l reviewChannel s).air.running = true from kept.1
  refine forEach_keeps (fun t => Lawful s t ∧ t.air.running = true) _ (fun c t ⟨before, runs⟩ => ?_) l s ⟨.refl s, running⟩
  refine ⟨before.trans (reviewChannel_lawful c runs), ?_⟩
  rwa [air_of_offChannels (reviewChannel_offChannels c t)]

/-- A plan is applied on a CLOSED or SILENT channel: the air is stopped (R85). -/
theorem applyPlan_lawful (c : ChannelId) (d : Nat) {s : State} (stopped : s.air.running = false) : Lawful s (applyPlan c d s) := by
  have frame := applyPlan_offChannels c d s
  have air := air_of_offChannels frame
  have channels : (applyPlan c d s).channels = s.channels.set c s.channels[c].applied := by
    rw [applyPlan_eq, State.setChannel_channels]
    split
    · rfl
    · rw [raise_channels]
  refine ⟨fun sound => ?_, bindingsSound_congr (boundGroups_set channels (applied_boundGroups _)) (seats_of_offChannels frame),
    eventsSound_applyPlan c d, fun sound => by rwa [air]⟩
  obtain ⟨off, -⟩ := sound.2 stopped c
  obtain ⟨record, quiet⟩ := channelSound_applied (sound.1 c) off
  exact channelsSound_set sound channels (by rw [air]) record fun _ => quiet

/-! ## A stop of the air, and the resets -/

theorem eventsSound_stopAir (reason : StopReason) (order : List ChannelId) {s : State} (sound : EventsSound s) :
    EventsSound (stopAir reason order s) := by
  have off : Tame (airStopped reason s) (sourcesOff (airStopped reason s)) := .forEach (fun _ _ g => g.sourceOff) _ (.refl _)
  refine forEach_keeps EventsSound stopChannel (fun c t before => ?_) (fullOrder order) _ (off.events sound)
  rw [stopChannel_eq]
  split
  · exact eventsSound_raise (k := .planApplied) (o := c.val) (d := 3) before
  · exact before

/-- A stop leaves every channel CLOSED or SILENT with no apply pending (R24, R90). -/
theorem stopAir_lawful (reason : StopReason) (order : List ChannelId) (s : State) : Lawful s (stopAir reason order s) := by
  have records := stopAir_channel reason order s
  refine ⟨fun sound => ⟨fun c => ?_, fun _ c => ?_⟩, bindingsSound_congr (fun c => ?_) ?_, eventsSound_stopAir reason order,
    fun _ => ?_⟩
  · rw [records]
    exact (channelSound_stopped (sound.1 c)).1
  · rw [records]
    exact (channelSound_stopped (sound.1 c)).2
  · rw [records, stopped_boundGroups]
  · rw [stopAir_frame]
    rfl
  · rw [stopAir_air]
    exact ⟨nofun, fun _ => rfl, Nat.zero_le _⟩

theorem channelSound_unplanned {n m : Nat} :
    ChannelSound { Channel.initial with boundGroups := n, switchCount := m } := by
  simp [ChannelSound, Channel.initial]

theorem softReset_lawful (s : State) : Lawful s (softReset s) := by
  unfold softReset
  refine Lawful.tame ?_ (.offRacks (.refl _) (scanAll_offRacks _))
  refine ⟨fun _ => ⟨fun c => ?_, fun _ c => ?_⟩, bindingsSound_congr (fun c => ?_) ?_, fun _ k => ?_,
    fun _ => ⟨nofun, fun _ => rfl, Nat.zero_le _⟩⟩
  · dsimp only
    rw [mapAll_get]
    exact channelSound_unplanned
  · dsimp only
    rw [mapAll_get]
    exact ⟨.inl rfl, rfl⟩
  · dsimp only
    rw [mapAll_get]
    rfl
  · refine Vector.ext fun i bound => ?_
    unfold State.seats
    rw [Vector.getElem_map, Vector.getElem_map]
    have kept : (mapAll Group.softReset s.groups)[i] = _ := mapAll_get Group.softReset s.groups ⟨i, bound⟩
    have seat := congrArg (fun x : Group => (x.state, x.channel)) kept
    exact seat
  · dsimp only
    rw [mapAll_get]
    exact ⟨Nat.zero_le _, fun _ => rfl, nofun⟩

theorem hardReset_lawful (rate : LineRate) (ready : Bool) (s : State) : Lawful s (State.hardReset rate ready) := by
  obtain ⟨-, -, -, -, channels, bindings, events, air, -⟩ := soundAfterHardReset rate ready
  exact ⟨fun _ => channels, fun _ => bindings, fun _ => events, fun _ => air⟩

end Sys2Proof.Machine
end

section
/-! PROOF. Every request, every command and every step keep the laws of channels, bindings, events and air. -/

namespace Sys2Proof.Machine

/-! ## Requests that move no group and touch neither channel nor air -/

section
variable (body : List Byte) (s : State)

theorem takeSourceConfig_tame : Tame s (takeSourceConfig body s).1 := by
  unfold takeSourceConfig
  split
  · exact .refl s
  · dsimp only
    split
    · exact .raise (.aside (.refl s) rfl rfl)
    · exact .aside (.refl s) rfl rfl

theorem takeSourceMode_tame : Tame s (takeSourceMode body s).1 := by
  unfold takeSourceMode
  split
  · exact .refl s
  · dsimp only
    generalize (if field8 body 1 = 0 then RateMode.auto else .fixed) = mode
    (repeat' split)
    · exact .refl s
    · exact .refl s
    · exact .setLine (.aside (.refl s) rfl rfl)
    · exact .aside (.refl s) rfl rfl

theorem takeSourceMute_tame : Tame s (takeSourceMute body s).1 := by
  unfold takeSourceMute
  dsimp only
  (repeat' split)
  · exact .refl s
  · exact .refl s
  · exact .aside (.refl s) rfl rfl

theorem takeSourceStatus_tame : Tame s (takeSourceStatus body s).1 := by
  unfold takeSourceStatus
  split <;> exact .refl s

theorem takeSourceLolSet_tame : Tame s (takeSourceLolSet body s).1 := by
  unfold takeSourceLolSet
  split
  · exact .refl s
  · exact .setLol (.refl s)

theorem takeChannelStatus_tame : Tame s (takeChannelStatus body s).1 := by
  unfold takeChannelStatus
  split <;> exact .refl s

theorem takeNoticeCancel_tame : Tame s (takeNoticeCancel body s).1 := by
  unfold takeNoticeCancel
  split
  · exact .refl s
  · exact .aside (.refl s) rfl rfl

theorem takeNoticeStatus_tame : Tame s (takeNoticeStatus body s).1 := by
  unfold takeNoticeStatus
  (repeat' split) <;> exact .refl s

theorem takeSchedConfig_tame : Tame s (takeSchedConfig body s).1 := by
  unfold takeSchedConfig
  dsimp only
  split
  · exact .refl s
  · exact .aside (.refl s) rfl rfl

theorem takePoolStatus_tame : Tame s (takePoolStatus body s).1 := by
  unfold takePoolStatus
  dsimp only
  (repeat' split)
  · exact .refl s
  · exact .aside (.refl s) rfl rfl
  · exact .refl s

theorem takeRackDefine_tame : Tame s (takeRackDefine body s).1 := by
  unfold takeRackDefine
  dsimp only
  generalize (if body.length = 6 then min 10000 (field16 body 4) else 2000) = budget
  (repeat' split)
  · exact .refl s
  · exact .refl s
  · exact .refl s
  · exact .refl s
  · exact .defineRack (.refl s)

theorem takeRackRemove_tame : Tame s (takeRackRemove body s).1 := by
  unfold takeRackRemove
  (repeat' split)
  · exact .refl s
  · exact .refl s
  · exact .refl s
  · exact .removeRack (.refl s)

theorem takeRackBudget_tame : Tame s (takeRackBudget body s).1 := by
  unfold takeRackBudget
  dsimp only
  (repeat' split)
  · exact .refl s
  · exact .refl s
  · exact .writeBudget (.refl s)
  · exact .refl s

theorem takeChargeConfig_tame : Tame s (takeChargeConfig body s).1 := by
  unfold takeChargeConfig
  dsimp only
  split
  · exact .refl s
  · exact .forEach (fun _ _ g => g.attempt) _ (.aside (.refl s) rfl rfl)

theorem takeSlotStatus_tame : Tame s (takeSlotStatus body s).1 := by
  unfold takeSlotStatus
  (repeat' split) <;> exact .refl s

theorem takeSlotClearFault_tame : Tame s (takeSlotClearFault body s).1 := by
  unfold takeSlotClearFault
  (repeat' split)
  · exact .refl s
  · exact .refl s
  · exact .refl s
  · exact .clearFault (.refl s)

theorem takeDeviceRead_tame : Tame s (takeDeviceRead body s).1 := by
  unfold takeDeviceRead
  dsimp only
  split <;> exact .refl s

theorem takeDeviceForget_tame : Tame s (takeDeviceForget body s).1 := by
  unfold takeDeviceForget
  (repeat' split)
  · exact .refl s
  · exact .refl s
  · exact .aside (.refl s) rfl rfl

theorem takeGroupStatus_tame : Tame s (takeGroupStatus body s).1 := by
  unfold takeGroupStatus
  split <;> exact .refl s

theorem takeIssue_tame : Tame s (takeIssue body s).1 := by
  unfold takeIssue
  (repeat' split)
  · exact .refl s
  · exact .refl s
  · exact .refl s
  · exact .refl s
  · exact .refl s
  · exact .refl s
  · exact .chooseNext (.createOp (.refl s))

theorem takeIssueCancel_tame : Tame s (takeIssueCancel body s).1 := by
  unfold takeIssueCancel
  (repeat' split)
  · exact .refl s
  · exact .refl s
  · exact .aside (.refl s) rfl rfl

theorem takeIssueStatus_tame : Tame s (takeIssueStatus body s).1 := by
  unfold takeIssueStatus
  (repeat' split) <;> exact .refl s

/-! ## Requests of the event unit -/

theorem takeEventRead_tame : Tame s (takeEventRead body s).1 := by
  unfold takeEventRead
  (repeat' split) <;> exact .refl s

theorem takeEventClear_tame : Tame s (takeEventClear body s).1 := by
  unfold takeEventClear
  split
  · exact .refl s
  · refine .forEach (fun k u before => ?_) _ (.refl s)
    unfold clearKind
    split
    · exact before
    · exact before.setEvent fun _ => ⟨Nat.zero_le _, fun _ => rfl, nofun⟩

theorem takeEventSet_tame : Tame s (takeEventSet body s).1 := by
  unfold takeEventSet
  split
  · exact .refl s
  · exact .raiseKind (.refl s)

theorem takeEventEnable_tame : Tame s (takeEventEnable body s).1 := by
  unfold takeEventEnable
  split
  · exact .refl s
  · refine .forEach (fun k u before => ?_) _ (.refl s)
    have enabled : Tame s (u.setEvent k { u.events[k] with enable := true }) := before.setEvent id
    unfold enableKind
    dsimp only
    (repeat' split)
    · exact before
    · exact enabled.offerNotice
    · exact enabled

theorem takeEventDisable_tame : Tame s (takeEventDisable body s).1 := by
  unfold takeEventDisable
  split
  · exact .refl s
  · exact .forEach (f := disableKind) (fun k _ before => before.setEvent id) _ (.refl s)

/-! ## Requests of the channels, the groups, the notices and the air -/

theorem takeChannelStage_lawful : Lawful s (takeChannelStage body s).1 := by
  unfold takeChannelStage
  split
  · exact .refl s
  · next c _ =>
    dsimp only
    split
    · exact .refl s
    · split
      · exact .refl s
      · next p plan =>
        refine ⟨fun sound => channelsSound_set (x := { s.channels[c] with stagedPlan := some p }) sound rfl rfl ?_
            fun stopped => sound.2 stopped c,
          bindingsSound_congr (boundGroups_set (x := { s.channels[c] with stagedPlan := some p }) rfl rfl) rfl, id, id⟩
        obtain ⟨planned, quiet, listed, -, live, -⟩ := sound.1 c
        exact ⟨planned, quiet, listed, fun _ => Option.some_ne_none p, live, fun q same => Option.some.inj same ▸ planOf_sound plan⟩

theorem takeChannelApply_lawful : Lawful s (takeChannelApply body s).1 := by
  unfold takeChannelApply
  split
  · exact .refl s
  · next c _ =>
    dsimp only
    split
    · exact .refl s
    · split
      · exact .refl s
      · next staged =>
        split
        · next running =>
          refine ⟨fun sound => channelsSound_set (x := { s.channels[c] with applyPending := true }) sound rfl rfl ?_
              fun stopped => absurd (running.symm.trans stopped) nofun,
            bindingsSound_congr (boundGroups_set (x := { s.channels[c] with applyPending := true }) rfl rfl) rfl, id, id⟩
          obtain ⟨planned, quiet, listed, -, live, next⟩ := sound.1 c
          exact ⟨planned, quiet, listed, fun _ => staged, live, next⟩
        · next stopped => exact applyPlan_lawful c 2 (Bool.eq_false_iff.mpr stopped)

theorem takeChannelClose_lawful : Lawful s (takeChannelClose body s).1 := by
  unfold takeChannelClose
  split
  · exact .refl s
  · next c _ =>
    dsimp only
    split
    · exact .refl s
    · exact ⟨fun sound => channelsSound_set (c := c) sound rfl rfl channelSound_unplanned fun _ => ⟨.inl rfl, rfl⟩,
        bindingsSound_congr (boundGroups_set (c := c) rfl rfl) rfl, id, id⟩

theorem takeGroupOpen_lawful : Lawful s (takeGroupOpen body s).1 := by
  unfold takeGroupOpen
  split
  · next g c _ _ =>
    split
    · exact .refl s
    · next free =>
      split
      · exact .refl s
      · refine ⟨fun sound => channelsSound_modBound (s := s.setGroup g _) c _ sound, fun sound => bindingsSound_reseat
          (x := { state := .opened, channel := some c, outCount := 0, issueHandle := none, lastIssue := none }) sound rfl
          (iff_of_false nofun nofun) fun d => ?_, id, id⟩
        rw [boundGroups_modBound, (sound.2 g).mp (not_not.mp free)]
        by_cases same : d = c
        · subst same
          simp
        · simp [same, Ne.symm same]
  · exact .refl s

theorem takeGroupClose_lawful : Lawful s (takeGroupClose body s).1 := by
  unfold takeGroupClose
  split
  · exact .refl s
  · next g _ =>
    dsimp only
    split
    · exact .refl s
    · next used =>
      split
      · exact .refl s
      · split
        · exact freeGroup_lawful g s
        · refine ⟨id, fun sound => bindingsSound_reseat (x := { s.groups[g] with state := .closing }) sound rfl
            (iff_of_false nofun fun home => used ((sound.2 g).mpr home)) fun c => ?_, id, id⟩
          exact (Nat.add_sub_cancel ..).symm

/-- A RETUNE to a group is posted only for an OPEN group (R96), which has a channel. -/
theorem takeNoticePost_lawful : Lawful s (takeNoticePost body s).1 := by
  unfold takeNoticePost
  split
  · next cls kind t _ _ _ =>
    split
    · exact .refl s
    · split
      · exact .refl s
      · split
        · exact .refl s
        · next allowed =>
          split
          · exact .refl s
          · split
            · exact .refl s
            · next cells s1 lent =>
              unfold lendNotice at lent
              obtain ⟨-, given⟩ := Option.ite_none_right_eq_some.mp lent
              obtain ⟨-, rfl⟩ := Prod.ext_iff.mp (Option.some.inj given)
              refine Lawful.trans ?_ (retuneEffect_lawful fun g target named => ?_)
              · exact Tame.lawful (.of_same rfl rfl)
              change t = .group at target
              subst target
              change toIndex 24 (BitVec.ofNat 32 (field32 body 3)).toNat = some g at named
              unfold targetRefusal at allowed
              dsimp only at allowed
              rw [named] at allowed
              dsimp only at allowed
              have opened : s.groups[g].state = .opened := by
                by_contra other
                rw [if_neg other] at allowed
                exact absurd allowed nofun
              change s.groups[g].state ≠ .free
              rw [opened]
              exact nofun
  · exact .refl s

theorem takeAirStart_lawful : Lawful s (takeAirStart body s).1 := by
  unfold takeAirStart
  split
  · exact .refl s
  · split
    · exact .refl s
    · next stopped _ =>
      have begun : Lawful s { s with air := { s.air with running := true } } :=
        ⟨fun sound => ⟨sound.1, nofun⟩, id, id, fun ⟨_, _, due⟩ => ⟨fun _ => rfl, nofun, due⟩⟩
      have waiting : Tame { s with air := { s.air with running := true } }
          (forEach ((List.finRange 14).filter (startsWaiting s)) sourceWaiting { s with air := { s.air with running := true } }) :=
        .forEach (fun _ _ g => g.sourceWaiting) _ (.refl _)
      have runs := congrArg Air.running waiting.air_eq
      exact (begun.tame waiting).trans (.ticks rfl rfl rfl runs runs fun _ => Nat.zero_le _)

theorem takeAirStop_lawful : Lawful s (takeAirStop body s).1 := by
  unfold takeAirStop
  split
  · exact .refl s
  · next runs =>
    have running : s.air.running = true := Bool.eq_true_of_not_eq_false runs
    split
    · exact .refl s
    · exact .ticks rfl rfl rfl running running id

/-- An owner's work on a request keeps the laws. -/
theorem take_lawful (k : RequestKind) : Lawful s (k.take body s).1 := by
  cases k with
  | identify | softReset | airStatus => exact Tame.lawful (.of_same rfl rfl)
  | airStart => exact takeAirStart_lawful body s
  | airStop => exact takeAirStop_lawful body s
  | sourceConfig => exact (takeSourceConfig_tame body s).lawful
  | sourceMode => exact (takeSourceMode_tame body s).lawful
  | sourceMute => exact (takeSourceMute_tame body s).lawful
  | sourceStatus => exact (takeSourceStatus_tame body s).lawful
  | sourceLolSet => exact (takeSourceLolSet_tame body s).lawful
  | channelStage => exact takeChannelStage_lawful body s
  | channelApply => exact takeChannelApply_lawful body s
  | channelClose => exact takeChannelClose_lawful body s
  | channelStatus => exact (takeChannelStatus_tame body s).lawful
  | noticePost => exact takeNoticePost_lawful body s
  | noticeCancel => exact (takeNoticeCancel_tame body s).lawful
  | noticeStatus => exact (takeNoticeStatus_tame body s).lawful
  | schedConfig => exact (takeSchedConfig_tame body s).lawful
  | poolStatus => exact (takePoolStatus_tame body s).lawful
  | rackDefine => exact (takeRackDefine_tame body s).lawful
  | rackRemove => exact (takeRackRemove_tame body s).lawful
  | rackBudget => exact (takeRackBudget_tame body s).lawful
  | chargeConfig => exact (takeChargeConfig_tame body s).lawful
  | slotStatus => exact (takeSlotStatus_tame body s).lawful
  | slotClearFault => exact (takeSlotClearFault_tame body s).lawful
  | deviceRead => exact (takeDeviceRead_tame body s).lawful
  | deviceForget => exact (takeDeviceForget_tame body s).lawful
  | groupOpen => exact takeGroupOpen_lawful body s
  | groupClose => exact takeGroupClose_lawful body s
  | groupStatus => exact (takeGroupStatus_tame body s).lawful
  | issue => exact (takeIssue_tame body s).lawful
  | issueCancel => exact (takeIssueCancel_tame body s).lawful
  | issueStatus => exact (takeIssueStatus_tame body s).lawful
  | eventRead => exact (takeEventRead_tame body s).lawful
  | eventClear => exact (takeEventClear_tame body s).lawful
  | eventSet => exact (takeEventSet_tame body s).lawful
  | eventEnable => exact (takeEventEnable_tame body s).lawful
  | eventDisable => exact (takeEventDisable_tame body s).lawful

end

/-! ## The link -/

theorem judged_lawful (k : RequestKind) (body : List Byte) (s : State) : Lawful s (judged k.lengthOk k.take body s).1 := by
  unfold judged
  split
  · exact take_lawful body s k
  · exact .refl s

theorem serveWith_lawful (kind tag : Byte) {owner : State → Answer} (h : ∀ s, Lawful s (owner s).1) (s : State) :
    Lawful s (serveWith kind tag owner s) :=
  ((Tame.of_same rfl rfl : Tame s (s.addOutbound .reserved)).lawful.trans (h _)).tame (.of_same rfl rfl)

theorem placeGoodFrame_tame (f : Frame) (s : State) : Tame s (placeGoodFrame f s) := by
  unfold placeGoodFrame
  (repeat' split)
  · exact .refl s
  · exact .aside (.refl s) rfl rfl
  · exact .aside (.refl s) rfl rfl
  · exact .raise (.refl s)

theorem submit_lawful (k : RequestKind) (tag : Byte) (body : List Byte) (s : State) :
    Lawful s (submit k.code k.lengthOk k.take tag body s) := by
  rcases submit_cases k tag body s with ⟨-, -, -, served⟩ | ⟨-, placed⟩
  · rw [served]
    exact serveWith_lawful _ _ (judged_lawful k body) s
  · rw [placed]
    exact (placeGoodFrame_tame ..).lawful

theorem answerFrame_lawful (f : Frame) (s : State) : Lawful s (answerFrame f s).1 := by
  unfold answerFrame
  split
  · exact .refl s
  · exact judged_lawful _ _ s

theorem received_tame {s t : State} (h : Received s t) : Tame s t := by
  cases h with
  | ignored => exact .refl s
  | hunting | receiving => exact .aside (.refl s) rfl rfl
  | good f => exact (Tame.of_same rfl rfl : Tame s { s with link := s.link.hunting }).trans (placeGoodFrame_tame f _)
  | bad d => exact .raise (.aside (.refl s) rfl rfl)

/-! ## Every command, and every step -/

theorem Lawful.of_next {s t u : State} (h : Lawful s u) (same : (.next u : Host.Outcome State Fault Refusal) = .next t) :
    Lawful s t := by
  injection same with same
  exact same ▸ h

theorem request_lawful (k : RequestKind) (tag : Byte) (body : List Byte) {s t : State} (h : exec (k.command tag body) s = .next t) :
    Lawful s t := by
  rw [exec_command] at h
  exact (submit_lawful k tag body s).of_next h

theorem requestService_lawful {s t : State} (h : exec .requestService s = .next t) : Lawful s t := by
  rcases requestService_cases s with waits | ⟨f, rest, -, -, serves⟩
  · rw [waits] at h
    exact (Lawful.refl s).of_next h
  · rw [serves] at h
    refine Lawful.of_next ?_ h
    exact (serveWith_lawful f.kind f.tag (answerFrame_lawful f) s).tame (.of_same rfl rfl)

theorem exchangeComplete_lawful {s t : State} (h : exec .exchangeComplete s = .next t) : Lawful s t := by
  have freed : Tame s (freeBus s) := .aside (.refl s) rfl rfl
  change execExchangeComplete s = _ at h
  unfold execExchangeComplete at h
  split at h
  · exact (Lawful.refl s).of_next h
  · split at h
    · exact (Lawful.refl s).of_next h
    · refine Lawful.of_next ?_ h
      split
      · exact freed.deliverDiscarded.lawful
      · exact freed.lawful.trans (complete_lawful ..)

theorem exchangeTimeout_tame {s t : State} (h : exec .exchangeTimeout s = .next t) : Tame s t := by
  have freed : Tame s (freeBus s) := .aside (.refl s) rfl rfl
  change execExchangeTimeout s = _ at h
  unfold execExchangeTimeout at h
  (repeat' split at h) <;> injection h with h <;> rw [← h]
  · exact .refl s
  · exact .refl s
  · exact freed.deliverDiscarded
  · exact freed.scanTimeout
  · exact freed.slotTimeout
  · exact freed

theorem pollTimerExpiry_tame {a : SlotAddr} {s t : State} (h : exec (.pollTimerExpiry a) s = .next t) : Tame s t := by
  change execPollTimerExpiry a s = _ at h
  unfold execPollTimerExpiry at h
  have polled : Tame s (ask (.poll a) (s.modSlot a (fun x => { x with pollTimer := some s.charge.pollPeriod }))) :=
    .ask (.aside (.refl s) rfl rfl)
  (repeat' split at h) <;> injection h with h <;> rw [← h]
  · exact .refl s
  · exact .refl s
  · exact .requestSetCharge (polled.aside rfl rfl)
  · exact polled

theorem uplinkBlockDelivery_lawful {k : RosterId} {bytes : List Byte} {good : Bool} {s t : State}
    (h : exec (.uplinkBlockDelivery k bytes good) s = .next t) : Lawful s t := by
  change execUplinkBlockDelivery k bytes good s = _ at h
  unfold execUplinkBlockDelivery at h
  split at h
  · next moment =>
    obtain ⟨running, -⟩ := moment
    have placed : Lawful s (s.pastSlot k) := .ticks rfl rfl rfl running running fun _ => by
      change 25 + k.val ≤ 39
      omega
    refine Lawful.of_next ?_ h
    split
    · exact placed.tame (.takeUplinkBlock (.refl _))
    · exact placed
  · exact (Lawful.refl s).of_next h

theorem buildMark_lawful {order : List ChannelId} {s t : State} (h : exec (.buildMark order) s = .next t) : Lawful s t := by
  change execBuildMark order s = _ at h
  unfold execBuildMark at h
  split at h
  · next moment =>
    obtain ⟨running, -⟩ := moment
    refine Lawful.of_next ?_ h
    split
    · exact stopAir_lawful ..
    · have placed : Tame s (placeNotices (s.air.count + 1) (noticeCapacity s) s).1 := .placeNotices (.refl s)
      have runs : (placeNotices (s.air.count + 1) (noticeCapacity s) s).1.air.running = true :=
        (congrArg Air.running placed.air_eq).trans running
      exact placed.lawful.trans (.ticks rfl rfl rfl runs runs fun _ => Nat.le_refl _)
  · exact (Lawful.refl s).of_next h

/-- Every command keeps the laws of channels, bindings, events and air. -/
theorem exec_lawful (c : Instr) {s t : State} (h : exec c s = .next t) : Lawful s t := by
  cases c
  case hardReset rate1 rate0 ready =>
    refine Lawful.of_next ?_ h
    exact (hardReset_lawful (rateOf rate1 rate0) ready s).tame (.of_same rfl rfl)
  case frameReceive chars =>
    have received : Tame s (forEach chars receiveChar s) :=
      .forEach (fun c _ before => before.trans (received_tame (receiveChar_received c _))) chars (.refl s)
    exact received.lawful.of_next h
  case gapExpiry =>
    refine Lawful.of_next ?_ h
    split
    · exact (received_tame (.bad 2)).lawful
    · exact .refl s
  case requestService => exact requestService_lawful h
  case frameTransmitted =>
    change execFrameTransmitted s = _ at h
    unfold execFrameTransmitted at h
    split at h
    · refine Lawful.of_next ?_ h
      exact Tame.lawful (.of_same rfl rfl)
    · exact (Lawful.refl s).of_next h
  case softResetPerform =>
    refine Lawful.of_next ?_ h
    split
    · exact softReset_lawful s
    · exact .refl s
  case superframeStart =>
    refine Lawful.of_next ?_ h
    split
    · next moment =>
      obtain ⟨running, -⟩ := moment
      exact .ticks rfl rfl rfl running running fun _ => Nat.zero_le _
    · exact .refl s
  case downlinkSlot slot =>
    change execDownlinkSlot slot s = _ at h
    unfold execDownlinkSlot at h
    split at h
    · next moment =>
      obtain ⟨running, -⟩ := moment
      refine Lawful.of_next ?_ h
      refine .ticks rfl rfl rfl running running fun _ => ?_
      change slot.val + 1 ≤ 39
      omega
    · exact (Lawful.refl s).of_next h
  case uplinkBlockDelivery => exact uplinkBlockDelivery_lawful h
  case lineBlockDelivery l v =>
    change execLineBlockDelivery l v s = _ at h
    unfold execLineBlockDelivery at h
    split at h
    · have taken : Lawful s (takeLine l s) := ⟨id, id, id, id⟩
      exact (taken.tame (.arrival (.refl _))).of_next h
    · exact (Lawful.refl s).of_next h
  case outputMark order =>
    change execOutputMark order s = _ at h
    unfold execOutputMark at h
    split at h
    · next moment =>
      obtain ⟨running, -⟩ := moment
      have passed : Lawful s s.pastOutput := .ticks rfl rfl rfl running running fun _ => show 37 ≤ 39 by decide
      exact (passed.tame (.forEach (fun _ _ g => g.outputSource) (fullOrder order) (.refl _))).of_next h
    · exact (Lawful.refl s).of_next h
  case reviewMark order =>
    change execReviewMark order s = _ at h
    unfold execReviewMark at h
    split at h
    · next moment =>
      obtain ⟨running, -⟩ := moment
      have passed : Lawful s s.pastReview := .ticks rfl rfl rfl running running fun _ => show 38 ≤ 39 by decide
      exact (passed.trans (reviews_lawful (fullOrder order) running)).of_next h
    · exact (Lawful.refl s).of_next h
  case buildMark => exact buildMark_lawful h
  case readyLineFall order =>
    refine Lawful.of_next ?_ h
    have fell : Lawful s (fallen s) := ⟨id, id, id, id⟩
    split
    · exact (fell.trans (stopAir_lawful .readyLost order _)).tame (.raise (.refl _))
    · exact fell
  case readyLineRise =>
    refine Lawful.of_next ?_ h
    exact ⟨id, id, id, id⟩
  case exchangeStart =>
    change execExchangeStart s = _ at h
    unfold execExchangeStart at h
    split at h
    · refine Lawful.of_next ?_ h
      exact Tame.lawful (.of_same rfl rfl)
    · exact (Lawful.refl s).of_next h
  case exchangeAnswer bytes =>
    change execExchangeAnswer bytes s = _ at h
    unfold execExchangeAnswer at h
    split at h
    · split at h
      · refine Lawful.of_next ?_ h
        exact Tame.lawful (.of_same rfl rfl)
      · exact (Lawful.refl s).of_next h
    · exact (Lawful.refl s).of_next h
  case exchangeComplete => exact exchangeComplete_lawful h
  case exchangeTimeout => exact (exchangeTimeout_tame h).lawful
  case scanTimerExpiry r =>
    change execScanTimerExpiry r s = _ at h
    unfold execScanTimerExpiry at h
    split at h
    · refine Lawful.of_next ?_ h
      split
      · exact (Tame.ask (.refl s)).lawful
      · exact .refl s
    · exact (Lawful.refl s).of_next h
  case attentionFall => exact (Tame.offRacks (.refl s) (scanAll_offRacks s)).lawful.of_next h
  case pollTimerExpiry => exact (pollTimerExpiry_tame h).lawful
  case identify => exact request_lawful .identify _ _ h
  case softReset => exact request_lawful .softReset _ _ h
  case airStart => exact request_lawful .airStart _ _ h
  case airStop => exact request_lawful .airStop _ _ h
  case airStatus => exact request_lawful .airStatus _ _ h
  case poolStatus => exact request_lawful .poolStatus _ _ h
  case sourceConfig => exact request_lawful .sourceConfig _ _ h
  case sourceMode => exact request_lawful .sourceMode _ _ h
  case sourceMute => exact request_lawful .sourceMute _ _ h
  case sourceStatus => exact request_lawful .sourceStatus _ _ h
  case sourceLolSet => exact request_lawful .sourceLolSet _ _ h
  case channelStage => exact request_lawful .channelStage _ _ h
  case channelApply => exact request_lawful .channelApply _ _ h
  case channelClose => exact request_lawful .channelClose _ _ h
  case channelStatus => exact request_lawful .channelStatus _ _ h
  case noticePost => exact request_lawful .noticePost _ _ h
  case noticeCancel => exact request_lawful .noticeCancel _ _ h
  case noticeStatus => exact request_lawful .noticeStatus _ _ h
  case schedConfig => exact request_lawful .schedConfig _ _ h
  case rackDefine => exact request_lawful .rackDefine _ _ h
  case rackRemove => exact request_lawful .rackRemove _ _ h
  case slotStatus => exact request_lawful .slotStatus _ _ h
  case slotClearFault => exact request_lawful .slotClearFault _ _ h
  case rackBudget => exact request_lawful .rackBudget _ _ h
  case chargeConfig => exact request_lawful .chargeConfig _ _ h
  case deviceRead => exact request_lawful .deviceRead _ _ h
  case deviceForget => exact request_lawful .deviceForget _ _ h
  case groupOpen => exact request_lawful .groupOpen _ _ h
  case groupClose => exact request_lawful .groupClose _ _ h
  case groupStatus => exact request_lawful .groupStatus _ _ h
  case issue => exact request_lawful .issue _ _ h
  case issueCancel => exact request_lawful .issueCancel _ _ h
  case issueStatus => exact request_lawful .issueStatus _ _ h
  case eventRead => exact request_lawful .eventRead _ _ h
  case eventClear => exact request_lawful .eventClear _ _ h
  case eventSet => exact request_lawful .eventSet _ _ h
  case eventEnable => exact request_lawful .eventEnable _ _ h
  case eventDisable => exact request_lawful .eventDisable _ _ h

theorem step_lawful {s t : State} (h : step s = .next t) : Lawful s t := by
  unfold step at h
  split at h
  · exact (Lawful.refl s).of_next h
  · next c rest _ =>
    have aside : Tame s { s with pending := rest } := .of_same rfl rfl
    exact aside.lawful.trans (exec_lawful c h)

/-- Settles O7: reviews, applies and closes leave sound records, a stop hushes every channel, and nothing else writes them. -/
theorem activeSourceLawKept : Obligations.ActiveSourceLawKept := fun _ _ sound h => (step_lawful h).channels sound

/-- Settles O9: the counts follow each group's move; a raise writes raw and latest together, and the superframe's place stays within
its parts. -/
theorem bindingEventAndAirRecordsKept : Obligations.BindingEventAndAirRecordsKept :=
  ⟨fun _ _ sound h => (step_lawful h).bindings sound,
    fun _ _ events air h => ⟨(step_lawful h).events events, (step_lawful h).air air⟩⟩

end Sys2Proof.Machine
end

section
/-! PROOF. The requests NOTICE_CANCEL, NOTICE_STATUS and SCHED_CONFIG: what each answers and leaves. -/

namespace Sys2Proof.Machine

/-! ## A record by its handle -/

theorem notice?_of_mem {s : State} (once : (s.sched.records.map NoticeRecord.handle).Nodup) {n : NoticeRecord}
    (mem : n ∈ s.sched.records) : s.notice? n.handle = some n := by
  have held : (s.notice? n.handle).isSome = true := (notice?_isSome_iff s _).mpr (List.mem_map_of_mem mem)
  obtain ⟨r, found⟩ := Option.isSome_iff_exists.mp held
  obtain ⟨inTable, same⟩ := mem_of_notice? found
  rw [found, record_of_handle once inTable mem same]

theorem notice?_eq_none_iff {s : State} {h : Nat} : s.notice? h = none ↔ HandleFree h s := by
  unfold State.notice?
  simp only [List.find?_eq_none, decide_eq_true_eq]

/-! ## The three requests -/

/-- NOTICE_CANCEL of a handle, by the record that holds it (R110). -/
theorem takeNoticeCancel_handle {h : Nat} (small : h < 65536) (s : State) : takeNoticeCancel (le16 h) s =
    (s.notice? h).elim (refuse s .noObject) fun n =>
      (removeNotice n s, .okWith (le16 n.handle ++ le8 n.transmissions ++ le8 n.repeatsRemaining)) := by
  rw [takeNoticeCancel, show field16 (le16 h) 0 = h from le16_value h small]
  cases s.notice? h <;> rfl

/-- NOTICE_STATUS of a handle that is not 0, by the record that holds it (R111). -/
theorem takeNoticeStatus_handle {h : Nat} (small : h < 65536) (named : h ≠ 0) (s : State) : takeNoticeStatus (le16 h) s =
    (s.notice? h).elim (refuse s .noObject) fun n => (s, .okWith (n.fields s)) := by
  rw [takeNoticeStatus, show field16 (le16 h) 0 = h from le16_value h small, if_neg named]
  cases s.notice? h <;> rfl

/-- Settles O46: each answer is read off the record that the handle names, or off the scheduler. -/
theorem noticeCancelStatusConfig : Obligations.NoticeCancelStatusConfig := by
  intro tag s now sound
  obtain ⟨-, once, records, -⟩ := sound
  refine ⟨fun n mem => ?_, fun h small free => ?_, ?_, ?_, fun b => ?_⟩
  · obtain ⟨⟨above, below⟩, -⟩ := records n mem
    have small : n.handle < 65536 := Nat.lt_succ_of_le below
    have found : s.notice? n.handle = some n := notice?_of_mem once mem
    constructor
    · refine exec_command_off_link .noticeCancel tag _ s (removeNotice n s)
        (.okWith (le16 n.handle ++ le8 n.transmissions ++ le8 n.repeatsRemaining)) now rfl rfl fun l => ?_
      refine (takeNoticeCancel_handle small _).trans ?_
      rw [show ({ s with link := l } : State).notice? n.handle = some n from found]
      rfl
    · refine exec_command_off_link .noticeStatus tag _ s s (.okWith (n.fields s)) now rfl rfl fun l => ?_
      refine (takeNoticeStatus_handle small (Nat.ne_of_gt above) _).trans ?_
      rw [show ({ s with link := l } : State).notice? n.handle = some n from found]
      rfl
  · have absent : s.notice? h = none := notice?_eq_none_iff.mpr free
    refine ⟨?_, fun named => ?_⟩
    · refine exec_command_off_link .noticeCancel tag _ s s (.bare .noObject) now rfl rfl fun l => ?_
      refine (takeNoticeCancel_handle small _).trans ?_
      rw [show ({ s with link := l } : State).notice? h = none from absent]
      rfl
    · refine exec_command_off_link .noticeStatus tag _ s s (.bare .noObject) now rfl rfl fun l => ?_
      refine (takeNoticeStatus_handle small named _).trans ?_
      rw [show ({ s with link := l } : State).notice? h = none from absent]
      rfl
  · exact exec_command_off_link .noticeStatus tag [0, 0] s s (.okWith (schedSummary s)) now rfl rfl fun l => rfl
  · exact exec_command_off_link .schedConfig tag [] s s
      (.okWith (le8 s.sched.lateLimit ++ le8 s.sched.lateCounter ++ leFlag s.sched.lateFlag)) now rfl rfl fun l => rfl
  · exact exec_command_off_link .schedConfig tag [b] s { s with sched := { s.sched with lateLimit := max 1 b.toNat } }
      (.okWith (le8 (max 1 b.toNat) ++ le8 s.sched.lateCounter ++ leFlag s.sched.lateFlag)) now rfl rfl fun l => rfl

end Sys2Proof.Machine
end

section
/-! PROOF. NOTICE_POST: the checks that refuse it, the handle and the record of one that is taken, and the retune effect. -/

namespace Sys2Proof.Machine

/-! ## The link apart -/

section
variable (l : Link) (s : State)

theorem freeHandle_link (n h : Nat) : freeHandle n h { s with link := l } = freeHandle n h s := by
  induction n generalizing h with
  | zero => rfl
  | succ n ih =>
    unfold freeHandle
    rw [ih]
    rfl

theorem retuneEffect_link (n : NoticeRecord) : retuneEffect n { s with link := l } = { retuneEffect n s with link := l } := by
  unfold retuneEffect
  split
  · split
    · next g _ =>
      unfold retuneGroup
      dsimp only
      cases s.groups[g].channel with
      | none => rfl
      | some old =>
        dsimp only
        split <;> rfl
    · rfl
  · rfl
  · rfl

theorem lendNotice_link (n : Nat) :
    lendNotice n { s with link := l } = (lendNotice n s).map (fun p => (p.1, { p.2 with link := l })) := by
  unfold lendNotice
  split <;> rfl

/-- NOTICE_POST neither reads nor writes the link. -/
theorem takeNoticePost_link (body : List Byte) : takeNoticePost body { s with link := l } =
    ({ (takeNoticePost body s).1 with link := l }, (takeNoticePost body s).2) := by
  have handle : assignHandle { s with link := l } = assignHandle s := freeHandle_link l s _ _
  have target : ∀ t v, targetRefusal t v { s with link := l } = targetRefusal t v s := fun _ _ => rfl
  have retune : ∀ k t c, retuneRefusal k t c { s with link := l } = retuneRefusal k t c s := fun _ _ _ => rfl
  unfold takeNoticePost
  split
  · next cls kind t _ _ _ =>
    rw [target, retune, handle, lendNotice_link]
    split
    · rfl
    split
    · rfl
    split
    · rfl
    split
    · rfl
    cases lendNotice (cellsNeeded (field8 body 12)) s with
    | none => rfl
    | some lent => 
      let n := newNotice body cls kind t lent.1 (assignHandle s) s.air.count
      exact congrArg (·, n.postReply) (retuneEffect_link l (insertNotice n lent.2) n)
  · rfl

end

/-- NOTICE_POST, by its work and its answer on the state itself. -/
theorem exec_noticePost (tag : Byte) {body : List Byte} {s t : State} {r : Reply} (now : ServesNow s)
    (length : noticePostLength body = true) (work : takeNoticePost body s = (t, r)) (same : t.link = s.link) :
    exec (.noticePost tag body) s = .next (replied 0x20 tag r.status.code r.fields t) :=
  exec_command_off_link .noticePost tag body s t r now length same fun l => (takeNoticePost_link l s body).trans (by rw [work])

/-! ## The handle (R94) -/

theorem handleAfter_eq_nextNumber {h : Nat} (high : h ≤ 65535) : handleAfter h = nextNumber h := by
  unfold handleAfter nextNumber
  exact if_congr ⟨fun last => Nat.le_antisymm high last, fun last => Nat.le_of_eq last.symm⟩ rfl rfl

/-- The search ends at the first number that no record holds, if its looks reach it. -/
theorem freeHandle_first {n j h : Nat} {s : State} (high : h ≤ 65535) (reached : j ≤ n) (free : HandleFree (nextNumber^[j] h) s)
    (held : ∀ i < j, ¬ HandleFree (nextNumber^[i] h) s) : freeHandle n h s = nextNumber^[j] h := by
  induction n generalizing j h with
  | zero =>
    obtain rfl := Nat.le_zero.mp reached
    rfl
  | succ n ih =>
    unfold freeHandle
    cases j with
    | zero => exact if_neg (by simpa using notice?_eq_none_iff.mpr free)
    | succ j =>
      have taken : (s.notice? h).isSome = true :=
        Option.isSome_iff_ne_none.mpr fun none => held 0 (Nat.succ_pos j) (notice?_eq_none_iff.mp none)
      rw [if_pos taken, ih (handleAfter_range h).2 (Nat.le_of_succ_le_succ reached)]
      all_goals rw [handleAfter_eq_nextNumber high]
      · rfl
      · exact free
      · exact fun i small => held (i + 1) (Nat.succ_lt_succ small)

theorem freeHandle_high {n h : Nat} (high : h ≤ 65535) (s : State) : freeHandle n h s ≤ 65535 := by
  induction n generalizing h with
  | zero => exact high
  | succ n ih =>
    unfold freeHandle
    split
    · exact ih (handleAfter_range h).2
    · exact high

/-! ## The fields of a posting (R95) -/

/-- The class, the kind and the target type that a byte within its range names. -/
def postedClass (b : Byte) : NoticeClass := if b = 0 then .urgent else .routine
def postedKind (b : Byte) : NoticeKind := if b = 0 then .text else if b = 1 then .call else .retune
def postedTarget (b : Byte) : TargetType := if b = 0 then .all else if b = 1 then .channel else if b = 2 then .group else .device

theorem byte_eq_ofNat {b : Byte} {n : Nat} (h : b.toNat = n) : b = BitVec.ofNat 8 n := by
  rw [← h, BitVec.ofNat_toNat, BitVec.setWidth_eq]

theorem noticeClassOf_posted {b : Byte} (small : b.toNat ≤ 1) : noticeClassOf b.toNat = some (postedClass b) := by
  obtain rfl | rfl : b = 0 ∨ b = 1 := by bv_omega
  · rfl
  · rfl

theorem noticeKindOf_posted {b : Byte} (small : b.toNat ≤ 2) : noticeKindOf b.toNat = some (postedKind b) := by
  obtain rfl | rfl | rfl : b = 0 ∨ b = 1 ∨ b = 2 := by bv_omega
  · rfl
  · rfl
  · rfl

theorem targetTypeOf_posted {b : Byte} (small : b.toNat ≤ 3) : targetTypeOf b.toNat = some (postedTarget b) := by
  obtain rfl | rfl | rfl | rfl : b = 0 ∨ b = 1 ∨ b = 2 ∨ b = 3 := by bv_omega
  · rfl
  · rfl
  · rfl
  · rfl

theorem noticeClassOf_high {n : Nat} (high : 1 < n) : noticeClassOf n = none := by
  obtain ⟨k, rfl⟩ := Nat.exists_eq_add_of_le' high
  rfl

theorem noticeKindOf_high {n : Nat} (high : 2 < n) : noticeKindOf n = none := by
  obtain ⟨k, rfl⟩ := Nat.exists_eq_add_of_le' high
  rfl

theorem targetTypeOf_high {n : Nat} (high : 3 < n) : targetTypeOf n = none := by
  obtain ⟨k, rfl⟩ := Nat.exists_eq_add_of_le' high
  rfl

/-- A code past its range is refused first (R95). -/
theorem takeNoticePost_high {body : List Byte} (high : 1 < field8 body 0 ∨ 2 < field8 body 1 ∨ 3 < field8 body 2) (s : State) :
    takeNoticePost body s = refuse s .badValue := by
  unfold takeNoticePost
  rcases high with high | high | high
  · rw [noticeClassOf_high high]
  · rw [noticeKindOf_high high]
    cases noticeClassOf (field8 body 0) <;> rfl
  · rw [targetTypeOf_high high]
    cases noticeClassOf (field8 body 0) <;> cases noticeKindOf (field8 body 1) <;> rfl

/-! ## The checks of R96 -/

/-- A CLOSED channel has this number. -/
abbrev ClosedNumber (x : Nat) (s : State) : Prop := ∃ c : ChannelId, c.val = x ∧ s.channels[c].state = .closed

/-- Check 2 of R96 in the terms of the claims. -/
def targetStatus (target value : Nat) (s : State) : Option Byte :=
  if target = 1 ∧ 15 < value then some 0x06
  else if target = 1 ∧ ClosedNumber value s then some 0x07
  else if target = 2 ∧ 23 < value then some 0x06
  else if target = 2 ∧ ¬ ∃ g : GroupId, g.val = value ∧ s.groups[g].state = .opened then some 0x07
  else if target = 3 ∧ ¬ ∃ d ∈ s.devices, d.id.toNat = value then some 0x06
  else none

/-- Check 3 of R96 in the terms of the claims. -/
def retuneStatus (kind target channel : Nat) (s : State) : Option Byte :=
  if kind = 2 ∧ target ≠ 2 ∧ target ≠ 3 then some 0x05
  else if kind = 2 ∧ 15 < channel then some 0x06
  else if kind = 2 ∧ ClosedNumber channel s then some 0x07
  else none

theorem ite_some_or {α : Type} (c : Prop) [Decidable c] (a : α) (x y : Option α) :
    (if c then some a else x).or y = if c then some a else x.or y := by
  split <;> rfl

theorem postRefusal_eq (cls kind target value channel len : Nat) (s : State) : postRefusal cls kind target value channel len s =
    if 1 < cls ∨ 2 < kind ∨ 3 < target ∨ 192 < len then some 0x05
    else if 64 ≤ s.sched.records.length then some 0x09
    else (targetStatus target value s).or ((retuneStatus kind target channel s).or
      (if s.pool.freeList.length < payloadCells len + 64 then some 0x09 else none)) := by
  simp only [postRefusal, targetStatus, retuneStatus, decide_eq_true_eq, ite_some_or, Option.none_or]

/-- The retune channel of a RETUNE that passes every check has its number (R96). -/
theorem retuneChannel_of_passed {cls kind target value channel len : Nat} {s : State}
    (passed : postRefusal cls kind target value channel len s = none) (retune : kind = 2) : channel < 16 := by
  by_contra high
  have refused : retuneStatus kind target channel s ≠ none := by
    unfold retuneStatus
    split
    · nofun
    · rw [if_pos ⟨retune, Nat.lt_of_not_le fun low => high (Nat.lt_succ_of_le low)⟩]
      nofun
  rw [postRefusal_eq] at passed
  split at passed
  · exact absurd passed nofun
  split at passed
  · exact absurd passed nofun
  · exact refused (Option.or_eq_none_iff.mp (Option.or_eq_none_iff.mp passed).2).1

/-- The object with a number, or the number past them all. -/
theorem toIndex_cases (n x : Nat) : (∃ k : Fin n, x = k.val ∧ toIndex n x = some k) ∨ (n ≤ x ∧ toIndex n x = none) := by
  rcases Nat.lt_or_ge x n with within | outside
  · exact .inl ⟨⟨x, within⟩, rfl, toIndex_val ⟨x, within⟩⟩
  · exact .inr ⟨outside, toIndex_none outside⟩

theorem closedNumber_val {c : ChannelId} {s : State} : ClosedNumber c.val s ↔ s.channels[c].state = .closed :=
  ⟨fun ⟨_, same, closed⟩ => Fin.ext same ▸ closed, fun closed => ⟨c, rfl, closed⟩⟩

theorem opened_val {g : GroupId} {s : State} :
    (∃ h : GroupId, h.val = g.val ∧ s.groups[h].state = .opened) ↔ s.groups[g].state = .opened :=
  ⟨fun ⟨_, same, opened⟩ => Fin.ext same ▸ opened, fun opened => ⟨g, rfl, opened⟩⟩

theorem device?_isSome_iff {s : State} {id : DeviceId} : (s.device? id).isSome = true ↔ ∃ d ∈ s.devices, d.id.toNat = id.toNat := by
  unfold State.device?
  simp only [List.find?_isSome, decide_eq_true_eq, BitVec.toNat_inj]

theorem targetRefusal_code {target : Byte} (small : target.toNat ≤ 3) (value : BitVec 32) (s : State) :
    (targetRefusal (postedTarget target) value s).map Status.code = targetStatus target.toNat value.toNat s := by
  obtain rfl | rfl | rfl | rfl : target = 0 ∨ target = 1 ∨ target = 2 ∨ target = 3 := by bv_omega
  · rfl
  · change (targetRefusal .channel value s).map Status.code = targetStatus 1 value.toNat s
    unfold targetRefusal targetStatus
    rcases toIndex_cases 16 value.toNat with ⟨c, number, named⟩ | ⟨high, unnamed⟩
    · have low : ¬ 15 < c.val := Nat.not_lt.mpr (Nat.le_of_lt_succ c.isLt)
      rw [named, number]
      simp only [low, closedNumber_val]
      by_cases closed : s.channels[c].state = .closed
      · simp only [closed]
        rfl
      · simp only [closed]
        rfl
    · simp [unnamed, Nat.lt_of_succ_le high, Status.code]
  · change (targetRefusal .group value s).map Status.code = targetStatus 2 value.toNat s
    unfold targetRefusal targetStatus
    rcases toIndex_cases 24 value.toNat with ⟨g, number, named⟩ | ⟨high, unnamed⟩
    · have low : ¬ 23 < g.val := Nat.not_lt.mpr (Nat.le_of_lt_succ g.isLt)
      rw [named, number]
      simp only [low, opened_val]
      by_cases opened : s.groups[g].state = .opened
      · simp only [opened]
        rfl
      · simp only [opened]
        rfl
    · simp [unnamed, Nat.lt_of_succ_le high, Status.code]
  · change (targetRefusal .device value s).map Status.code = targetStatus 3 value.toNat s
    unfold targetRefusal targetStatus
    simp only [device?_isSome_iff]
    split <;> simp_all [Status.code]

theorem postedKind_retune {kind : Byte} (small : kind.toNat ≤ 2) : postedKind kind = .retune ↔ kind.toNat = 2 := by
  obtain rfl | rfl | rfl : kind = 0 ∨ kind = 1 ∨ kind = 2 := by bv_omega
  all_goals decide

theorem postedTarget_moves {target : Byte} (small : target.toNat ≤ 3) :
    (postedTarget target ≠ .group ∧ postedTarget target ≠ .device) ↔ target.toNat ≠ 2 ∧ target.toNat ≠ 3 := by
  obtain rfl | rfl | rfl | rfl : target = 0 ∨ target = 1 ∨ target = 2 ∨ target = 3 := by bv_omega
  all_goals decide

theorem retuneRefusal_code {kind target : Byte} (smallKind : kind.toNat ≤ 2) (smallTarget : target.toNat ≤ 3) (channel : Nat)
    (s : State) : (retuneRefusal (postedKind kind) (postedTarget target) channel s).map Status.code =
      retuneStatus kind.toNat target.toNat channel s := by
  unfold retuneRefusal retuneStatus
  rw [if_congr (not_congr (postedKind_retune smallKind)) rfl (if_congr (postedTarget_moves smallTarget) rfl rfl)]
  by_cases retune : kind.toNat = 2
  · by_cases still : target.toNat ≠ 2 ∧ target.toNat ≠ 3
    · simp [retune, still, Status.code]
    rcases toIndex_cases 16 channel with ⟨c, number, named⟩ | ⟨high, unnamed⟩
    · have low : ¬ 15 < c.val := Nat.not_lt.mpr (Nat.le_of_lt_succ c.isLt)
      rw [named, number]
      simp only [retune, still, low, closedNumber_val]
      by_cases closed : s.channels[c].state = .closed
      · simp only [closed]
        rfl
      · simp only [closed]
        rfl
    · simp [retune, still, unnamed, Nat.lt_of_succ_le high, Status.code]
  · simp [retune]

/-- The state with a record joined and m free cells lent to it (R97, R98). -/
def State.posted (s : State) (n : NoticeRecord) (m : Nat) : State :=
  insertNotice n { s with pool := s.pool.lent (s.pool.freeList.drop m) }

/-- NOTICE_POST by its fields: it is refused with the status of the claims, or every check passes and its record joins (R95, R96). -/
theorem takeNoticePost_cases {body : List Byte} {cls kind target : Byte} {len : Nat} (hcls : field8 body 0 = cls.toNat)
    (hkind : field8 body 1 = kind.toNat) (htarget : field8 body 2 = target.toNat) (hlen : field8 body 12 = len) (s : State) :
    let value := BitVec.ofNat 32 (field32 body 3)
    let refusal := postRefusal cls.toNat kind.toNat target.toNat value.toNat (field8 body 7) len s
    (∃ r : Status, refusal = some r.code ∧ takeNoticePost body s = refuse s r) ∨
      (refusal = none ∧ kind.toNat ≤ 2 ∧ payloadCells len + 64 ≤ s.pool.free ∧
        let m := payloadCells len
        let n := newNotice body (postedClass cls) (postedKind kind) (postedTarget target) (s.pool.freeList.take m) (assignHandle s)
          s.air.count
        takeNoticePost body s = (retuneEffect n (s.posted n m), n.postReply)) := by
  intro value refusal
  have refusal_eq : refusal = _ := postRefusal_eq ..
  by_cases high : 1 < cls.toNat ∨ 2 < kind.toNat ∨ 3 < target.toNat
  · refine .inl ⟨.badValue, ?_, takeNoticePost_high (hcls ▸ hkind ▸ htarget ▸ high) s⟩
    rw [refusal_eq, if_pos (by tauto)]
    rfl
  obtain ⟨smallCls, smallKind, smallTarget⟩ : cls.toNat ≤ 1 ∧ kind.toNat ≤ 2 ∧ target.toNat ≤ 3 := by omega
  rw [← targetRefusal_code smallTarget, ← retuneRefusal_code smallKind smallTarget] at refusal_eq
  unfold takeNoticePost
  rw [hcls, hkind, htarget, hlen, noticeClassOf_posted smallCls, noticeKindOf_posted smallKind, targetTypeOf_posted smallTarget]
  dsimp only
  by_cases long : 192 < len
  · exact .inl ⟨.badValue, refusal_eq.trans (if_pos (by tauto)), if_pos long⟩
  rw [if_neg long]
  rw [if_neg (by tauto)] at refusal_eq
  by_cases full : 64 ≤ s.sched.records.length
  · exact .inl ⟨.noSpace, refusal_eq.trans (if_pos full), if_pos full⟩
  rw [if_neg full]
  rw [if_neg full] at refusal_eq
  cases target? : targetRefusal (postedTarget target) value s with
  | some r =>
    rw [target?] at refusal_eq
    exact .inl ⟨r, refusal_eq, rfl⟩
  | none =>
  cases retune? : retuneRefusal (postedKind kind) (postedTarget target) (field8 body 7) s with
  | some r =>
    rw [target?, retune?] at refusal_eq
    exact .inl ⟨r, refusal_eq, rfl⟩
  | none =>
  rw [target?, retune?] at refusal_eq
  rcases lendNotice_cases (cellsNeeded len) s with ⟨enough, given⟩ | ⟨short, none⟩
  · refine .inr ⟨refusal_eq.trans (if_neg (Nat.not_lt.mpr enough)), smallKind, enough, ?_⟩
    rw [given]
    rfl
  · refine .inl ⟨.noSpace, refusal_eq.trans (if_pos short), ?_⟩
    rw [none]

/-! ## The retune effect (R99, R100) -/

/-- A device with its assigned channel changed, if it has an assignment. -/
def Device.retuned (c : ChannelId) (d : Device) : Device :=
  { d with assignment := d.assignment.map (fun a => { a with channel := c }) }

theorem retuned_unassigned {d : Device} (none : d.assignment = none) (c : ChannelId) : d.retuned c = d := by
  obtain ⟨⟩ := d
  subst none
  rfl

theorem retuned_assigned {d : Device} {a : Assignment} (assigned : d.assignment = some a) (c : ChannelId) :
    d.retuned c = { d with assignment := some { a with channel := c } } := by
  rw [Device.retuned, assigned]
  rfl

/-- A retune moves a group, devices and bound counts alone. -/
theorem retuneEffect_frame (n : NoticeRecord) (s : State) : retuneEffect n s = { s with
    groups := (retuneEffect n s).groups, devices := (retuneEffect n s).devices, channels := (retuneEffect n s).channels } := by
  unfold retuneEffect
  split
  · split
    · next g _ =>
      unfold retuneGroup
      dsimp only
      cases s.groups[g].channel with
      | none => rfl
      | some old =>
        dsimp only
        split <;> rfl
    · rfl
  · rfl
  · rfl

theorem retuneEffect_none {n : NoticeRecord} (none : n.retuneChannel = none) (s : State) : retuneEffect n s = s := by
  rw [retuneEffect, none]

theorem retuneEffect_device {n : NoticeRecord} {c : ChannelId} (channel : n.retuneChannel = some c) (target : n.targetType = .device)
    (s : State) : retuneEffect n s = { s with
      devices := s.devices.map (fun d => if d.id = n.targetValue ∧ d.state = .out then d.retuned c else d) } := by
  rw [retuneEffect, channel, target]
  change ({ s with devices := _ } : State) = { s with devices := _ }
  refine congrArg (fun l => ({ s with devices := l } : State)) (List.map_congr_left fun d _ => ?_)
  by_cases named : d.id = n.targetValue
  · refine (if_pos named).trans ?_
    rw [if_congr (and_iff_right named) rfl rfl]
    dsimp only
    split
    · next a out assigned => rw [if_pos out, retuned_assigned assigned]
    · next other =>
      split
      · next out =>
        exact (retuned_unassigned (Option.eq_none_iff_forall_ne_some.mpr fun a assigned => other a out assigned) c).symm
      · rfl
  · rw [if_neg named, if_neg fun h => named h.1]

theorem modBound_get (d x : ChannelId) (f : Nat → Nat) (s : State) : (s.modBound d f).channels[x] =
    if x = d then { s.channels[x] with boundGroups := f s.channels[x].boundGroups } else s.channels[x] := by
  refine (get_set_cases ..).trans ?_
  split
  · next same => rw [same]
  · rfl

/-- A channel's record after its count of groups has followed a group from one channel to another (R87, R99). -/
def Channel.recounted (old c x : ChannelId) (ch : Channel) : Channel :=
  let b := ch.boundGroups
  { ch with boundGroups := if old = c then b else if x = old then b - 1 else if x = c then b + 1 else b }

theorem recounted_get (old c x : ChannelId) (s : State) :
    (if old = c then s else (s.modBound old (fun n => n - 1)).modBound c (fun n => n + 1)).channels[x] =
      s.channels[x].recounted old c x := by
  unfold Channel.recounted
  by_cases stays : old = c
  · simp only [if_pos stays]
  simp only [if_neg stays]
  rw [modBound_get, modBound_get]
  by_cases left : x = old
  · have apart : x ≠ c := left ▸ stays
    rw [if_neg apart, if_pos left, if_pos left]
  · rw [if_neg left, if_neg left]
    split <;> rfl

section
variable {n : NoticeRecord} {g : GroupId} {c : ChannelId} (channel : n.retuneChannel = some c) (target : n.targetType = .group)
  (named : n.targetValue.toNat = g.val) (s : State)
include channel target named

theorem retuneEffect_eq_retuneGroup : retuneEffect n s = retuneGroup g c s := by
  rw [retuneEffect, channel, target]
  dsimp only
  rw [named, toIndex_val]

theorem retuneEffect_groups : (retuneEffect n s).groups = s.groups.set g { s.groups[g] with channel := some c } := by
  rw [retuneEffect_eq_retuneGroup channel target named, retuneGroup]
  dsimp only
  cases s.groups[g].channel with
  | none => rfl
  | some old =>
    dsimp only
    split <;> rfl

theorem retuneEffect_devices : (retuneEffect n s).devices = s.devices.map (fun d =>
    if d.state = .out ∧ d.assignment.map Assignment.group = some g then d.retuned c else d) := by
  have devices (old : Option ChannelId) (t : State) : (match old with
      | none => t
      | some c0 => if c0 = c then t else (t.modBound c0 (fun n => n - 1)).modBound c (fun n => n + 1)).devices = t.devices := by
    cases old with
    | none => rfl
    | some c0 =>
      dsimp only
      split <;> rfl
  rw [retuneEffect_eq_retuneGroup channel target named]
  refine (devices ..).trans ?_
  refine List.map_congr_left fun d _ => ?_
  split
  · next a out assigned =>
    refine if_congr ?_ ?_ rfl
    · simp [out, assigned]
    · rw [retuned_assigned assigned]
  · next other =>
    refine (if_neg fun ⟨out, member⟩ => ?_).symm
    obtain ⟨a, assigned, -⟩ := Option.map_eq_some_iff.mp member
    exact other a out assigned

theorem retuneEffect_channels {old : ChannelId} (before : s.groups[g].channel = some old) (x : ChannelId) :
    (retuneEffect n s).channels[x] = s.channels[x].recounted old c x := by
  rw [retuneEffect_eq_retuneGroup channel target named, retuneGroup, before]
  exact recounted_get old c x { s.setGroup g { s.groups[g] with channel := some c } with devices := _ }

end

/-! ## A posting in the terms of the claims -/

section
variable (cls kind target channel reps gap : Byte) (value : BitVec 32) (life : BitVec 16) (payload : List Byte)

/-- A body of NOTICE_POST, in the order of R95. -/
def postBody : List Byte :=
  [cls, kind, target] ++ le32 value.toNat ++ [channel, reps, gap] ++ le16 life.toNat ++ le8 payload.length ++ payload

/-- The record of a posting, with its handle and its cells (R97). -/
def postedNotice (handle : Nat) (cells : List CellId) (p : Count) : NoticeRecord :=
  let lifetime := min 60000 life.toNat
  { handle := handle, cls := postedClass cls, kind := postedKind kind, targetType := postedTarget target,
    targetValue := if target = 0 then 0 else value,
    retuneChannel := if kind = 2 then (List.finRange 16).find? (fun c => c.val = channel.toNat) else none,
    repeatsRemaining := max 1 (min 15 reps.toNat), interval := max 1 gap.toNat, notBefore := p + 1,
    expiry := if lifetime = 0 then none else some (p + BitVec.ofNat 32 lifetime), payload := payload, cells := cells,
    transmissions := 0 }

theorem postBody_value : BitVec.ofNat 32 (field32 (postBody cls kind target channel reps gap value life payload) 3) = value := by
  have bytes : field32 (postBody cls kind target channel reps gap value life payload) 3 = value.toNat := le32_value _ value.isLt
  rw [bytes, BitVec.ofNat_toNat, BitVec.setWidth_eq]

theorem postBody_life : field16 (postBody cls kind target channel reps gap value life payload) 10 = life.toNat :=
  le16_value _ life.isLt

theorem postBody_payloadLength (short : payload.length < 256) :
    field8 (postBody cls kind target channel reps gap value life payload) 12 = payload.length :=
  field8_head payload.length short payload

theorem noticePostLength_postBody (short : payload.length < 256) :
    noticePostLength (postBody cls kind target channel reps gap value life payload) = true := by
  have length : (postBody cls kind target channel reps gap value life payload).length = 13 + payload.length := by
    rw [postBody, List.length_append]
    rfl
  unfold noticePostLength
  rw [postBody_payloadLength _ _ _ _ _ _ _ _ _ short, length]
  exact decide_eq_true ⟨Nat.le_add_right .., rfl⟩

theorem newNotice_postBody (smallKind : kind.toNat ≤ 2) (cells : List CellId) (handle : Nat) (p : Count) :
    newNotice (postBody cls kind target channel reps gap value life payload) (postedClass cls) (postedKind kind)
      (postedTarget target) cells handle p = postedNotice cls kind target channel reps gap value life payload handle cells p := by
  have everyone : postedTarget target = .all ↔ target = 0 := by
    unfold postedTarget
    (repeat' split) <;> simp_all
  have retune : postedKind kind = .retune ↔ kind = 2 := by
    rw [postedKind_retune smallKind]
    exact ⟨byte_eq_ofNat, fun same => same ▸ rfl⟩
  unfold newNotice postedNotice
  rw [postBody_value, postBody_life, if_congr everyone rfl rfl, if_congr retune (toIndex_eq_find? _) rfl]
  rfl

end

theorem posted_eq (s : State) (n : NoticeRecord) (m : Nat) (cls : Byte) (class_ : n.cls = postedClass cls) : s.posted n m =
    { s with
      sched := { s.sched with records := s.sched.records ++ [n], nextHandle := handleAfter n.handle,
                              urgent := if cls = 0 then s.sched.urgent ++ [n.handle] else s.sched.urgent,
                              routine := if cls = 0 then s.sched.routine else s.sched.routine ++ [n.handle] },
      pool := { freeList := s.pool.freeList.drop m, lowWater := min s.pool.lowWater (s.pool.freeList.length - m) } } := by
  unfold State.posted insertNotice Pool.lent
  rw [class_, postedClass, List.length_drop]
  split <;> rfl

/-- Settles O45: the walk through the checks of R95 and R96 ends in a refusal or in a record that joins and retunes. -/
theorem noticePostCreatesARecord : Obligations.NoticePostCreatesARecord := by
  intro tag cls kind target channel reps gap value life payload s now sound short body refusal retuned
  have length : noticePostLength body = true := noticePostLength_postBody cls kind target channel reps gap value life payload short
  have walked := takeNoticePost_cases (body := body) (cls := cls) (kind := kind) (target := target) rfl rfl rfl
    (postBody_payloadLength cls kind target channel reps gap value life payload short) s
  rw [show BitVec.ofNat 32 (field32 body 3) = value from postBody_value ..] at walked
  rcases walked with ⟨r, refused, work⟩ | ⟨passed, smallKind, enough, work⟩
  · refine ⟨fun why same => ?_, fun j passed => absurd (refused.symm.trans passed) nofun⟩
    obtain rfl : r.code = why := Option.some.inj (refused.symm.trans same)
    exact exec_noticePost tag now length work rfl
  refine ⟨fun why refused => absurd (refused.symm.trans passed) nofun, fun j _ free held => ?_⟩
  intro m lifetime n
  obtain ⟨-, -, -, -, -, ⟨-, high⟩, -⟩ := sound
  have handle : assignHandle s = n.handle := freeHandle_first high (Nat.le_of_lt_succ j.isLt) free
    fun i earlier => held ⟨i, Nat.lt_trans earlier j.isLt⟩ earlier
  have record : newNotice body (postedClass cls) (postedKind kind) (postedTarget target) (s.pool.freeList.take m) (assignHandle s)
      s.air.count = n := handle ▸ newNotice_postBody _ _ _ _ _ _ _ _ _ smallKind ..
  have cells : n.cells.length = m := List.length_take_of_le (Nat.le_trans (Nat.le_add_right ..) enough)
  have reply : n.postReply = .okWith (le16 n.handle ++ le32 n.notBefore.toNat ++ leFlag n.expiry.isSome ++
      le32 (n.expiry.getD 0).toNat ++ le8 m ++ le8 n.repeatsRemaining) := cells ▸ rfl
  have taken : takeNoticePost body s = (retuneEffect n (s.posted n m), n.postReply) := work.trans (record ▸ rfl)
  rw [reply] at taken
  have frame := retuneEffect_frame n (s.posted n m)
  have counted : handleAfter n.handle = nextNumber n.handle := handleAfter_eq_nextNumber (handle ▸ freeHandle_high high s)
  refine ⟨_, exec_noticePost tag now length taken (by rw [frame]; rfl), ?_, fun other => ?_, fun retune device => ?_,
    fun g c retune group named channel_ => ?_⟩
  · rw [← counted]
    refine congrArg (replied 0x20 tag 0x00 _) (frame.trans ?_)
    rw [posted_eq s n m cls rfl]
    rfl
  · have still : n.retuneChannel = none := if_neg other
    rw [retuneEffect_none still]
    exact ⟨rfl, rfl, rfl⟩
  · subst retune device
    obtain ⟨c, found⟩ : ∃ c, n.retuneChannel = some c :=
      ⟨_, (toIndex_eq_find? channel.toNat).symm.trans (dif_pos (retuneChannel_of_passed passed rfl))⟩
    rw [retuneEffect_device found rfl, found]
    exact ⟨rfl, rfl, rfl⟩
  · subst retune group
    have found : n.retuneChannel = some c := by
      refine (toIndex_eq_find? channel.toNat).symm.trans ?_
      rw [← channel_, toIndex_val]
    refine ⟨?_, ?_, ?_⟩
    · exact retuneEffect_groups found rfl named.symm (s.posted n m)
    · exact retuneEffect_devices found rfl named.symm (s.posted n m)
    · intro old x before
      exact retuneEffect_channels found rfl named.symm (s.posted n m) before x

end Sys2Proof.Machine
end

section
/-! PROOF. The expiry of a build: which records leave the table and its queues, the cells that come back, and what is raised (R103). -/

namespace Sys2Proof.Machine

/-! ## Records under some handles leave -/

/-- The scheduler without the records of these handles (R93). -/
def Scheduler.dropping (n : Scheduler) (gone : List Nat) : Scheduler :=
  { n with records := n.records.filter (fun r => r.handle ∉ gone), urgent := n.urgent.filter (fun h => h ∉ gone),
           routine := n.routine.filter (fun h => h ∉ gone) }

theorem dropping_nil (n : Scheduler) : n.dropping [] = n := by simp [Scheduler.dropping]

theorem without_eq_dropping (n : Scheduler) (r : NoticeRecord) : n.without r = n.dropping [r.handle] := by
  simp [Scheduler.without, Scheduler.dropping]

theorem dropping_append (n : Scheduler) (a b : List Nat) : n.dropping (a ++ b) = (n.dropping a).dropping b := by
  simp [Scheduler.dropping, List.filter_filter, Bool.and_comm]

theorem queue_dropping (n : Scheduler) (gone : List Nat) (c : NoticeClass) :
    (n.dropping gone).queue c = (n.queue c).filter (fun h => h ∉ gone) := by cases c <;> rfl

theorem notice?_dropping {s t : State} {gone : List Nat} (dropped : t.sched = s.sched.dropping gone) (h : Nat) :
    t.notice? h = if h ∈ gone then none else s.notice? h := by
  unfold State.notice?
  rw [dropped]
  refine (List.find?_filter ..).trans ?_
  split
  · next left =>
    refine List.find?_eq_none.mpr fun r _ => ?_
    simpa using fun (stays : r.handle ∉ gone) (same : r.handle = h) => stays (same ▸ left)
  · next stays =>
    refine congrArg (fun p => List.find? p s.sched.records) (funext fun r => ?_)
    by_cases same : r.handle = h
    · simp [same, stays]
    · simp [same]

/-- The records that handles name, after some have left. -/
theorem recordsOf_dropping {s t : State} {gone : List Nat} (dropped : t.sched = s.sched.dropping gone) (l : List Nat) :
    recordsOf l t = (recordsOf l s).filter (fun r => r.handle ∉ gone) := by
  change l.filterMap t.notice? = (l.filterMap s.notice?).filter _
  rw [List.filter_filterMap]
  refine List.filterMap_congr fun h _ => ?_
  rw [notice?_dropping dropped]
  cases found : s.notice? h with
  | none => simp
  | some r =>
    obtain ⟨-, rfl⟩ := mem_of_notice? found
    by_cases left : r.handle ∈ gone
    · simp [left, Option.filter_some]
    · simp [left, Option.filter_some]

theorem mem_recordsOf {l : List Nat} {s : State} {r : NoticeRecord} (mem : r ∈ recordsOf l s) : r ∈ s.sched.records ∧ r.handle ∈ l := by
  obtain ⟨h, named, found⟩ := List.mem_filterMap.mp mem
  obtain ⟨inTable, rfl⟩ := mem_of_notice? (s := s) found
  exact ⟨inTable, named⟩

/-! ## Expiry -/

theorem expired_eq_expiredIn (n : NoticeRecord) (m : Count) : n.expired m = expiredIn m n := by
  unfold NoticeRecord.expired expiredIn
  cases n.expiry <;> rfl

/-- NOTICE_EXPIRED as the last of the expired records leaves it (R103). -/
def expiryReport (gone : List NoticeRecord) : Report := fun e =>
  if e = 15 then gone.getLast?.map (fun n => (n.handle, BitVec.ofNat 32 n.transmissions)) else none

theorem expiryReport_nil : expiryReport [] = .nothing := funext fun _ => ite_self _

theorem expiryReport_append (a b : List NoticeRecord) : expiryReport (a ++ b) = (expiryReport a).andThen (expiryReport b) := by
  funext e
  unfold expiryReport Report.andThen
  by_cases expiry : e = 15
  · simp only [if_pos expiry, List.getLast?_append, Option.map_or]
  · simp only [if_neg expiry, Option.or_none]

/-- The work removes these records, in this order: their handles leave, their cells come back, and each is reported (R103). -/
structure Expires (gone : List NoticeRecord) (s t : State) : Prop where
  sched : t.sched = s.sched.dropping (gone.map NoticeRecord.handle)
  pool : t.pool = { s.pool with freeList := s.pool.freeList ++ gone.flatMap NoticeRecord.cells }
  reports : Reports (expiryReport gone) s t

theorem Expires.refl (s : State) : Expires [] s s where
  sched := (dropping_nil _).symm
  pool := by rw [List.flatMap_nil, List.append_nil]
  reports := expiryReport_nil ▸ .refl s

theorem Expires.trans {a b : List NoticeRecord} {s t u : State} (h : Expires a s t) (g : Expires b t u) : Expires (a ++ b) s u where
  sched := by rw [g.sched, h.sched, List.map_append, dropping_append]
  pool := by rw [g.pool, h.pool, List.flatMap_append, ← List.append_assoc]
  reports := expiryReport_append a b ▸ h.reports.trans g.reports

theorem expires_removal (n : NoticeRecord) (s : State) :
    Expires [n] s (raise .noticeExpired n.handle n.transmissions (removeNotice n s)) where
  sched := by
    rw [raise_sched, removeNotice_sched, without_eq_dropping]
    rfl
  pool := by
    rw [raise_pool, List.flatMap_singleton]
    rfl
  reports := by
    have raised := Reports.after_quiet (s := s) ⟨rfl, rfl, rfl⟩ (reports_raise .noticeExpired n.handle n.transmissions (removeNotice n s))
    have one : expiryReport [n] = Report.one 15 n.handle (BitVec.ofNat 32 n.transmissions) := rfl
    rw [one]
    exact raised

/-- One handle's part (R103). -/
theorem expireOne_expires (m : Count) (h : Nat) (s : State) : Expires ((recordsOf [h] s).filter (expiredIn m)) s (expireOne m h s) := by
  have named : recordsOf [h] s = (s.notice? h).toList := by
    change [h].filterMap s.notice? = _
    cases found : s.notice? h <;> simp [found]
  rw [named]
  unfold expireOne
  cases found : s.notice? h with
  | none => exact .refl s
  | some n =>
    obtain ⟨-, rfl⟩ := mem_of_notice? found
    dsimp only
    rw [expired_eq_expiredIn]
    by_cases expired : expiredIn m n = true
    · simpa [expired] using expires_removal n s
    · simpa [expired] using Expires.refl s

/-- The expiry removes the expired records that the handles name, in their order (R103). -/
theorem forEach_expireOne_expires (m : Count) {l : List Nat} (once : l.Nodup) (s : State) :
    Expires ((recordsOf l s).filter (expiredIn m)) s (forEach l (expireOne m) s) := by
  induction l generalizing s with
  | nil => exact .refl s
  | cons h l ih =>
    obtain ⟨new, rest⟩ := List.nodup_cons.mp once
    have first := expireOne_expires m h s
    have later := ih rest (expireOne m h s)
    have split : recordsOf (h :: l) s = recordsOf [h] s ++ recordsOf l s := List.filterMap_append (l := [h])
    have kept : recordsOf l (expireOne m h s) = recordsOf l s := by
      rw [recordsOf_dropping first.sched]
      refine List.filter_eq_self.mpr fun r mem => decide_eq_true fun left => new ?_
      obtain ⟨n, gone, same⟩ := List.mem_map.mp left
      have head : n.handle = h := List.mem_singleton.mp (mem_recordsOf (List.mem_of_mem_filter gone)).2
      exact head ▸ same ▸ (mem_recordsOf mem).2
    rw [split, List.filter_append, forEach_cons, ← kept]
    exact first.trans later

end Sys2Proof.Machine
end

section
/-! PROOF. The table that a build scans: its queues name every record once, and what the expiry leaves of them (R93, R103). -/

namespace Sys2Proof.Machine

/-! ## Records of a sound table by their handles -/

/-- A record of the table stands in a part of it just if its handle does. -/
theorem handle_mem_iff {table part : List NoticeRecord} (once : (table.map NoticeRecord.handle).Nodup) (sub : part ⊆ table)
    {r : NoticeRecord} (mem : r ∈ table) : r.handle ∈ part.map NoticeRecord.handle ↔ r ∈ part := by
  refine ⟨fun named => ?_, List.mem_map_of_mem⟩
  obtain ⟨q, inPart, same⟩ := List.mem_map.mp named
  exact record_of_handle once (sub inPart) mem same ▸ inPart

/-- Handles that records hold are read off the records again. -/
theorem recordsOf_handles {l : List Nat} {s : State} (held : l ⊆ s.sched.records.map NoticeRecord.handle) :
    (recordsOf l s).map NoticeRecord.handle = l := by
  induction l with
  | nil => rfl
  | cons h l ih =>
    obtain ⟨head, rest⟩ := List.cons_subset.mp held
    obtain ⟨r, found⟩ := Option.isSome_iff_exists.mp ((notice?_isSome_iff s h).mpr head)
    have split : recordsOf (h :: l) s = r :: recordsOf l s := List.filterMap_cons_some found
    rw [split, List.map_cons, ih rest, (mem_of_notice? found).2]

section
variable {s : State} (sound : TableSound s.sched)
include sound

theorem mem_recordsOf_iff {l : List Nat} {r : NoticeRecord} : r ∈ recordsOf l s ↔ r ∈ s.sched.records ∧ r.handle ∈ l := by
  refine ⟨mem_recordsOf, fun ⟨inTable, named⟩ => ?_⟩
  exact List.mem_filterMap.mpr ⟨r.handle, named, notice?_of_mem sound.once inTable⟩

theorem mem_queue_iff {c : NoticeClass} {r : NoticeRecord} (mem : r ∈ s.sched.records) : r.handle ∈ s.sched.queue c ↔ r.cls = c := by
  rw [(sound.queues c).mem_iff, handle_mem_iff sound.once (List.filter_subset_self ..) mem, List.mem_filter]
  simp [mem]

theorem queue_held (c : NoticeClass) : s.sched.queue c ⊆ s.sched.records.map NoticeRecord.handle := fun _ mem =>
  (List.filter_sublist.map _).subset ((sound.queues c).subset mem)

theorem queue_once (c : NoticeClass) : (s.sched.queue c).Nodup :=
  (sound.queues c).nodup_iff.mpr (sound.once.sublist (List.filter_sublist.map _))

/-- A queue's records are those of its class. -/
theorem mem_recordsOf_queue {c : NoticeClass} {r : NoticeRecord} :
    r ∈ recordsOf (s.sched.queue c) s ↔ r ∈ s.sched.records ∧ r.cls = c := by
  rw [mem_recordsOf_iff sound]
  exact and_congr_right fun mem => mem_queue_iff sound mem

/-- The two queues hold every handle of the table once. -/
theorem queues_perm : (s.sched.urgent ++ s.sched.routine).Perm (s.sched.records.map NoticeRecord.handle) := by
  refine ((sound.queues .urgent).append (sound.queues .routine)).trans ?_
  rw [← List.map_append]
  refine List.Perm.map _ ((List.Perm.of_eq ?_).trans (List.filter_append_perm (fun r : NoticeRecord => decide (r.cls = .urgent)) _))
  refine congrArg _ (List.filter_congr fun r _ => ?_)
  cases r.cls <;> rfl

theorem queues_once : (s.sched.urgent ++ s.sched.routine).Nodup := (queues_perm sound).nodup_iff.mpr sound.once

theorem mem_recordsOf_queues {r : NoticeRecord} : r ∈ recordsOf (s.sched.urgent ++ s.sched.routine) s ↔ r ∈ s.sched.records := by
  rw [mem_recordsOf_iff sound, (queues_perm sound).mem_iff]
  exact and_iff_left_of_imp List.mem_map_of_mem

end

theorem tableSound_dropping {n : Scheduler} (sound : TableSound n) (gone : List NoticeRecord) :
    TableSound (n.dropping (gone.map NoticeRecord.handle)) := by
  induction gone generalizing n with
  | nil => exact (dropping_nil n).symm ▸ sound
  | cons r gone ih =>
    have split : n.dropping ((r :: gone).map NoticeRecord.handle) = (n.without r).dropping (gone.map NoticeRecord.handle) := by
      rw [without_eq_dropping, ← dropping_append]
      rfl
    exact split ▸ ih (tableSound_without sound r)

/-! ## What the expiry leaves -/

/-- The records that a build removes as expired, in the order of the queues (R103). -/
def expiredRecords (m : Count) (s : State) : List NoticeRecord :=
  (recordsOf (s.sched.urgent ++ s.sched.routine) s).filter (expiredIn m)

section
variable {s : State} (sound : TableSound s.sched) (m : Count)
include sound

theorem expireNotices_expires : Expires (expiredRecords m s) s (expireNotices m s) :=
  forEach_expireOne_expires m (queues_once sound) s

theorem expireNotices_tableSound : TableSound (expireNotices m s).sched :=
  (expireNotices_expires sound m).sched ▸ tableSound_dropping sound _

theorem mem_expiredRecords {r : NoticeRecord} : r ∈ expiredRecords m s ↔ r ∈ s.sched.records ∧ expiredIn m r = true := by
  rw [expiredRecords, List.mem_filter, mem_recordsOf_queues sound]

theorem handle_mem_expired_iff {r : NoticeRecord} (mem : r ∈ s.sched.records) :
    r.handle ∈ (expiredRecords m s).map NoticeRecord.handle ↔ expiredIn m r = true := by
  rw [handle_mem_iff sound.once (fun _ h => ((mem_expiredRecords sound m).mp h).1) mem, mem_expiredRecords sound]
  exact and_iff_right mem

/-- The table without the expired records. -/
theorem expireNotices_records : (expireNotices m s).sched.records = s.sched.records.filter (fun r => !(expiredIn m r)) := by
  rw [(expireNotices_expires sound m).sched]
  refine List.filter_congr fun r mem => ?_
  simp [handle_mem_expired_iff sound m mem]

/-- A queue's records after the expiry are the claims' live records. -/
theorem expireNotices_queue (c : NoticeClass) :
    recordsOf ((expireNotices m s).sched.queue c) (expireNotices m s) = liveRecords m (s.sched.queue c) s := by
  have dropped := (expireNotices_expires sound m).sched
  have all : recordsOf ((expireNotices m s).sched.queue c) (expireNotices m s) = recordsOf (s.sched.queue c) (expireNotices m s) := by
    change List.filterMap (expireNotices m s).notice? _ = List.filterMap (expireNotices m s).notice? _
    rw [dropped, queue_dropping, List.filterMap_filter]
    refine List.filterMap_congr fun h _ => ?_
    rw [notice?_dropping dropped]
    by_cases left : h ∈ (expiredRecords m s).map NoticeRecord.handle <;> simp [left]
  rw [all, recordsOf_dropping dropped]
  refine List.filter_congr fun r mem => ?_
  simp [handle_mem_expired_iff sound m (mem_recordsOf mem).1]

end

end Sys2Proof.Machine
end

section
/-! PROOF. The scans of a build: a scan places the records that the claims say, and what the placed records leave of the table (R105,
R106). -/

namespace Sys2Proof.Machine

/-! ## One record placed -/

theorem notice?_rotated {s t : State} {r : NoticeRecord} {m : Count} (rotated : t.sched = s.sched.rotated r m) {h : Nat}
    (other : h ≠ r.handle) : t.notice? h = s.notice? h := by
  have handles (q : NoticeRecord) : (if q.handle = r.handle then r.repeated m else q).handle = q.handle := by
    split
    · next same => exact same.symm
    · rfl
  unfold State.notice?
  rw [rotated]
  refine (List.find?_map ..).trans ?_
  rw [show (fun q : NoticeRecord => decide (q.handle = h)) ∘ _ = fun q => decide (q.handle = h) from
    funext fun q => congrArg (fun i => decide (i = h)) (handles q)]
  cases found : s.sched.records.find? (fun q => q.handle = h) with
  | none => rfl
  | some q =>
    obtain ⟨-, rfl⟩ := mem_of_notice? (s := s) found
    exact congrArg some (if_neg other)

theorem notice?_afterPlacement (m : Count) (r : NoticeRecord) (s : State) {h : Nat} (other : h ≠ r.handle) :
    (afterPlacement m r s).notice? h = s.notice? h := by
  rcases afterPlacement_cases m r s with ⟨-, last⟩ | ⟨-, again⟩
  · rw [last, notice?_dropping (without_eq_dropping s.sched r), if_neg (by simpa using other)]
  · rw [again]
    exact notice?_rotated rfl other

theorem recordsOf_afterPlacement (m : Count) (r : NoticeRecord) (s : State) {l : List Nat} (apart : r.handle ∉ l) :
    recordsOf l (afterPlacement m r s) = recordsOf l s :=
  List.filterMap_congr fun _ mem => notice?_afterPlacement m r s fun same => apart (same ▸ mem)

/-- Records placed one after another (R106). -/
def placing (m : Count) (placed : List NoticeRecord) (s : State) : State := placed.foldl (fun s r => afterPlacement m r s) s

theorem recordsOf_placing (m : Count) (placed : List NoticeRecord) (s : State) {l : List Nat}
    (apart : ∀ r ∈ placed, r.handle ∉ l) : recordsOf l (placing m placed s) = recordsOf l s := by
  induction placed generalizing s with
  | nil => rfl
  | cons r placed ih =>
    obtain ⟨head, rest⟩ := List.forall_mem_cons.mp apart
    exact (ih (afterPlacement m r s) rest).trans (recordsOf_afterPlacement m r s head)

/-! ## A scan -/

/-- What a class's scan over these records makes of a placement (R105). -/
def Placement.scannedOver (m : Count) (c : NoticeClass) (l : List NoticeRecord) (p : Placement) : Placement :=
  let placed := scanned m p.room l
  { state := placing m placed p.state, room := p.room - cellSum placed, cells := p.cells ++ placed.flatMap NoticeRecord.placed,
    routineEligible := p.routineEligible || (decide (c = .routine) && l.any (eligibleIn m)),
    routinePlaced := p.routinePlaced || (decide (c = .routine) && !placed.isEmpty) }

theorem scannedOver_nil (m : Count) (c : NoticeClass) (p : Placement) : p.scannedOver m c [] = p := by
  unfold Placement.scannedOver
  simp [scanned, placing, cellSum]

/-- A record that is placed, and the scan of the others (R105, R106). -/
theorem scannedOver_placed {m : Count} (c : NoticeClass) {n : NoticeRecord} {p : Placement} (eligible : eligibleIn m n = true)
    (fits : n.cells.length ≤ p.room) (l : List NoticeRecord) : p.scannedOver m c (n :: l) =
      ({ state := afterPlacement m n p.state, room := p.room - n.cells.length, cells := p.cells ++ n.placed,
         routineEligible := p.routineEligible || decide (c = .routine),
         routinePlaced := p.routinePlaced || decide (c = .routine) } : Placement).scannedOver m c l := by
  unfold Placement.scannedOver
  rw [scanned, if_pos ⟨eligible, fits⟩]
  simp only [Placement.mk.injEq, List.any_cons, eligible, List.isEmpty_cons, List.flatMap_cons, List.append_assoc, cellSum,
    List.map_cons, List.sum_cons, Nat.sub_sub, true_and]
  refine ⟨rfl, ?_⟩
  cases decide (c = .routine) <;> simp

/-- A record that is passed over: too early, or too long for the room (R105). -/
theorem scannedOver_passed {m : Count} (c : NoticeClass) {n : NoticeRecord} {p : Placement}
    (passed : eligibleIn m n = true → p.room < n.cells.length) (l : List NoticeRecord) : p.scannedOver m c (n :: l) =
      ({ p with routineEligible := p.routineEligible || (decide (c = .routine) && eligibleIn m n) } : Placement).scannedOver m c l := by
  unfold Placement.scannedOver
  rw [scanned, if_neg fun ⟨eligible, fits⟩ => Nat.not_lt.mpr fits (passed eligible)]
  simp [Bool.or_assoc, Bool.and_or_distrib_left]

/-- The scan of handles that are all different is the scan of the records they name when it begins (R105). -/
theorem foldl_scanOne (m : Count) (c : NoticeClass) {l : List Nat} (once : l.Nodup) (p : Placement) :
    l.foldl (scanOne m c) p = p.scannedOver m c (recordsOf l p.state) := by
  induction l generalizing p with
  | nil => exact (scannedOver_nil m c p).symm
  | cons h l ih =>
    obtain ⟨new, rest⟩ := List.nodup_cons.mp once
    rw [List.foldl_cons, ih rest]
    unfold scanOne
    cases found : p.state.notice? h with
    | none => rw [show recordsOf (h :: l) p.state = recordsOf l p.state from List.filterMap_cons_none found]
    | some n =>
      obtain ⟨-, rfl⟩ := mem_of_notice? found
      rw [show recordsOf (n.handle :: l) p.state = n :: recordsOf l p.state from List.filterMap_cons_some found]
      dsimp only
      rw [show atOrAfter m n.notBefore = eligibleIn m n from rfl]
      by_cases early : eligibleIn m n = false
      · rw [if_pos early, scannedOver_passed c fun eligible => absurd (early.symm.trans eligible) Bool.false_ne_true, early]
        simp
      have eligible : eligibleIn m n = true := by simpa using early
      rw [if_neg early]
      by_cases long : p.room < n.cells.length
      · rw [if_pos long, scannedOver_passed c (fun _ => long), eligible, Bool.and_true]
      · rw [if_neg long, scannedOver_placed c eligible (Nat.le_of_not_lt long)]
        exact congrArg (Placement.scannedOver m c · _) (recordsOf_afterPlacement m n p.state new)

end Sys2Proof.Machine
end

section
/-! PROOF. The table, the queues and the cells after records have been placed one after another (R106). -/

namespace Sys2Proof.Machine

/-- What becomes of a record when those of these handles are placed: gone after its last repeat, or repeated (R106). -/
def NoticeRecord.settled (m : Count) (placed : List Nat) (q : NoticeRecord) : Option NoticeRecord :=
  if q.handle ∈ placed then if q.repeatsRemaining ≤ 1 then none else some (q.repeated m) else some q

/-- The scheduler but for its table and its queues. -/
def Scheduler.offTable (n : Scheduler) : Scheduler := { n with records := [], urgent := [], routine := [] }

/-- The handles that go to a queue's tail when these records are placed (R106). -/
def tailOf (c : NoticeClass) (placed : List NoticeRecord) : List Nat :=
  (placed.filter (fun r => decide (1 < r.repeatsRemaining) && decide (r.cls = c))).map NoticeRecord.handle

/-- The table and the queues after these records have been placed in this order. -/
structure Settles (m : Count) (placed : List NoticeRecord) (n n' : Scheduler) : Prop where
  records : n'.records = n.records.filterMap (NoticeRecord.settled m (placed.map NoticeRecord.handle))
  queues : ∀ c, n'.queue c = (n.queue c).filter (fun h => h ∉ placed.map NoticeRecord.handle) ++ tailOf c placed
  rest : n'.offTable = n.offTable

theorem Settles.refl (m : Count) (n : Scheduler) : Settles m [] n n where
  records := by
    have settled : NoticeRecord.settled m [] = some := funext fun q => if_neg List.not_mem_nil
    rw [List.map_nil, settled, List.filterMap_some]
  queues c := by simp [tailOf]
  rest := rfl

theorem settled_append (m : Count) {a b : List Nat} (apart : ∀ h ∈ a, h ∉ b) (q : NoticeRecord) :
    (q.settled m a).bind (NoticeRecord.settled m b) = q.settled m (a ++ b) := by
  unfold NoticeRecord.settled
  by_cases first : q.handle ∈ a
  · rw [if_pos first, if_pos (List.mem_append_left b first)]
    split
    · rfl
    · exact if_neg (apart _ first)
  · rw [if_neg first, Option.bind_some]
    refine if_congr ?_ rfl rfl
    simp [first]

theorem Settles.trans {m : Count} {a b : List NoticeRecord} {n n' n'' : Scheduler} (h : Settles m a n n') (g : Settles m b n' n'')
    (apart : ∀ i ∈ a.map NoticeRecord.handle, i ∉ b.map NoticeRecord.handle) : Settles m (a ++ b) n n'' where
  records := by
    rw [g.records, h.records, List.filterMap_filterMap, List.map_append]
    exact List.filterMap_congr fun q _ => settled_append m apart q
  queues c := by
    have moved : (tailOf c a).filter (fun i => i ∉ b.map NoticeRecord.handle) = tailOf c a := List.filter_eq_self.mpr fun i mem =>
      decide_eq_true (apart i ((List.filter_sublist.map _).subset mem))
    rw [g.queues, h.queues, List.filter_append, moved, List.filter_filter, List.map_append, List.append_assoc]
    refine congrArg₂ _ (List.filter_congr fun i _ => ?_) ?_
    · simp [Bool.and_comm]
    · rw [tailOf, tailOf, tailOf, List.filter_append, List.map_append]
  rest := g.rest.trans h.rest

/-- One record that is placed (R106). -/
theorem settles_afterPlacement (m : Count) {r : NoticeRecord} {s : State} (sound : TableSound s.sched) (mem : r ∈ s.sched.records) :
    Settles m [r] s.sched (afterPlacement m r s).sched := by
  have only {q : NoticeRecord} (inTable : q ∈ s.sched.records) (same : q.handle = r.handle) : q = r :=
    record_of_handle sound.once inTable mem same
  rcases afterPlacement_cases m r s with ⟨last, removed⟩ | ⟨more, again⟩
  · rw [removed, removeNotice_sched]
    have tail (c : NoticeClass) : tailOf c [r] = [] := by simp [tailOf, Nat.not_lt.mpr last]
    refine ⟨?_, fun c => ?_, rfl⟩
    · change s.sched.records.filter _ = _
      rw [← List.filterMap_eq_filter]
      refine List.filterMap_congr fun q inTable => ?_
      by_cases same : q.handle = r.handle
      · rw [only inTable same]
        simp [NoticeRecord.settled, last]
      · simp [NoticeRecord.settled, same]
    · rw [queue_without, tail, List.append_nil]
      simp
  · rw [again]
    refine ⟨?_, fun c => ?_, ?_⟩
    · change s.sched.records.map _ = _
      rw [← List.filterMap_eq_map]
      refine List.filterMap_congr fun q inTable => ?_
      by_cases same : q.handle = r.handle
      · rw [only inTable same]
        simp [NoticeRecord.settled, Nat.not_le.mpr more]
      · simp [NoticeRecord.settled, same]
    · change (s.sched.rotated r m).queue c = _
      rw [queue_rotated]
      by_cases own : c = r.cls
      · subst own
        simp [tailOf, more]
      · have foreign : r.handle ∉ s.sched.queue c := fun named => own ((mem_queue_iff sound mem).mp named).symm
        have tail : tailOf c [r] = [] := by simp [tailOf, Ne.symm own]
        rw [if_neg own, tail, List.append_nil]
        refine (List.filter_eq_self.mpr fun h inQueue => ?_).symm
        simpa using fun same : h = r.handle => foreign (same ▸ inQueue)
    · change (s.sched.rotated r m).offTable = _
      unfold Scheduler.rotated Scheduler.setQueue
      cases r.cls <;> rfl

theorem tableSound_afterPlacement (m : Count) {r : NoticeRecord} {s : State} (sound : TableSound s.sched) (mem : r ∈ s.sched.records) :
    TableSound (afterPlacement m r s).sched := by
  rcases afterPlacement_cases m r s with ⟨-, removed⟩ | ⟨more, again⟩
  · rw [removed]
    exact tableSound_without sound r
  · rw [again]
    exact tableSound_rotated sound mem more m

/-- Records of the table that are placed one after another. -/
theorem settles_placing (m : Count) {placed : List NoticeRecord} {s : State} (sound : TableSound s.sched)
    (sub : placed ⊆ s.sched.records) (once : (placed.map NoticeRecord.handle).Nodup) :
    Settles m placed s.sched (placing m placed s).sched := by
  induction placed generalizing s with
  | nil => exact .refl m s.sched
  | cons r placed ih =>
    obtain ⟨head, rest⟩ := List.cons_subset.mp sub
    obtain ⟨new, others⟩ := List.nodup_cons.mp once
    have kept : placed ⊆ (afterPlacement m r s).sched.records := fun q mem => by
      have other : q.handle ≠ r.handle := fun same => new (same ▸ List.mem_map_of_mem mem)
      refine (mem_of_notice? ((notice?_afterPlacement m r s other).trans (notice?_of_mem sound.once (rest mem)))).1
    refine (settles_afterPlacement m sound head).trans (ih (tableSound_afterPlacement m sound head) kept others) ?_
    simpa using new

/-- The cells of the records that are placed for the last time come back in their order (R106). -/
theorem placing_pool (m : Count) (placed : List NoticeRecord) (s : State) : (placing m placed s).pool =
    { s.pool with freeList := s.pool.freeList ++ (placed.filter (fun r => r.repeatsRemaining ≤ 1)).flatMap NoticeRecord.cells } := by
  induction placed generalizing s with
  | nil => simp [placing]
  | cons r placed ih =>
    refine (ih (afterPlacement m r s)).trans ?_
    rcases afterPlacement_cases m r s with ⟨last, removed⟩ | ⟨more, again⟩
    · rw [removed]
      simp [last, removeNotice, returnCells]
    · rw [again]
      simp [Nat.not_le.mpr more]

end Sys2Proof.Machine
end

section
/-! PROOF. The placement of a build as a whole: the two scans in their order, the records placed, and the late counter (R104 to R107). -/

namespace Sys2Proof.Machine

/-! ## The records placed -/

/-- The class whose queue is scanned first, and the other (R104). -/
def firstClass (s : State) : NoticeClass := if s.sched.lateFlag then .routine else .urgent
def secondClass (s : State) : NoticeClass := if s.sched.lateFlag then .urgent else .routine

/-- The records of a class's queue that have not expired. -/
def liveOf (m : Count) (s : State) (c : NoticeClass) : List NoticeRecord := liveRecords m (s.sched.queue c) s

/-- The records that the two scans place, and those of one class among them (R105). -/
def firstPlaced (m : Count) (capacity : Nat) (s : State) : List NoticeRecord := scanned m capacity (liveOf m s (firstClass s))
def secondPlaced (m : Count) (capacity : Nat) (s : State) : List NoticeRecord :=
  scanned m (capacity - cellSum (firstPlaced m capacity s)) (liveOf m s (secondClass s))
def placedIn (m : Count) (capacity : Nat) (s : State) : List NoticeRecord := firstPlaced m capacity s ++ secondPlaced m capacity s
def placedOf (m : Count) (capacity : Nat) (s : State) (c : NoticeClass) : List NoticeRecord :=
  if c = firstClass s then firstPlaced m capacity s else secondPlaced m capacity s

theorem eq_secondClass {s : State} {c : NoticeClass} (other : c ≠ firstClass s) : c = secondClass s := by
  unfold firstClass at other
  unfold secondClass
  by_cases late : s.sched.lateFlag = true
  · rw [if_pos late] at other ⊢
    cases c
    · rfl
    · exact absurd rfl other
  · rw [if_neg late] at other ⊢
    cases c
    · exact absurd rfl other
    · rfl

theorem secondClass_ne (s : State) : secondClass s ≠ firstClass s := by
  unfold firstClass secondClass
  cases s.sched.lateFlag <;> decide

section
variable (m : Count) (capacity : Nat) (s : State)

theorem placedOf_first : placedOf m capacity s (firstClass s) = firstPlaced m capacity s := if_pos rfl
theorem placedOf_second : placedOf m capacity s (secondClass s) = secondPlaced m capacity s := if_neg (secondClass_ne s)

/-- The scans and their classes as the claims write them, by the late flag (R104). -/
theorem scanned_firstClass : scanned m capacity (if s.sched.lateFlag then liveRecords m s.sched.routine s
    else liveRecords m s.sched.urgent s) = firstPlaced m capacity s := by
  unfold firstPlaced firstClass
  cases s.sched.lateFlag <;> rfl

theorem scanned_secondClass : scanned m (capacity - cellSum (firstPlaced m capacity s)) (if s.sched.lateFlag then
    liveRecords m s.sched.urgent s else liveRecords m s.sched.routine s) = secondPlaced m capacity s := by
  unfold secondPlaced secondClass
  cases s.sched.lateFlag <;> rfl

theorem placedOf_urgent : placedOf m capacity s .urgent =
    if s.sched.lateFlag then secondPlaced m capacity s else firstPlaced m capacity s := by
  unfold placedOf firstClass
  cases s.sched.lateFlag <;> rfl

theorem placedOf_routine : placedOf m capacity s .routine =
    if s.sched.lateFlag then firstPlaced m capacity s else secondPlaced m capacity s := by
  unfold placedOf firstClass
  cases s.sched.lateFlag <;> rfl

theorem placedOf_sublist (c : NoticeClass) : (placedOf m capacity s c).Sublist (liveOf m s c) := by
  unfold placedOf
  split
  · next same => exact same ▸ scanned_sublist ..
  · next other => exact eq_secondClass other ▸ scanned_sublist ..

end

section
variable {s : State} (sound : TableSound s.sched) (m : Count) (capacity : Nat)
include sound

theorem mem_liveOf {c : NoticeClass} {r : NoticeRecord} :
    r ∈ liveOf m s c ↔ r ∈ s.sched.records ∧ r.cls = c ∧ expiredIn m r = false := by
  unfold liveOf liveRecords
  rw [List.mem_filter, mem_recordsOf_queue sound, and_assoc]
  simp

theorem mem_placedOf {c : NoticeClass} {r : NoticeRecord} (mem : r ∈ placedOf m capacity s c) :
    r ∈ s.sched.records ∧ r.cls = c ∧ expiredIn m r = false := (mem_liveOf sound m).mp ((placedOf_sublist ..).subset mem)

theorem mem_placedIn {r : NoticeRecord} (mem : r ∈ placedIn m capacity s) : r ∈ s.sched.records ∧ expiredIn m r = false := by
  rcases List.mem_append.mp mem with mem | mem
  · rw [← placedOf_first] at mem
    obtain ⟨inTable, -, live⟩ := mem_placedOf sound m capacity mem
    exact ⟨inTable, live⟩
  · rw [← placedOf_second] at mem
    obtain ⟨inTable, -, live⟩ := mem_placedOf sound m capacity mem
    exact ⟨inTable, live⟩

theorem placedOf_filter (c d : NoticeClass) :
    (placedOf m capacity s c).filter (fun r => decide (r.cls = d)) = if c = d then placedOf m capacity s c else [] := by
  split
  · next same => exact List.filter_eq_self.mpr fun r mem => decide_eq_true (same ▸ (mem_placedOf sound m capacity mem).2.1)
  · next other =>
    refine List.filter_eq_nil_iff.mpr fun r mem => ?_
    simpa using fun same : r.cls = d => other ((mem_placedOf sound m capacity mem).2.1.symm.trans same)

/-- The records of one class among those placed. -/
theorem placedIn_filter (c : NoticeClass) :
    (placedIn m capacity s).filter (fun r => decide (r.cls = c)) = placedOf m capacity s c := by
  rw [placedIn, List.filter_append, ← placedOf_first, ← placedOf_second, placedOf_filter sound, placedOf_filter sound]
  by_cases first : firstClass s = c
  · rw [if_pos first, if_neg fun second => secondClass_ne s (second.trans first.symm), first, List.append_nil]
  · rw [if_neg first, if_pos (eq_secondClass (Ne.symm first)).symm, ← eq_secondClass (Ne.symm first), List.nil_append]

theorem mem_placedOf_iff {r : NoticeRecord} : r ∈ placedOf m capacity s r.cls ↔ r ∈ placedIn m capacity s := by
  rw [← placedIn_filter sound, List.mem_filter]
  simp

/-- The live records of a class are what its queue names after the expiry. -/
theorem liveOf_handles (c : NoticeClass) : (liveOf m s c).map NoticeRecord.handle = (expireNotices m s).sched.queue c := by
  rw [liveOf, ← expireNotices_queue sound]
  exact recordsOf_handles (queue_held (expireNotices_tableSound sound m) c)

theorem placedOf_once (c : NoticeClass) : ((placedOf m capacity s c).map NoticeRecord.handle).Nodup := by
  have queue : ((liveOf m s c).map NoticeRecord.handle).Nodup :=
    liveOf_handles sound m c ▸ queue_once (expireNotices_tableSound sound m) c
  exact queue.sublist ((placedOf_sublist m capacity s c).map _)

theorem placedIn_once : ((placedIn m capacity s).map NoticeRecord.handle).Nodup := by
  rw [placedIn, List.map_append, ← placedOf_first, ← placedOf_second]
  refine (placedOf_once sound m capacity _).append (placedOf_once sound m capacity _) fun h first second => ?_
  obtain ⟨q, inFirst, rfl⟩ := List.mem_map.mp first
  obtain ⟨r, inSecond, same⟩ := List.mem_map.mp second
  obtain ⟨qTable, qClass, -⟩ := mem_placedOf sound m capacity inFirst
  obtain ⟨rTable, rClass, -⟩ := mem_placedOf sound m capacity inSecond
  obtain rfl := record_of_handle sound.once rTable qTable same
  exact secondClass_ne s (rClass.symm.trans qClass)

/-! ## The two scans -/

end

theorem TableSound.of_counters {n n' : Scheduler} (sound : TableSound n) (records : n'.records = n.records) (urgent : n'.urgent = n.urgent)
    (routine : n'.routine = n.routine) : TableSound n' where
  few := records ▸ sound.few
  once := records ▸ sound.once
  sound := records ▸ sound.sound
  queues c := by
    have queue : n'.queue c = n.queue c := by cases c <;> assumption
    unfold QueueSound
    rw [queue, records]
    exact sound.queues c

/-- A build at the beginning of its scans (R104, R107). -/
def scanStart (capacity : Nat) (s : State) : Placement :=
  { state := { s with sched := { s.sched with lateFlag := false } }, room := capacity, cells := [], routineEligible := false,
    routinePlaced := false }

theorem scanQueue_eq (m : Count) (c : NoticeClass) (p : Placement) (once : (p.state.sched.queue c).Nodup) :
    scanQueue m c p = p.scannedOver m c (recordsOf (p.state.sched.queue c) p.state) := foldl_scanOne m c once p

/-- One scan leaves the other class's queue and its records as they are. -/
theorem placing_other_queue {m : Count} {c d : NoticeClass} (other : c ≠ d) {placed : List NoticeRecord} {s : State}
    (sound : TableSound s.sched) (sub : ∀ r ∈ placed, r ∈ s.sched.records ∧ r.cls = c)
    (once : (placed.map NoticeRecord.handle).Nodup) :
    (placing m placed s).sched.queue d = s.sched.queue d ∧ recordsOf (s.sched.queue d) (placing m placed s) = recordsOf (s.sched.queue d) s := by
  have apart : ∀ r ∈ placed, r.handle ∉ s.sched.queue d := fun r mem named => by
    obtain ⟨inTable, own⟩ := sub r mem
    exact other (own.symm.trans ((mem_queue_iff sound inTable).mp named))
  refine ⟨?_, recordsOf_placing m placed s apart⟩
  have tail : tailOf d placed = [] := by
    refine List.map_eq_nil_iff.mpr (List.filter_eq_nil_iff.mpr fun r mem => ?_)
    have foreign : r.cls ≠ d := (sub r mem).2 ▸ other
    simp [foreign]
  rw [(settles_placing m sound (fun r mem => (sub r mem).1) once).queues, tail, List.append_nil]
  refine List.filter_eq_self.mpr fun h inQueue => decide_eq_true fun named => ?_
  obtain ⟨r, mem, rfl⟩ := List.mem_map.mp named
  exact apart r mem inQueue

section
variable {s : State} (sound : TableSound s.sched) (m : Count) (capacity : Nat)
include sound

theorem scanStart_tableSound : TableSound (scanStart capacity (expireNotices m s)).state.sched :=
  (expireNotices_tableSound sound m).of_counters rfl rfl rfl

/-- The scans begin with the live records in the queues. -/
theorem scanStart_live (c : NoticeClass) : recordsOf ((scanStart capacity (expireNotices m s)).state.sched.queue c)
    (scanStart capacity (expireNotices m s)).state = liveOf m s c := by
  refine Eq.trans ?_ (expireNotices_queue sound m c)
  cases c <;> rfl

theorem placedIn_subset_start : placedIn m capacity s ⊆ (scanStart capacity (expireNotices m s)).state.sched.records := fun r mem => by
  obtain ⟨inTable, isLive⟩ := mem_placedIn sound m capacity mem
  change r ∈ (expireNotices m s).sched.records
  rw [expireNotices_records sound]
  exact List.mem_filter.mpr ⟨inTable, by simpa using isLive⟩

theorem scans_order : scans m capacity (expireNotices m s) =
    scanQueue m (secondClass s) (scanQueue m (firstClass s) (scanStart capacity (expireNotices m s))) := by
  have flag : (expireNotices m s).sched.lateFlag = s.sched.lateFlag := by rw [(expireNotices_expires sound m).sched]; rfl
  unfold scans firstClass secondClass
  rw [flag]
  split <;> rfl

/-- The scans of a build are those of the live records of the two classes, in their order (R104, R105). -/
theorem scans_eq : scans m capacity (expireNotices m s) =
    ((scanStart capacity (expireNotices m s)).scannedOver m (firstClass s) (liveOf m s (firstClass s))).scannedOver m (secondClass s)
      (liveOf m s (secondClass s)) := by
  have table := scanStart_tableSound sound m capacity
  have sub : ∀ r ∈ firstPlaced m capacity s, r ∈ (scanStart capacity (expireNotices m s)).state.sched.records ∧ r.cls = firstClass s :=
    fun r mem => ⟨placedIn_subset_start sound m capacity (List.mem_append_left _ mem),
      (mem_placedOf sound m capacity ((placedOf_first m capacity s).symm ▸ mem)).2.1⟩
  obtain ⟨sameQueue, sameRecords⟩ := placing_other_queue (m := m) (Ne.symm (secondClass_ne s)) table sub
    (placedOf_first m capacity s ▸ placedOf_once sound m capacity _)
  rw [scans_order sound, scanQueue_eq m (firstClass s) _ (queue_once table _), scanStart_live sound]
  rw [scanQueue_eq m (secondClass s) _ (sameQueue ▸ queue_once table _)]
  refine congrArg (Placement.scannedOver m (secondClass s) · _) ?_
  exact (congrArg (recordsOf · _) sameQueue).trans (sameRecords.trans (scanStart_live sound m capacity _))

end

end Sys2Proof.Machine
end

section
/-! PROOF. The state that a build of notices leaves: the table, the queues, the late counter, the cells and NOTICE_EXPIRED (6.5). -/

namespace Sys2Proof.Machine

/-- The late counter's next value, before its limit is judged. -/
def lateNext (m : Count) (capacity : Nat) (s : State) : Nat :=
  if (liveOf m s .routine).any (eligibleIn m) = true ∧ placedOf m capacity s .routine = [] then s.sched.lateCounter + 1 else 0

theorem eq_of_offTable {n n' : Scheduler} (same : n'.offTable = n.offTable) :
    n' = { n with records := n'.records, urgent := n'.urgent, routine := n'.routine } := by
  obtain ⟨⟩ := n
  obtain ⟨⟩ := n'
  simpa [Scheduler.offTable] using same

theorem scannedOver_eligible (m : Count) (c : NoticeClass) (l : List NoticeRecord) (p : Placement) :
    (p.scannedOver m c l).routineEligible = (p.routineEligible || (decide (c = .routine) && l.any (eligibleIn m))) := rfl

/-- The records that a build removes: those expired, and those placed for the last time (R103, R106). -/
def removedIn (m : Count) (capacity : Nat) (s : State) : List NoticeRecord :=
  s.sched.records.filter (fun n => expiredIn m n || decide (n ∈ placedIn m capacity s ∧ n.repeatsRemaining = 1))

theorem mem_removedIn {m : Count} {capacity : Nat} {s : State} {r : NoticeRecord} (mem : r ∈ s.sched.records) :
    r ∈ removedIn m capacity s ↔ expiredIn m r = true ∨ (r ∈ placedIn m capacity s ∧ r.repeatsRemaining = 1) := by
  simp [removedIn, mem]

section
variable {s : State} (sound : TableSound s.sched) (m : Count) (capacity : Nat)
include sound

/-! ## What the scans leave -/

theorem scans_state : (scans m capacity (expireNotices m s)).state =
    placing m (placedIn m capacity s) (scanStart capacity (expireNotices m s)).state := by
  rw [scans_eq sound]
  exact (List.foldl_append ..).symm

theorem placeNotices_cells : (placeNotices m capacity s).2 = (placedIn m capacity s).flatMap NoticeRecord.placed := by
  rw [placeNotices_eq]
  dsimp only
  rw [scans_eq sound]
  exact (List.flatMap_append ..).symm

/-- ROUTINE's part in the scans: a live record was eligible, and a record was placed (R107). -/
theorem scans_routine : (scans m capacity (expireNotices m s)).routineEligible = (liveOf m s .routine).any (eligibleIn m) ∧
    (scans m capacity (expireNotices m s)).routinePlaced = !(placedOf m capacity s .routine).isEmpty := by
  rw [scans_eq sound]
  refine ⟨?_, ?_⟩
  · rw [scannedOver_eligible, scannedOver_eligible, scanStart]
    unfold firstClass secondClass
    cases s.sched.lateFlag
    · simp
    · simp
  · change ((false || (_ && !(firstPlaced m capacity s).isEmpty)) || (_ && !(secondPlaced m capacity s).isEmpty)) = _
    rw [← placedOf_first, ← placedOf_second]
    unfold firstClass secondClass
    cases s.sched.lateFlag
    · simp
    · simp

theorem scans_settles : Settles m (placedIn m capacity s) (scanStart capacity (expireNotices m s)).state.sched
    (scans m capacity (expireNotices m s)).state.sched := by
  rw [scans_state sound]
  exact settles_placing m (scanStart_tableSound sound m capacity) (placedIn_subset_start sound m capacity)
    (placedIn_once sound m capacity)

/-! ## The table and the queues -/

theorem placedIn_handle_iff {r : NoticeRecord} (mem : r ∈ s.sched.records) :
    r.handle ∈ (placedIn m capacity s).map NoticeRecord.handle ↔ r ∈ placedIn m capacity s :=
  handle_mem_iff sound.once (fun _ placed => (mem_placedIn sound m capacity placed).1) mem

/-- The table after a build: what is not removed, with the placed records repeated (R106). -/
theorem scans_records : (scans m capacity (expireNotices m s)).state.sched.records =
    (s.sched.records.filter (fun n => n ∉ removedIn m capacity s)).map
      (fun n => if n ∈ placedIn m capacity s then n.repeated m else n) := by
  rw [(scans_settles sound m capacity).records]
  change (expireNotices m s).sched.records.filterMap _ = _
  rw [expireNotices_records sound, List.filterMap_filter,
    ← List.filterMap_eq_map (f := fun n => if n ∈ placedIn m capacity s then n.repeated m else n), List.filterMap_filter]
  refine List.filterMap_congr fun r mem => ?_
  obtain ⟨-, ⟨more, -⟩, -⟩ := sound.sound r mem
  have last : r.repeatsRemaining ≤ 1 ↔ r.repeatsRemaining = 1 := ⟨fun le => Nat.le_antisymm le more, Nat.le_of_eq⟩
  have gone := mem_removedIn (m := m) (capacity := capacity) mem
  have placed := placedIn_handle_iff sound m capacity mem
  by_cases expired : expiredIn m r = true
  · simp [expired, gone]
  by_cases chosen : r ∈ placedIn m capacity s
  · by_cases once : r.repeatsRemaining = 1
    · simp [NoticeRecord.settled, expired, gone, placed, chosen, once]
    · simp [NoticeRecord.settled, expired, gone, placed, chosen, once, last]
  · simp [NoticeRecord.settled, expired, gone, placed, chosen]

/-- A class's queue after a build (R106). -/
theorem scans_queue (c : NoticeClass) :
    (scans m capacity (expireNotices m s)).state.sched.queue c = queueAfter (placedOf m capacity s c) (liveOf m s c) := by
  have start : (scanStart capacity (expireNotices m s)).state.sched.queue c = (liveOf m s c).map NoticeRecord.handle :=
    (liveOf_handles sound m c).symm ▸ by cases c <;> rfl
  rw [(scans_settles sound m capacity).queues, start, queueAfter, List.map_append, List.filter_map]
  refine congrArg₂ _ (congrArg _ (List.filter_congr fun r mem => ?_)) ?_
  · obtain ⟨inTable, rfl, -⟩ := (mem_liveOf sound m).mp mem
    exact decide_eq_decide.mpr (not_congr ((placedIn_handle_iff sound m capacity inTable).trans
      (mem_placedOf_iff sound m capacity).symm))
  · rw [tailOf, ← List.filter_filter, placedIn_filter sound]

/-! ## The late counter (R107) -/

/-- The scans lower the late flag and leave the counter, its limit and the next handle. -/
theorem scans_rest : (scans m capacity (expireNotices m s)).state.sched.offTable =
    ({ s.sched with lateFlag := false } : Scheduler).offTable := by
  refine (scans_settles sound m capacity).rest.trans ?_
  unfold scanStart
  rw [(expireNotices_expires sound m).sched]
  rfl

theorem scans_late (n : Nat) : (if (scans m capacity (expireNotices m s)).routineEligible = true ∧
      (scans m capacity (expireNotices m s)).routinePlaced = false then n + 1 else 0) =
    if (liveOf m s .routine).any (eligibleIn m) = true ∧ placedOf m capacity s .routine = [] then n + 1 else 0 := by
  obtain ⟨eligible, placed⟩ := scans_routine sound m capacity
  rw [eligible, placed]
  refine if_congr (and_congr_right fun _ => ?_) rfl rfl
  simp

/-- The scheduler after a build. -/
theorem placeNotices_sched : (placeNotices m capacity s).1.sched =
    { records := (s.sched.records.filter (fun n => n ∉ removedIn m capacity s)).map
        (fun n => if n ∈ placedIn m capacity s then n.repeated m else n),
      urgent := queueAfter (placedOf m capacity s .urgent) (liveOf m s .urgent),
      routine := queueAfter (placedOf m capacity s .routine) (liveOf m s .routine),
      lateCounter := if s.sched.lateLimit ≤ lateNext m capacity s then 0 else lateNext m capacity s,
      lateFlag := decide (s.sched.lateLimit ≤ lateNext m capacity s),
      lateLimit := s.sched.lateLimit, nextHandle := s.sched.nextHandle } := by
  rw [← scans_records sound, ← scans_queue sound, ← scans_queue sound, placeNotices_eq]
  unfold updateLate
  dsimp only
  rw [scans_late sound, eq_of_offTable (scans_rest sound m capacity)]
  change (if s.sched.lateLimit ≤ lateNext m capacity s then _ else _ : Scheduler) = _
  by_cases reached : s.sched.lateLimit ≤ lateNext m capacity s
  · rw [if_pos reached, if_pos reached, decide_eq_true reached]
    rfl
  · rw [if_neg reached, if_neg reached, decide_eq_false reached]
    rfl

/-! ## The cells -/

theorem records_once : s.sched.records.Nodup := .of_map _ sound.once

theorem expiredRecords_once : (expiredRecords m s).Nodup := by
  have named := recordsOf_handles (s := s) (queues_perm sound).subset
  refine (List.Nodup.of_map NoticeRecord.handle ?_).filter _
  rw [named]
  exact queues_once sound

/-- The records that a build removes: the expired ones, and those placed for the last time. -/
theorem removedIn_perm : (removedIn m capacity s).Perm
    (expiredRecords m s ++ (placedIn m capacity s).filter (fun r => r.repeatsRemaining ≤ 1)) := by
  refine (List.perm_ext_iff_of_nodup ((records_once sound).filter _) ?_).mpr fun r => ?_
  · refine (expiredRecords_once sound m).append ((List.Nodup.of_map _ (placedIn_once sound m capacity)).filter _) fun r gone placed => ?_
    have live := (mem_placedIn sound m capacity (List.mem_of_mem_filter placed)).2
    exact absurd (live.symm.trans (List.mem_filter.mp gone).2) Bool.false_ne_true
  rw [List.mem_append, mem_expiredRecords sound m, List.mem_filter (as := placedIn m capacity s), decide_eq_true_eq]
  change r ∈ removedIn m capacity s ↔ _
  constructor
  · intro mem
    have inTable := List.mem_of_mem_filter mem
    refine ((mem_removedIn inTable).mp mem).imp (fun expired => ⟨inTable, expired⟩) ?_
    exact fun ⟨placed, once⟩ => ⟨placed, Nat.le_of_eq once⟩
  · rintro (⟨inTable, expired⟩ | ⟨placed, last⟩)
    · exact (mem_removedIn inTable).mpr (.inl expired)
    · have inTable := (mem_placedIn sound m capacity placed).1
      obtain ⟨-, ⟨more, -⟩, -⟩ := sound.sound r inTable
      exact (mem_removedIn inTable).mpr (.inr ⟨placed, Nat.le_antisymm last more⟩)

/-- The cells that a build frees are those of the records it removes, in some order (R39). -/
theorem placeNotices_pool : (placeNotices m capacity s).1.pool.lowWater = s.pool.lowWater ∧
    (placeNotices m capacity s).1.pool.freeList.Perm (s.pool.freeList ++ (removedIn m capacity s).flatMap NoticeRecord.cells) := by
  have pool : (placeNotices m capacity s).1.pool = (scans m capacity (expireNotices m s)).state.pool := rfl
  have start : (scanStart capacity (expireNotices m s)).state.pool = (expireNotices m s).pool := rfl
  rw [pool, scans_state sound, placing_pool, start, (expireNotices_expires sound m).pool]
  refine ⟨rfl, ?_⟩
  rw [List.append_assoc, ← List.flatMap_append]
  exact ((removedIn_perm sound m capacity).symm.flatMap_right _).append_left _

/-! ## A build that finds an eligible record -/

theorem placeNotices_expired :
    (∀ n, (expiredRecords m s).getLast? = some n →
      Raised 15 n.handle (BitVec.ofNat 32 n.transmissions) s (placeNotices m capacity s).1) ∧
    (expiredRecords m s = [] → (placeNotices m capacity s).1.events[(15 : EventId)] = s.events[(15 : EventId)]) := by
  have events : (placeNotices m capacity s).1.events = (expireNotices m s).events := by rw [placeNotices_frame]
  obtain ⟨-, -, kinds⟩ := (expireNotices_expires sound m).reports
  have reported := kinds 15
  refine ⟨fun n last => ?_, fun none => ?_⟩
  · have report : expiryReport (expiredRecords m s) 15 = some (n.handle, BitVec.ofNat 32 n.transmissions) := by
      simp [expiryReport, last]
    rw [report] at reported
    unfold Raised
    rw [events]
    exact reported
  · rw [none] at reported
    rw [events]
    exact reported

end

theorem cells_bounds {n : NoticeRecord} (sound : NoticeSound n) : 1 ≤ n.cells.length ∧ n.cells.length ≤ 3 := by
  obtain ⟨-, -, -, -, cells⟩ := sound
  rw [cells]
  unfold cellsNeeded
  split
  · decide
  · split <;> decide

/-- A scan with room for any record places one if one is eligible (R105). -/
theorem scanned_ne_nil {m : Count} {room : Nat} (wide : 3 ≤ room) {l : List NoticeRecord} (sound : ∀ n ∈ l, NoticeSound n)
    (eligible : ∃ n ∈ l, eligibleIn m n = true) : scanned m room l ≠ [] := by
  induction l with
  | nil => exact absurd eligible (by simp)
  | cons n l ih =>
    obtain ⟨head, rest⟩ := List.forall_mem_cons.mp sound
    unfold scanned
    by_cases chosen : eligibleIn m n = true
    · rw [if_pos ⟨chosen, Nat.le_trans (cells_bounds head).2 wide⟩]
      exact List.cons_ne_nil _ _
    · rw [if_neg fun h => chosen h.1]
      refine ih rest ?_
      obtain ⟨q, mem, isEligible⟩ := eligible
      rcases List.mem_cons.mp mem with rfl | later
      · exact absurd isEligible chosen
      · exact ⟨q, later, isEligible⟩

section
variable {s : State} (sound : TableSound s.sched) (m : Count) (capacity : Nat)
include sound

theorem placedIn_ne_nil (wide : 7 ≤ capacity) {n : NoticeRecord} (mem : n ∈ s.sched.records) (live : expiredIn m n = false)
    (eligible : eligibleIn m n = true) : placedIn m capacity s ≠ [] := by
  have all (c : NoticeClass) : ∀ r ∈ liveOf m s c, NoticeSound r := fun r h => sound.sound r ((mem_liveOf sound m).mp h).1
  have own : n ∈ liveOf m s n.cls := (mem_liveOf sound m).mpr ⟨mem, rfl, live⟩
  intro none
  obtain ⟨first, second⟩ := List.append_eq_nil_iff.mp none
  by_cases class_ : n.cls = firstClass s
  · exact scanned_ne_nil (by omega) (all _) ⟨n, class_ ▸ own, eligible⟩ first
  · refine scanned_ne_nil ?_ (all _) ⟨n, eq_secondClass class_ ▸ own, eligible⟩ second
    rw [first]
    exact Nat.le_trans (by decide) wide

theorem placeNotices_ne_nil (wide : 7 ≤ capacity) {n : NoticeRecord} (mem : n ∈ s.sched.records) (live : expiredIn m n = false)
    (eligible : eligibleIn m n = true) : (placeNotices m capacity s).2 ≠ [] := by
  rw [placeNotices_cells sound]
  intro none
  obtain ⟨r, placed⟩ := List.exists_mem_of_ne_nil _ (placedIn_ne_nil sound m capacity wide mem live eligible)
  have empty : r.placed = [] := List.flatMap_eq_nil_iff.mp none r placed
  have some := (cells_bounds (sound.sound r (mem_placedIn sound m capacity placed).1)).1
  have length : r.placed.length = r.cells.length := by simp [NoticeRecord.placed]
  rw [empty, List.length_nil] at length
  omega

end

/-- The bytes of a cell one by one, zero past the payload's end (R98). -/
theorem cellContent_eq (payload : List Byte) (i : Nat) :
    cellContent payload i = (List.range 64).map (fun j => payload.getD (64 * i + j) 0) := by
  refine List.ext_getElem ?_ fun j h _ => ?_
  · simp [cellContent, -List.reduceReplicate]
  · have small : j < 64 := by simpa [cellContent, -List.reduceReplicate] using h
    rw [List.getElem_map, List.getElem_range, List.getD_eq_getElem?_getD]
    simp only [cellContent, List.getElem_take, List.getElem_append, List.getElem_replicate, List.length_take, List.length_drop,
      List.getElem_drop]
    by_cases within : 64 * i + j < payload.length
    · rw [dif_pos (by omega), List.getElem?_eq_getElem within]
      rfl
    · rw [dif_neg (by omega), List.getElem?_eq_none (Nat.le_of_not_lt within)]
      rfl

/-- Settles O47: the expiry, the two scans and the late counter, each by what it leaves of the table, the queues and the cells. -/
theorem noticesAtABuild : Obligations.NoticesAtABuild := by
  intro m capacity s notices wide t cells urgent routine first second placedUrgent placedRoutine gone moved late cellOf
  obtain ⟨sound, -⟩ := (noticesSound_iff s.sched).mp notices
  obtain ⟨notices, -, others⟩ := placeNotices_raisesOnly m capacity s
  obtain ⟨low, free⟩ := placeNotices_pool sound m capacity
  obtain ⟨raised, quiet⟩ := placeNotices_expired sound m capacity
  have isFirst : first = firstPlaced m capacity s := scanned_firstClass m capacity s
  have isSecond : second = secondPlaced m capacity s := by
    change scanned m (capacity - cellSum first) _ = _
    rw [isFirst]
    exact scanned_secondClass m capacity s
  have both : first ++ second = placedIn m capacity s := by rw [isFirst, isSecond, placedIn]
  have isUrgent : placedUrgent = placedOf m capacity s .urgent := by rw [placedOf_urgent, ← isFirst, ← isSecond]
  have isRoutine : placedRoutine = placedOf m capacity s .routine := by rw [placedOf_routine, ← isFirst, ← isSecond]
  have isGone : gone = removedIn m capacity s := by
    change s.sched.records.filter (fun n => expiredIn m n || decide (n ∈ first ++ second ∧ n.repeatsRemaining = 1)) = _
    rw [both, removedIn]
  have isLate : late = lateNext m capacity s := by
    change (if _ ∧ placedRoutine = [] then _ else _) = _
    rw [isRoutine, lateNext]
    rfl
  have placed (n : NoticeRecord) : n.placed = (List.range n.cells.length).map (cellOf n) := by
    unfold NoticeRecord.placed
    simp only [cellContent_eq]
    rfl
  refine ⟨eq_of_offNotices (placeNotices_offNotices m capacity s), notices, ?_, placeNotices_fit m capacity s, ?_, ?_, low, ?_,
    others, raised, quiet⟩
  · rw [both, ← funext placed]
    exact placeNotices_cells sound m capacity
  · rintro ⟨n, mem, live, eligible⟩
    exact placeNotices_ne_nil sound m capacity wide mem live eligible
  · rw [both, isUrgent, isRoutine, isGone, isLate]
    exact placeNotices_sched sound m capacity
  · rw [isGone]
    exact free

end Sys2Proof.Machine
end

section
/-! PROOF. Where a slot stands: the window that holds it, and what the charge controller's and the rack bus's small operations do there; and
an exchange asked for, in the terms of the claims. -/

namespace Sys2Proof.Machine

/-! ## Windows and the addresses they hold -/

theorem toIndex_eq_some {n x : Nat} {k : Fin n} : toIndex n x = some k ↔ x = k.val := by
  unfold toIndex
  split
  · next h => exact ⟨fun e => congrArg Fin.val (Option.some.inj e), fun e => congrArg some (Fin.ext e)⟩
  · next h => exact iff_of_false nofun fun e => h (e ▸ k.isLt)

theorem holds_iff {w : RackWindow} {a : SlotAddr} : w.holds a = true ↔ w.base ≤ a.val ∧ a.val < w.base + w.size := by
  simp [RackWindow.holds]

/-- A change of the account leaves the window where it is. -/
theorem holds_congr {v w : RackWindow} (base : v.base = w.base) (size : v.size = w.size) (a : SlotAddr) : v.holds a = w.holds a := by
  rw [RackWindow.holds, RackWindow.holds, base, size]

theorem mem_addresses {w : RackWindow} {a : SlotAddr} : a ∈ w.addresses ↔ w.holds a = true := by
  simp only [RackWindow.addresses, List.mem_filterMap, List.mem_range, toIndex_eq_some, holds_iff]
  constructor
  · rintro ⟨i, small, place⟩
    omega
  · rintro ⟨low, high⟩
    exact ⟨a.val - w.base, by omega, by omega⟩

theorem addresses_nodup (w : RackWindow) : w.addresses.Nodup := by
  refine List.Nodup.filterMap (fun i j a hi hj => ?_) List.nodup_range
  have := toIndex_eq_some.mp hi
  have := toIndex_eq_some.mp hj
  omega

/-- A window's addresses are those it holds, in increasing order. -/
theorem addresses_eq_filter (w : RackWindow) : w.addresses = (List.finRange 256).filter w.holds := by
  have ordered : w.addresses.Pairwise (· < ·) := by
    refine List.Pairwise.filterMap _ (fun i j before a ha b hb => ?_) List.pairwise_lt_range
    rw [toIndex_eq_some] at ha hb
    exact Fin.lt_def.mpr (by omega)
  refine List.Perm.eq_of_pairwise (le := (· < ·)) (fun a b _ _ h g => absurd h (lt_asymm g)) ordered
    (List.Pairwise.filter _ (List.pairwise_lt_finRange 256)) ?_
  exact (List.perm_ext_iff_of_nodup (addresses_nodup w) ((List.nodup_finRange 256).filter _)).mpr fun a => by
    rw [mem_addresses, List.mem_filter]
    exact (and_iff_right (List.mem_finRange a)).symm

/-! ## A slot in its window -/

/-- Slot a, with record x, stands in rack r's window w, and in no other. -/
structure Stands (s : State) (r : RackId) (w : RackWindow) (a : SlotAddr) (x : Slot) : Prop where
  rack : s.racks[r] = some w
  holds : w.holds a = true
  slot : s.slots[a] = some x
  only : ∀ (q : RackId) (v : RackWindow), s.racks[q] = some v → v.holds a = true → q = r

theorem WindowsSound.stands {s : State} (sound : WindowsSound s) {r : RackId} {w : RackWindow} {a : SlotAddr} {x : Slot}
    (rack : s.racks[r] = some w) (holds : w.holds a = true) (slot : s.slots[a] = some x) : Stands s r w a x :=
  ⟨rack, holds, slot, fun q v there held => sound.2.1 q r v there w rack a held holds⟩

/-- A slot record stands in some window (R114). -/
theorem WindowsSound.stands_slot {s : State} (sound : WindowsSound s) {a : SlotAddr} {x : Slot} (slot : s.slots[a] = some x) :
    ∃ r w, Stands s r w a x := by
  obtain ⟨r, w, rack, holds⟩ := (sound.2.2.1 a).mp (slot ▸ Option.some_ne_none x)
  exact ⟨r, w, sound.stands rack holds slot⟩

/-- A window's addresses have slot records (R114). -/
theorem WindowsSound.stands_rack {s : State} (sound : WindowsSound s) {r : RackId} {w : RackWindow} {a : SlotAddr}
    (rack : s.racks[r] = some w) (holds : w.holds a = true) : ∃ x, Stands s r w a x := by
  obtain ⟨x, slot⟩ := Option.ne_none_iff_exists'.mp ((sound.2.2.1 a).mpr ⟨r, w, rack, holds⟩)
  exact ⟨x, sound.stands rack holds slot⟩

namespace Stands

section
variable {s : State} {r : RackId} {w : RackWindow} {a : SlotAddr} {x : Slot}

theorem congr (h : Stands s r w a x) {t : State} (racks : t.racks = s.racks) (slots : t.slots = s.slots) : Stands t r w a x := by
  obtain ⟨rack, holds, slot, only⟩ := h
  exact ⟨racks ▸ rack, holds, slots ▸ slot, racks ▸ only⟩

/-- The window's account and the slot's record are written. -/
theorem write (h : Stands s r w a x) {v : RackWindow} {y : Slot} (base : v.base = w.base) (size : v.size = w.size) {t : State}
    (racks : t.racks = s.racks.set r (some v)) (slots : t.slots = s.slots.set a (some y)) : Stands t r v a y where
  rack := by rw [racks, get_set_same]
  holds := (holds_congr base size a).trans h.holds
  slot := by rw [slots, get_set_same]
  only q u there held := by
    rw [racks, get_set_cases] at there
    split at there
    · next same => exact same
    · exact h.only q u there held

theorem writeSlot (h : Stands s r w a x) {y : Slot} {t : State} (racks : t.racks = s.racks) (slots : t.slots = s.slots.set a (some y)) :
    Stands t r w a y := by
  obtain ⟨rack, holds, -, only⟩ := h
  exact ⟨racks ▸ rack, holds, by rw [slots, get_set_same], racks ▸ only⟩

theorem rackOf (h : Stands s r w a x) : s.rackOf a = some r := by
  have found : (s.rackOf a).isSome := List.find?_isSome.mpr ⟨r, List.mem_finRange r, by rw [h.rack]; exact h.holds⟩
  obtain ⟨q, at_q⟩ := Option.isSome_iff_exists.mp found
  have held := List.find?_some at_q
  split at held
  · next v there => rw [at_q, h.only q v there held]
  · cases held

theorem modRackOf (h : Stands s r w a x) (f : RackWindow → RackWindow) : Machine.modRackOf a f s = s.setRack r (some (f w)) := by
  rw [Machine.modRackOf, h.rackOf]
  exact congrArg (fun v => s.setRack r (Option.map f v)) h.rack

theorem attemptFor (h : Stands s r w a x) : Machine.attemptFor a s = attempt r s := by
  rw [Machine.attemptFor, h.rackOf]

theorem isHead (h : Stands s r w a x) : Machine.isHead a s = decide (w.admission.head? = some a) := by
  rw [Machine.isHead, h.rackOf]
  dsimp only
  rw [h.rack]
  rfl

end

end Stands

theorem modSlot_eq {s : State} {a : SlotAddr} {x : Slot} (slot : s.slots[a] = some x) (f : Slot → Slot) :
    s.modSlot a f = s.setSlot a (some (f x)) := congrArg (fun v => s.setSlot a (Option.map f v)) slot

theorem modRack_eq {s : State} {r : RackId} {w : RackWindow} (rack : s.racks[r] = some w) (f : RackWindow → RackWindow) :
    s.modRack r f = s.setRack r (some (f w)) := congrArg (fun v => s.setRack r (Option.map f v)) rack

theorem setSlot_setSlot (s : State) (a : SlotAddr) (x y : Option Slot) : (s.setSlot a x).setSlot a y = s.setSlot a y := by
  simp only [State.setSlot, Vector.set_set]

theorem setSlot_setRack (s : State) (a : SlotAddr) (x : Option Slot) (r : RackId) (y : Option RackWindow) :
    (s.setSlot a x).setRack r y = (s.setRack r y).setSlot a x := rfl

@[simp] theorem setSlot_get (s : State) (a : SlotAddr) (x : Option Slot) : (s.setSlot a x).slots[a] = x := get_set_same _ _ _

@[simp] theorem setRack_get (s : State) (r : RackId) (x : Option RackWindow) : (s.setRack r x).racks[r] = x := get_set_same _ _ _

/-- A record written back as it stands. -/
theorem set_own {α : Type} {n : Nat} {v : Vector α n} {k : Fin n} {x : α} (own : v[k] = x) : v.set k x = v := by
  subst own
  exact Vector.set_getElem_self k.isLt

theorem setSlot_own {s : State} {a : SlotAddr} {x : Option Slot} (slot : s.slots[a] = x) : s.setSlot a x = s := by
  rw [State.setSlot, set_own slot]

/-! ## Exchanges asked for (R116) -/

theorem asked_nil (q : Fin 6) (s : State) : asked q [] s = s := by
  unfold asked
  dsimp only
  rw [List.take_nil, List.append_nil, set_own rfl]

/-- A full queue drops what is asked (R116). -/
theorem asked_full {q : Fin 6} {s : State} (full : 64 ≤ (s.bus.queues[q]).length) (es : List Exchange) : asked q es s = s := by
  unfold asked
  dsimp only
  rw [Nat.sub_eq_zero_of_le full, List.take_zero, List.append_nil, set_own rfl]

theorem asked_queue (q : Fin 6) (es : List Exchange) (s : State) :
    (asked q es s).bus.queues[q] = s.bus.queues[q] ++ es.take (64 - (s.bus.queues[q]).length) := get_set_same _ _ _

/-- Exchanges asked for one after another, each as far as there is room. -/
theorem asked_append (q : Fin 6) (es fs : List Exchange) (s : State) : asked q (es ++ fs) s = asked q fs (asked q es s) := by
  have joined : s.bus.queues[q] ++ (es ++ fs).take (64 - (s.bus.queues[q]).length) = (asked q es s).bus.queues[q] ++
      fs.take (64 - ((asked q es s).bus.queues[q]).length) := by
    rw [asked_queue, List.take_append, List.append_assoc, List.length_append, List.length_take]
    congr 3
    omega
  unfold asked at joined ⊢
  dsimp only at joined ⊢
  rw [joined, Vector.set_set]

/-- A request that its slot allows and that is not merged joins its queue, or is DROPPED by a full one (R116). -/
theorem request_eq_asked {e : Exchange} {s : State} (allowed : e.allowed s = true) (single : e.merged s = false) :
    request e s = (if (s.bus.queues[e.queue]).length < 64 then .queued else .dropped, asked e.queue [e] s) := by
  rcases request_cases e s with ⟨no, -⟩ | ⟨-, yes, -⟩ | ⟨-, -, full, eq⟩ | ⟨-, -, room, eq⟩
  · rw [allowed] at no
    cases no
  · rw [single] at yes
    cases yes
  · rw [eq, if_neg (Nat.not_lt.mpr full), asked_full full]
  · have fits : [e].length ≤ 64 - (s.bus.queues[e.queue]).length := Nat.le_sub_of_add_le' room
    rw [eq, if_pos room]
    unfold asked
    dsimp only
    rw [List.take_of_length_le fits]
    rfl

theorem ask_eq_asked {e : Exchange} {s : State} (allowed : e.allowed s = true) (single : e.merged s = false) :
    ask e s = asked e.queue [e] s := congrArg Prod.snd (request_eq_asked allowed single)

theorem scan_asked (r : RackId) (s : State) : ask (.scan r) s = asked 0 [.scan r] s := ask_eq_asked rfl rfl

theorem scans_asked (l : List RackId) (s : State) : forEach l (fun r => ask (.scan r)) s = asked 0 (l.map Exchange.scan) s := by
  induction l generalizing s with
  | nil => exact (asked_nil 0 s).symm
  | cons r l ih => rw [forEach_cons, scan_asked, ih, ← asked_append, List.map_cons, List.singleton_append]

/-- A PROBE of a PROBING slot (R116). -/
theorem probe_asked {a : SlotAddr} {s : State} (probing : (s.slots[a]).map Slot.occupancy = some .probing) :
    ask (.probe a) s = asked 2 [.probe a] s := ask_eq_asked (decide_eq_true probing) rfl

/-- A SET_CHARGE of an OCCUPIED slot (R135). -/
theorem requestSetCharge_told {a : SlotAddr} {s : State} (occupied : (s.slots[a]).map Slot.occupancy = some .occupied)
    (m : ChargeMode) : requestSetCharge a m s = told a m s := by
  unfold requestSetCharge told
  rw [request_eq_asked (e := .setCharge a m) (decide_eq_true occupied) rfl]
  by_cases room : (s.bus.queues[(3 : Fin 6)]).length < 64
  · rw [if_pos room, if_pos (show (s.bus.queues[(Exchange.setCharge a m).queue]).length < 64 from room)]
    rfl
  · rw [if_neg room, if_neg (show ¬(s.bus.queues[(Exchange.setCharge a m).queue]).length < 64 from room)]
    have same : asked 3 [.setCharge a m] s = s := asked_full (Nat.not_lt.mp room) _
    change (asked 3 [.setCharge a m] s).modSlot a _ = _
    rw [same]
    rfl

end Sys2Proof.Machine
end

section
/-! PROOF. The rack bus between its completions: the causes of SCANs, the arbiter and the good answer (R117, R118, R123, R176); and the
two requests on a slot, SLOT_STATUS and SLOT_CLEAR_FAULT (R127, R128). -/

namespace Sys2Proof.Machine

/-! ## Frames of the rack bus (R176) -/

theorem code_eq_kindCode (e : Exchange) : e.code = kindCode e := by cases e <;> rfl

theorem answerLength_eq_answerSize (e : Exchange) : e.answerLength = answerSize e := by cases e <;> rfl

theorem queue_eq_classOf (e : Exchange) : classOf e = e.queue.val + 1 := by cases e <;> rfl

theorem parameters_eq_requestParams (e : Exchange) : e.parameters = requestParams e := by
  cases e with
  | setCharge a m => cases m <;> rfl
  | tune a c g k => cases k <;> rfl
  | scan | probe | poll | release | clear => rfl

theorem rackFrame_eq_busFrame (start : Byte) (x : InFlight) (params : List Byte) :
    rackFrame start x.rack x.exchange.code x.number x.position params = busFrame start x params := by
  rw [code_eq_kindCode]
  rfl

/-- The parameters stand behind the six bytes of the header. -/
theorem busFrame_params (start : Byte) (x : InFlight) (params : List Byte) : ((busFrame start x params).drop 6).take params.length = params :=
  (congrArg (List.take params.length) (show (busFrame start x params).drop 6 = params ++ _ from rfl)).trans List.take_left

theorem goodAnswer_good (x : InFlight) {params : List Byte} (size : params.length = answerSize x.exchange) :
    goodAnswer x (busFrame 0x5B x params) = some params := by
  unfold goodAnswer
  rw [answerLength_eq_answerSize, ← size, busFrame_params]
  dsimp only
  rw [rackFrame_eq_busFrame]
  exact if_pos ⟨rfl, rfl⟩

theorem goodAnswer_bad {x : InFlight} {bytes : List Byte}
    (bad : ∀ params : List Byte, params.length = answerSize x.exchange → bytes ≠ busFrame 0x5B x params) : goodAnswer x bytes = none := by
  unfold goodAnswer
  rw [answerLength_eq_answerSize]
  refine if_neg fun ⟨size, same⟩ => bad _ size ?_
  rwa [← rackFrame_eq_busFrame]

/-! ## The arbiter (R117) -/

theorem nextExchange_eq (s : State) : nextExchange s = (List.finRange 6).findSome? fun q => (s.bus.queues[q]).head? := by
  unfold nextExchange queuedWhere
  rw [List.head?_flatMap]
  simp only [List.filter_true]

/-- The head of the lowest-numbered class queue that is not empty. -/
theorem nextExchange_lowest {s : State} {q : Fin 6} {e : Exchange} {rest : List Exchange} (head : s.bus.queues[q] = e :: rest)
    (lower : ∀ p : Fin 6, p < q → s.bus.queues[p] = []) : nextExchange s = some e := by
  obtain ⟨before, after, split⟩ := List.append_of_mem (List.mem_finRange q)
  have ordered := List.pairwise_lt_finRange 6
  rw [split] at ordered
  rw [nextExchange_eq, List.findSome?_eq_some_iff]
  refine ⟨before, q, after, split, by rw [head, List.head?_cons], fun p mem => ?_⟩
  rw [lower p ((List.pairwise_append.mp ordered).2.2 p mem q List.mem_cons_self), List.head?_nil]

theorem nextExchange_none {s : State} (empty : ∀ q : Fin 6, s.bus.queues[q] = []) : nextExchange s = none := by
  rw [nextExchange_eq, List.findSome?_eq_none_iff]
  exact fun q _ => by rw [empty q, List.head?_nil]

/-- The rack that an exchange goes to (R117). -/
theorem rack_of_goesTo {s : State} (sound : WindowsSound s) {e : Exchange} {r : RackId} {w : RackWindow} (goes : GoesTo e r w s) :
    e.rack s = r := by
  obtain ⟨rack, rfl | ⟨a, slot, holds⟩⟩ := goes
  · rfl
  · obtain ⟨x, stands⟩ := sound.stands_rack rack holds
    have there : (e.slot?.bind s.rackOf).getD 0 = r := by
      rw [Option.mem_def.mp slot, Option.bind_some, stands.rackOf, Option.getD_some]
    cases e with
    | scan q => cases slot
    | probe | poll | setCharge | tune | release | clear => exact there

theorem launched_of_goesTo {s : State} (sound : WindowsSound s) {e : Exchange} {r : RackId} {w : RackWindow} (goes : GoesTo e r w s)
    (number : Byte) : e.launched number s =
      { exchange := e, rack := r, position := ((e.slot?).map (fun a : SlotAddr => BitVec.ofNat 8 (a.val - w.base))).getD 255,
        number := number, settle := w.settle, answer := none, doomed := false } := by
  obtain rfl := rack_of_goesTo sound goes
  have position : e.position s = ((e.slot?).map (fun a : SlotAddr => BitVec.ofNat 8 (a.val - w.base))).getD 255 := by
    unfold Exchange.position
    rw [goes.1]
    cases e.slot? <;> rfl
  rw [Exchange.launched, position, goes.1]
  rfl

theorem unqueue_head {s : State} {q : Fin 6} {e : Exchange} {rest : List Exchange} (head : s.bus.queues[q] = e :: rest)
    (cls : e.queue = q) : unqueue e s = s.setQueue q rest := by
  subst cls
  rw [unqueue, head, List.erase_cons_head]

/-- Settles O50: each command by its cause; the queue's head is the arbiter's choice, and a frame is good when it is the answer's. -/
theorem busStartsAndTakesAnswers : Obligations.BusStartsAndTakesAnswers := by
  intro s sound
  refine ⟨fun r => ⟨fun runs => ?_, fun stopped => ?_⟩, ?_, fun nothing => ?_, fun q e rest r w free head lower goes => ?_,
    fun x bytes flight => ⟨fun params fresh size same => ?_, fun ignored => ?_⟩, fun free bytes => ?_⟩
  · change execScanTimerExpiry r s = _
    unfold execScanTimerExpiry
    cases rack : s.racks[r] with
    | none => rw [rack] at runs; cases runs
    | some w =>
      rw [rack] at runs
      dsimp only
      rw [if_pos (Option.some.inj runs), scan_asked]
  · change execScanTimerExpiry r s = _
    unfold execScanTimerExpiry
    cases rack : s.racks[r] with
    | none => rfl
    | some w =>
      rw [rack] at stopped
      dsimp only
      rw [if_neg fun runs => stopped (congrArg some runs)]
  · change Host.Outcome.next (scanAll s) = _
    rw [scanAll, scans_asked, State.definedRacks]
  · change execExchangeStart s = _
    unfold execExchangeStart
    rcases nothing with busy | empty
    · obtain ⟨x, flight⟩ := Option.ne_none_iff_exists'.mp busy
      rw [flight]
    · rw [nextExchange_none empty]
      cases s.bus.inFlight <;> rfl
  · intro number position x
    have cls : e.queue = q := (sound.2.2.2 q).2 e (by rw [head]; exact List.mem_cons_self)
    refine ⟨by rw [queue_eq_classOf, cls], ?_⟩
    change execExchangeStart s = _
    unfold execExchangeStart
    rw [free, nextExchange_lowest head lower]
    dsimp only
    rw [launched_of_goesTo sound goes, unqueue_head head cls, InFlight.requestFrame, rackFrame_eq_busFrame, parameters_eq_requestParams]
    rfl
  · change execExchangeAnswer bytes s = _
    unfold execExchangeAnswer
    rw [flight]
    dsimp only
    rw [same, goodAnswer_good x size, fresh]
  · change execExchangeAnswer bytes s = _
    unfold execExchangeAnswer
    rw [flight]
    dsimp only
    rcases ignored with answered | bad
    · obtain ⟨params, answer⟩ := Option.ne_none_iff_exists'.mp answered
      rw [answer]
    · rw [goodAnswer_bad bad]
      cases x.answer <;> rfl
  · change execExchangeAnswer bytes s = _
    unfold execExchangeAnswer
    rw [free]

/-! ## The device that a slot names -/

theorem device?_eq_some {s : State} (sound : DevicesSound s) {id : DeviceId} {d : Device} :
    s.device? id = some d ↔ d ∈ s.devices ∧ d.id = id := by
  refine ⟨fun found => ⟨List.mem_of_find?_eq_some found, by simpa using List.find?_some found⟩, ?_⟩
  rintro ⟨mem, rfl⟩
  exact device?_of_mem sound mem

/-! ## SLOT_STATUS and SLOT_CLEAR_FAULT -/

theorem queuedWhere_length (p : Exchange → Bool) (s : State) : (queuedWhere p s).length = ∑ q : Fin 6, ((s.bus.queues[q]).filter p).length := by
  rw [queuedWhere, List.length_flatMap, Fin.sum_univ_def]

theorem slot_named (a : SlotAddr) : toIndex 256 (field8 (le8 a.val) 0) = some a := toIndex_head (by decide) a []

/-- The DOCKED device of a faulted slot is UNSEEN once the fault is cleared (R128). -/
def undockedFrom (x : Slot) (s : State) : List Device :=
  s.devices.map fun d => if x.deviceId = some d.id ∧ d.state = .docked then { d with state := .unseen, slot := none } else d

theorem undockedFrom_none {x : Slot} {s : State} (nobody : ∀ d ∈ s.devices, ¬(x.deviceId = some d.id ∧ d.state = .docked)) :
    undockedFrom x s = s.devices :=
  (List.map_congr_left fun d mem => if_neg (nobody d mem)).trans (List.map_id' _)

theorem undockedFrom_docked {x : Slot} {s : State} (sound : DevicesSound s) {d : Device} (mem : d ∈ s.devices) (named : x.deviceId = some d.id)
    (docked : d.state = .docked) : undockedFrom x s = (s.modDevice d.id Device.unseen).devices := by
  refine List.map_congr_left fun e here => ?_
  by_cases id : e.id = d.id
  · obtain rfl := eq_of_id_eq sound here mem id
    rw [if_pos ⟨named, docked⟩, if_pos rfl]
    rfl
  · rw [if_neg id, if_neg fun both => id (Option.some.inj (both.1.symm.trans named))]

theorem clearFault_eq {s : State} (sound : DevicesSound s) {a : SlotAddr} {x : Slot} (slot : s.slots[a] = some x) :
    clearFault a s = asked 2 [.probe a] { s with
      slots := s.slots.set a (some { x with occupancy := .probing, deviceId := none, faultCause := none, level := 0, timeouts := 0 }),
      devices := undockedFrom x s } := by
  have cleared (t : State) (here : t.slots[a] = some x) : ask (.probe a) (t.modSlot a fun x =>
      { x with occupancy := .probing, deviceId := none, faultCause := none, level := 0, timeouts := 0 }) = asked 2 [.probe a] (t.setSlot a
      (some { x with occupancy := .probing, deviceId := none, faultCause := none, level := 0, timeouts := 0 })) := by
    rw [modSlot_eq here, probe_asked (by rw [setSlot_get]; rfl)]
  unfold clearFault
  rw [slot]
  cases named : x.deviceId with
  | none =>
    rw [undockedFrom_none fun d _ both => nomatch named.symm.trans both.1]
    rw [Option.bind_some, named]
    exact cleared s slot
  | some id =>
    rw [Option.bind_some, named, Option.bind_some]
    cases found : s.device? id with
    | none =>
      rw [undockedFrom_none fun d mem both => ?_]
      · exact cleared s slot
      · have := device?_of_mem sound mem
        rw [← Option.some.inj (named.symm.trans both.1), found] at this
        cases this
    | some d =>
      obtain ⟨mem, rfl⟩ := (device?_eq_some sound).mp found
      by_cases docked : d.state = .docked
      · rw [undockedFrom_docked sound mem named docked]
        simp only [docked, if_true]
        exact cleared (s.modDevice d.id Device.unseen) slot
      · rw [undockedFrom_none fun e here both => docked ?_]
        · simp only [docked, if_false]
          exact cleared s slot
        · rw [eq_of_id_eq sound mem here (Option.some.inj (named.symm.trans both.1))]
          exact both.2

/-- The fields of SLOT_STATUS as the claims write them (R127). -/
theorem slotFields_eq (a : SlotAddr) (r : RackId) (w : RackWindow) (x : Slot) (s : State) : slotFields a r w x s =
    le8 a.val ++ le8 r.val ++ le8 (match w.rackState with | .online => 0 | .unreachable => 1) ++ le8 w.scanMisses ++
      le8 (match x.occupancy with | .empty => 0 | .probing => 1 | .occupied => 2 | .fault => 3) ++ leFlag x.deviceId.isSome ++
      le32 (x.deviceId.getD 0).toNat ++ le8 x.level ++ le8 x.timeouts ++
      le8 (match x.faultCause with | none => 0 | some .timeout => 1 | some .device => 2 | some .fleetFull => 3) ++
      leFlag x.released ++ le8 (match x.phase with | .none => 0 | .waiting => 1 | .bulk => 2 | .top => 3 | .full => 4) ++
      le8 (x.reservation.getD 0) ++
      le8 (min 255 (∑ q : Fin 6, ((s.bus.queues[q]).filter (fun e => e.slot? = some a)).length)) ++
      (match s.bus.inFlight with
        | some y => if y.exchange.slot? = some a ∧ y.doomed = false then le8 (kindCode y.exchange) else [0]
        | none => [0]) := by
  have state : w.rackState.code = match w.rackState with | .online => 0 | .unreachable => 1 := by cases w.rackState <;> rfl
  have occupancy : x.occupancy.code = match x.occupancy with | .empty => 0 | .probing => 1 | .occupied => 2 | .fault => 3 := by
    cases x.occupancy <;> rfl
  have cause : (x.faultCause.map FaultCause.code).getD 0 =
      match x.faultCause with | none => 0 | some .timeout => 1 | some .device => 2 | some .fleetFull => 3 := by
    rcases x.faultCause with - | c
    · rfl
    · cases c <;> rfl
  have phase : x.phase.code = match x.phase with | .none => 0 | .waiting => 1 | .bulk => 2 | .top => 3 | .full => 4 := by
    cases x.phase <;> rfl
  have busy : le8 (inFlightWith a s) = match s.bus.inFlight with
      | some y => if y.exchange.slot? = some a ∧ y.doomed = false then le8 (kindCode y.exchange) else [0]
      | none => [0] := by
    unfold inFlightWith
    cases s.bus.inFlight with
    | none => rfl
    | some y =>
      dsimp only
      split
      · rw [code_eq_kindCode]
      · rfl
  unfold slotFields
  rw [state, occupancy, cause, phase, busy, queuedWhere_length]

/-- Settles O54: the record as it stands behind the reply, and the cleared slot with its PROBE. -/
theorem slotRequests : Obligations.SlotRequests := by
  intro tag s a now windows devices
  refine ⟨fun absent => ⟨?_, ?_⟩, fun x slot => ⟨fun r w rack holds => ?_, fun sane => ?_, fun fault => ?_⟩⟩
  · refine exec_command_off_link .slotStatus tag _ s s (.bare .noObject) now rfl rfl fun l => ?_
    change takeSlotStatus _ _ = _
    rw [takeSlotStatus, slot_named]
    dsimp only
    rw [absent]
    cases ({ s with link := l } : State).rackOf a <;> rfl
  · refine exec_command_off_link .slotClearFault tag _ s s (.bare .noObject) now rfl rfl fun l => ?_
    change takeSlotClearFault _ _ = _
    rw [takeSlotClearFault, slot_named]
    dsimp only
    rw [absent]
    rfl
  · dsimp only
    have stands := windows.stands rack holds slot
    refine exec_command_off_link .slotStatus tag _ s s (.okWith _) now rfl rfl fun l => ?_
    change takeSlotStatus _ _ = _
    rw [takeSlotStatus, slot_named]
    dsimp only
    rw [show ({ s with link := l } : State).rackOf a = some r from stands.rackOf, slot]
    dsimp only
    rw [rack]
    dsimp only
    rw [slotFields_eq] <;> rfl
  · refine exec_command_off_link .slotClearFault tag _ s s (.bare .wrongState) now rfl rfl fun l => ?_
    change takeSlotClearFault _ _ = _
    rw [takeSlotClearFault, slot_named]
    dsimp only
    rw [slot]
    exact if_pos sane
  · refine exec_command_off_link .slotClearFault tag _ s _ (.okWith []) now rfl rfl fun l => ?_
    change takeSlotClearFault _ _ = _
    rw [takeSlotClearFault, slot_named]
    dsimp only
    rw [slot]
    dsimp only
    rw [if_neg (not_not_intro fault), clearFault_eq (s := { s with link := l }) devices slot]
    rfl

end Sys2Proof.Machine
end

section
/-! PROOF. What the charge controller's work leaves alone (chapter 8): everything but the accounts, the charge fields of the slots and the
class queues of SET_CHARGE and POLL. -/

namespace Sys2Proof.Machine

/-! ## What charging leaves of a slot and of a window -/

/-- A slot's record but for its charge fields and its reservation. -/
structure Plate where
  occupancy : Occupancy
  deviceId : Option DeviceId
  level : Nat
  timeouts : Nat
  faultCause : Option FaultCause
  released : Bool

def Slot.plate (x : Slot) : Plate := ⟨x.occupancy, x.deviceId, x.level, x.timeouts, x.faultCause, x.released⟩

/-- A window but for its account's draws and lists. -/
structure Site where
  base : Nat
  size : Nat
  settle : Nat
  rackState : RackState
  scanMisses : Nat
  scanTimer : Bool
  budget : Nat

def RackWindow.site (w : RackWindow) : Site := ⟨w.base, w.size, w.settle, w.rackState, w.scanMisses, w.scanTimer, w.budget⟩

theorem holds_of_site {v w : RackWindow} (site : v.site = w.site) (a : SlotAddr) : v.holds a = w.holds a :=
  holds_congr (congrArg Site.base site) (congrArg Site.size site) a

/-- The slots that a window's account names. -/
def RackWindow.members (w : RackWindow) : List SlotAddr := w.sessions ++ w.admission

/-- An exchange's slot lets it be asked for: its occupancy tells (R116). -/
theorem allowed_congr {s t : State} (plates : ∀ a : SlotAddr, (t.slots[a]).map Slot.plate = (s.slots[a]).map Slot.plate) (e : Exchange) :
    e.allowed t = e.allowed s := by
  have occupancy (a : SlotAddr) : (t.slots[a]).map Slot.occupancy = (s.slots[a]).map Slot.occupancy := by
    have := congrArg (Option.map Plate.occupancy) (plates a)
    rwa [Option.map_map, Option.map_map] at this
  cases e <;> simp only [Exchange.allowed, occupancy]

/-- The charge controller's work, by what it leaves alone. -/
structure Charging (s t : State) : Prop where
  rest : t.offRacks = s.offRacks
  flight : t.bus.inFlight = s.bus.inFlight
  number : t.bus.number = s.bus.number
  plate (a : SlotAddr) : (t.slots[a]).map Slot.plate = (s.slots[a]).map Slot.plate
  reservation (a : SlotAddr) : (t.slots[a]).map Slot.reservation = (s.slots[a]).map Slot.reservation
  site (r : RackId) : (t.racks[r]).map RackWindow.site = (s.racks[r]).map RackWindow.site
  members (r : RackId) (w v : RackWindow) : s.racks[r] = some w → t.racks[r] = some v →
    ∀ a ∈ v.members, a ∈ w.members ∨ w.holds a = true
  bound (q : Fin 6) : (s.bus.queues[q]).length ≤ 64 → (t.bus.queues[q]).length ≤ 64
  queued (q : Fin 6) (e : Exchange) : (t.bus.queues[q]).count e ≤ (s.bus.queues[q]).count e ∨ (e.queue = q ∧ e.allowed s = true)
  others (q : Fin 6) : q ≠ 3 → q ≠ 5 → t.bus.queues[q] = s.bus.queues[q]

namespace Charging

theorem refl (s : State) : Charging s s :=
  ⟨rfl, rfl, rfl, fun _ => rfl, fun _ => rfl, fun _ => rfl,
    fun _ w v before after a mem => .inl (by rw [before] at after; rwa [Option.some.inj after]), fun _ h => h,
    fun _ _ => .inl (le_refl _), fun _ _ _ => rfl⟩

section
variable {s t u : State}

/-- A window stays a window. -/
theorem window_back (h : Charging s t) {r : RackId} {v : RackWindow} (after : t.racks[r] = some v) :
    ∃ w, s.racks[r] = some w ∧ v.site = w.site := by
  have site := h.site r
  rw [after] at site
  cases before : s.racks[r] with
  | none => rw [before] at site; cases site
  | some w => exact ⟨w, rfl, by rw [before] at site; exact Option.some.inj site⟩

theorem trans (h : Charging s t) (g : Charging t u) : Charging s u where
  rest := g.rest.trans h.rest
  flight := g.flight.trans h.flight
  number := g.number.trans h.number
  plate a := (g.plate a).trans (h.plate a)
  reservation a := (g.reservation a).trans (h.reservation a)
  site r := (g.site r).trans (h.site r)
  members r w v before after a mem := by
    obtain ⟨m, middle, -⟩ := g.window_back after
    obtain ⟨w', before', site⟩ := h.window_back middle
    obtain rfl := Option.some.inj (before.symm.trans before')
    rcases g.members r m v middle after a mem with there | held
    · exact h.members r w m before middle a there
    · exact .inr ((holds_of_site site a).symm.trans held)
  bound q := g.bound q ∘ h.bound q
  queued q e := by
    rcases g.queued q e with few | ⟨cls, allowed⟩
    · exact (h.queued q e).imp few.trans id
    · exact .inr ⟨cls, (allowed_congr h.plate e).symm.trans allowed⟩
  others q three five := (g.others q three five).trans (h.others q three five)

/-! ## The small operations -/

theorem modSlot {a : SlotAddr} {f : Slot → Slot} (h : Charging s t) (plate : ∀ x, (f x).plate = x.plate)
    (reservation : ∀ x, (f x).reservation = x.reservation) : Charging s (t.modSlot a f) := by
  have at_slot {α : Type} (g : Slot → α) (same : ∀ x, g (f x) = g x) (b : SlotAddr) :
      ((t.modSlot a f).slots[b]).map g = (t.slots[b]).map g := by
    rw [show (t.modSlot a f).slots[b] = if b = a then (t.slots[a]).map f else t.slots[b] from get_set_cases ..]
    split
    · next here =>
      subst here
      rw [Option.map_map]
      exact congrArg (fun g => Option.map g t.slots[b]) (funext same)
    · rfl
  exact h.trans ⟨rfl, rfl, rfl, at_slot _ plate, at_slot _ reservation, fun _ => rfl, (refl t).members, fun _ h => h,
    fun _ _ => .inl (le_refl _), fun _ _ _ => rfl⟩

theorem modRack {r : RackId} {f : RackWindow → RackWindow} (h : Charging s t) (site : ∀ w, (f w).site = w.site)
    (members : ∀ w, t.racks[r] = some w → ∀ a ∈ (f w).members, a ∈ w.members ∨ w.holds a = true) : Charging s (t.modRack r f) := by
  have at_rack (q : RackId) : (t.modRack r f).racks[q] = if q = r then (t.racks[r]).map f else t.racks[q] := get_set_cases ..
  refine h.trans ⟨rfl, rfl, rfl, fun _ => rfl, fun _ => rfl, fun q => ?_, fun q w v before after => ?_, fun _ h => h,
    fun _ _ => .inl (le_refl _), fun _ _ _ => rfl⟩
  · rw [at_rack]
    split
    · next here =>
      subst here
      rw [Option.map_map]
      exact congrArg (fun g => Option.map g t.racks[q]) (funext site)
    · rfl
  · rw [at_rack] at after
    split at after
    · next here =>
      subst here
      rw [before] at after
      exact Option.some.inj after ▸ members w before
    · exact (refl t).members q w v before after

theorem request {e : Exchange} (h : Charging s t) (cls : e.queue = 3 ∨ e.queue = 5) : Charging s (Machine.request e t).2 := by
  rcases request_cases e t with ⟨-, eq⟩ | ⟨-, -, eq⟩ | ⟨-, -, -, eq⟩ | ⟨allowed, -, room, eq⟩
  · rwa [eq]
  · rwa [eq]
  · rwa [eq]
  · rw [eq]
    have at_queue (q : Fin 6) : (t.setQueue e.queue (t.bus.queues[e.queue] ++ [e])).bus.queues[q] =
        if q = e.queue then t.bus.queues[e.queue] ++ [e] else t.bus.queues[q] := get_set_cases ..
    refine h.trans ⟨rfl, rfl, rfl, fun _ => rfl, fun _ => rfl, fun _ => rfl, (refl t).members, fun q few => ?_, fun q f => ?_,
      fun q three five => ?_⟩
    · rw [at_queue]
      split
      · rw [List.length_append, List.length_singleton]
        exact room
      · exact few
    · rw [at_queue]
      split
      · next here =>
        subst here
        by_cases new : f = e
        · subst new
          exact .inr ⟨rfl, allowed⟩
        · left
          rw [List.count_append, List.count_singleton, if_neg (by simpa using Ne.symm new), Nat.add_zero]
      · exact .inl (le_refl _)
    · rw [at_queue]
      refine if_neg fun here => ?_
      rcases cls with cls | cls
      · exact three (here.trans cls)
      · exact five (here.trans cls)

theorem setQueue {q : Fin 6} {p : Exchange → Bool} (h : Charging s t) (cls : q = 3 ∨ q = 5) :
    Charging s (t.setQueue q ((t.bus.queues[q]).filter p)) := by
  have at_queue (k : Fin 6) : (t.setQueue q ((t.bus.queues[q]).filter p)).bus.queues[k] =
      if k = q then (t.bus.queues[q]).filter p else t.bus.queues[k] := get_set_cases ..
  refine h.trans ⟨rfl, rfl, rfl, fun _ => rfl, fun _ => rfl, fun _ => rfl, (refl t).members, fun k few => ?_, fun k e => ?_,
    fun k three five => ?_⟩
  · rw [at_queue]
    split
    · next here =>
      subst here
      exact (List.length_filter_le ..).trans few
    · exact few
  · rw [at_queue]
    split
    · next here =>
      subst here
      exact .inl (List.filter_sublist.count_le e)
    · exact .inl (le_refl _)
  · rw [at_queue]
    refine if_neg fun here => ?_
    rcases cls with cls | cls
    · exact three (here.trans cls)
    · exact five (here.trans cls)

/-! ## Admission and the ends of charging -/

theorem requestSetCharge {a : SlotAddr} {m : ChargeMode} (h : Charging s t) : Charging s (Machine.requestSetCharge a m t) := by
  have asked := h.request (e := .setCharge a m) (.inl rfl)
  unfold Machine.requestSetCharge
  split
  · next eq =>
    rw [eq] at asked
    exact asked.modSlot (fun _ => rfl) fun _ => rfl
  · next eq =>
    rwa [eq] at asked

end

theorem withoutWaiting_members (w : RackWindow) (a : SlotAddr) : (w.withoutWaiting a).members ⊆ w.members := by
  intro b mem
  simp only [RackWindow.members, RackWindow.withoutWaiting, RackWindow.admission, List.mem_append] at mem ⊢
  rcases mem with there | (there | there) | there
  · exact .inl there
  · exact .inr (.inl (.inl (List.mem_of_mem_erase there)))
  · exact .inr (.inl (.inr (List.mem_of_mem_erase there)))
  · exact .inr (.inr (List.mem_of_mem_erase there))

theorem withoutSession_site (w : RackWindow) (a : SlotAddr) (n : Nat) : (w.withoutSession a n).site = w.site := rfl

theorem withCommitted_site (w : RackWindow) (n : Nat) : ({ w with committed := n } : RackWindow).site = w.site := rfl

theorem withCommitted_members (w : RackWindow) (n : Nat) : ({ w with committed := n } : RackWindow).members = w.members := rfl

theorem withoutSession_members (w : RackWindow) (a : SlotAddr) (n : Nat) : (w.withoutSession a n).members ⊆ w.members := by
  intro b mem
  rcases List.mem_append.mp mem with there | there
  · exact List.mem_append_left _ (List.mem_of_mem_erase there)
  · exact List.mem_append_right _ there

section
variable {s t : State}

theorem admitHead {r : RackId} {a : SlotAddr} (h : Charging s t) (head : ∀ w, t.racks[r] = some w → a ∈ w.admission) :
    Charging s (Machine.admitHead r a t) := by
  refine .requestSetCharge (.modSlot (.modRack h (fun _ => rfl) fun w rack b mem => ?_) (fun _ => rfl) fun _ => rfl)
  rcases List.mem_append.mp mem with session | waiting
  · rcases List.mem_append.mp session with old | new
    · exact .inl (List.mem_append_left _ old)
    · rw [List.mem_singleton.mp new]
      exact .inl (List.mem_append_right _ (head w rack))
  · exact .inl (withoutWaiting_members w a (List.mem_append_right _ waiting))

end

end Charging

/-! ## Attempts at admission (R134) -/

/-- The slots waiting in a rack's queue, counted. -/
def waitingIn (r : RackId) (s : State) : Nat := ((s.racks[r]).map fun w => w.admission.length).getD 0

theorem requestSetCharge_racks (a : SlotAddr) (m : ChargeMode) (s : State) : (requestSetCharge a m s).racks = s.racks := by
  have asked : (request (.setCharge a m) s).2.racks = s.racks := by
    rcases request_cases (.setCharge a m) s with h | h | h | h <;> simp [h]
  unfold requestSetCharge
  split
  · next eq =>
    rw [eq] at asked
    exact asked
  · next eq =>
    rw [eq] at asked
    exact asked

/-- The admitted head leaves the queue. -/
theorem admission_withoutWaiting {w : RackWindow} {a : SlotAddr} (mem : a ∈ w.admission) :
    (w.withoutWaiting a).admission.length < w.admission.length := by
  have shorter (l : List SlotAddr) : (l.erase a).length ≤ l.length := List.length_erase_le ..
  have gone {l : List SlotAddr} (here : a ∈ l) : (l.erase a).length < l.length := by
    have := List.length_pos_of_mem here
    rw [List.length_erase_of_mem here]
    omega
  have h1 := shorter w.shedPart
  have h2 := shorter w.micPart
  have h3 := shorter w.receiverPart
  simp only [RackWindow.admission, RackWindow.withoutWaiting, List.length_append]
  rcases List.mem_append.mp mem with there | there
  · rcases List.mem_append.mp there with there | there
    · have := gone there
      omega
    · have := gone there
      omega
  · have := gone there
    omega

theorem waitingIn_admitHead {r : RackId} {w : RackWindow} {a : SlotAddr} {s : State} (rack : s.racks[r] = some w)
    (mem : a ∈ w.admission) : waitingIn r (admitHead r a s) < waitingIn r s := by
  have after : (admitHead r a s).racks[r] = some { w.withoutWaiting a with
      sessions := w.sessions ++ [a], committed := w.committed + headDraw a s } := by
    unfold admitHead
    rw [requestSetCharge_racks]
    refine (get_set_same _ _ _).trans ?_
    rw [rack]
    rfl
  rw [waitingIn, waitingIn, after, rack]
  exact admission_withoutWaiting mem

/-- More looks than slots wait change nothing. -/
theorem attemptLoop_enough (n : Nat) (r : RackId) {s : State} (enough : waitingIn r s ≤ n) : attemptLoop n r s = attempt r s := by
  suffices any : ∀ n m s, waitingIn r s ≤ n → waitingIn r s ≤ m → attemptLoop n r s = attemptLoop m r s from any n _ s enough (le_refl _)
  have none_waits (m : Nat) (s : State) (few : waitingIn r s = 0) : attemptLoop m r s = s := by
    cases m with
    | zero => rfl
    | succ m =>
      unfold attemptLoop
      split
      · rfl
      · next w rack =>
        split
        · rfl
        · next a l waiting =>
          rw [waitingIn, rack, Option.map_some, Option.getD_some, waiting] at few
          cases few
  intro n
  induction n with
  | zero =>
    intro m s few _
    exact (none_waits m s (Nat.le_zero.mp few)).symm
  | succ n ih =>
    intro m s few fewer
    cases m with
    | zero => exact none_waits _ s (Nat.le_zero.mp fewer)
    | succ m =>
      unfold attemptLoop
      split
      · rfl
      · next w rack =>
        split
        · rfl
        · next a l waiting =>
          split
          · have less := waitingIn_admitHead rack (a := a) (by rw [waiting]; exact List.mem_cons_self)
            exact ih m _ (by omega) (by omega)
          · rfl

theorem attempt_empty {r : RackId} {w : RackWindow} {s : State} (rack : s.racks[r] = some w) (waiting : w.admission = []) :
    attempt r s = s := by
  rw [attempt, rack, Option.map_some, Option.getD_some, waiting]
  rfl

/-- An attempt looks at the queue's head: it is admitted if its draw fits, and the attempt goes on (R134). -/
theorem attempt_head {r : RackId} {w : RackWindow} {a : SlotAddr} {rest : List SlotAddr} {s : State} (rack : s.racks[r] = some w)
    (waiting : w.admission = a :: rest) :
    attempt r s = if w.committed + headDraw a s ≤ w.budget then attempt r (admitHead r a s) else s := by
  have less := waitingIn_admitHead rack (a := a) (by rw [waiting]; exact List.mem_cons_self)
  have count : waitingIn r s = rest.length + 1 := by
    rw [waitingIn, rack, Option.map_some, Option.getD_some, waiting]
    rfl
  rw [attempt, show ((s.racks[r]).map fun w => w.admission.length).getD 0 = rest.length + 1 from count, attemptLoop, rack]
  dsimp only
  rw [waiting]
  dsimp only
  rw [attemptLoop_enough rest.length r (by omega)]

/-- What each admission keeps, an attempt keeps. -/
theorem attempt_keeps (P : State → Prop) (r : RackId) (admits : ∀ (t : State) (w : RackWindow) (a : SlotAddr) (rest : List SlotAddr), P t →
    t.racks[r] = some w → w.admission = a :: rest → w.committed + headDraw a t ≤ w.budget → P (admitHead r a t)) {s : State} (hs : P s) :
    P (attempt r s) := by
  suffices loop : ∀ n s, P s → P (attemptLoop n r s) from loop _ s hs
  intro n
  induction n with
  | zero => exact fun s hs => hs
  | succ n ih =>
    intro s hs
    unfold attemptLoop
    split
    · exact hs
    · next w rack =>
      split
      · exact hs
      · next a rest waiting =>
        split
        · next fits => exact ih _ (admits s w a rest hs rack waiting fits)
        · exact hs

namespace Charging

section
variable {s t : State}

theorem attempt {r : RackId} (h : Charging s t) : Charging s (Machine.attempt r t) :=
  attempt_keeps (Charging s) r (fun _ w a rest before rack waiting _ => before.admitHead fun v there => by
    rw [← Option.some.inj (rack.symm.trans there), waiting]
    exact List.mem_cons_self) h

theorem attemptFor {a : SlotAddr} (h : Charging s t) : Charging s (Machine.attemptFor a t) := by
  unfold Machine.attemptFor
  split
  · exact h.attempt
  · exact h

/-- The window that holds the slot is changed. -/
theorem modRackOf {a : SlotAddr} {f : RackWindow → RackWindow} (h : Charging s t) (site : ∀ w, (f w).site = w.site)
    (members : ∀ w, w.holds a = true → ∀ b ∈ (f w).members, b ∈ w.members ∨ w.holds b = true) : Charging s (Machine.modRackOf a f t) := by
  unfold Machine.modRackOf
  split
  · next r found =>
    refine h.modRack site fun w rack => members w ?_
    have held := List.find?_some found
    rwa [rack] at held
  · exact h

theorem startWaiting {a : SlotAddr} (h : Charging s t) : Charging s (Machine.startWaiting a t) := by
  refine .attemptFor (.modRackOf (.modSlot h (fun _ => rfl) fun _ => rfl) (fun w => ?_) fun w held b mem => ?_)
  · split <;> rfl
  · have joined : b ∈ w.members ∨ b = a := by
      split at mem <;> simp only [RackWindow.members, RackWindow.admission, List.mem_append, List.mem_singleton] at mem ⊢ <;> tauto
    rcases joined with old | rfl
    · exact .inl old
    · exact .inr held

theorem enterCharging {a : SlotAddr} (h : Charging s t) : Charging s (Machine.enterCharging a t) := by
  unfold Machine.enterCharging
  extract_lets begun
  have timed : Charging s begun := h.modSlot (fun _ => rfl) fun _ => rfl
  split
  · exact timed.startWaiting
  · exact timed.modSlot (fun _ => rfl) fun _ => rfl

theorem leaveCharging {a : SlotAddr} (h : Charging s t) : Charging s (Machine.leaveCharging a t) := by
  unfold Machine.leaveCharging
  refine .modSlot ?_ (fun _ => rfl) fun _ => rfl
  cases ((t.slots[a]).map Slot.phase).getD .none with
  | none | full => exact h
  | waiting => exact h.modRackOf (fun _ => rfl) fun w _ b mem => .inl (withoutWaiting_members w a mem)
  | bulk | top => exact h.modRackOf (fun w => withoutSession_site w a _) fun w _ b mem => .inl (withoutSession_members w a _ mem)

theorem endCharging {a : SlotAddr} (h : Charging s t) : Charging s (Machine.endCharging a t) := by
  unfold Machine.endCharging
  dsimp only
  split
  · exact h
  · split
    · exact h.leaveCharging.attemptFor
    · exact h.leaveCharging
  · exact h.leaveCharging
  · exact h.leaveCharging.attemptFor

theorem dropChargeExchanges {a : SlotAddr} (h : Charging s t) : Charging s (Machine.dropChargeExchanges a t) := by
  have class5 : (t.setQueue 3 ((t.bus.queues[(3 : Fin 6)]).filter fun e => decide (e.slot? ≠ some a))).bus.queues[(5 : Fin 6)] =
      t.bus.queues[(5 : Fin 6)] := get_set_other _ _ _ _ (by decide)
  have dropped := (h.setQueue (q := 3) (p := fun e => decide (e.slot? ≠ some a)) (.inl rfl)).setQueue (q := 5)
    (p := fun e => decide (e.slot? ≠ some a)) (.inr rfl)
  rw [class5] at dropped
  exact dropped

theorem endByReservation {a : SlotAddr} (h : Charging s t) : Charging s (Machine.endByReservation a t) :=
  h.leaveCharging.dropChargeExchanges.attemptFor

theorem handBack {a : SlotAddr} (h : Charging s t) : Charging s (Machine.handBack a t) := h.requestSetCharge.enterCharging

theorem passToTop {a : SlotAddr} (h : Charging s t) : Charging s (Machine.passToTop a t) :=
  .attemptFor (.requestSetCharge (.modSlot (.modRackOf (f := fun w => { w with committed := w.committed - (bulkDraw - topDraw) }) h
    (fun w => withCommitted_site w _) fun w _ _ mem => .inl ((withCommitted_members w _).subst mem)) (fun _ => rfl) fun _ => rfl))

theorem passToFull {a : SlotAddr} (h : Charging s t) : Charging s (Machine.passToFull a t) :=
  .attemptFor (.requestSetCharge (.modSlot (.modRackOf h (fun w => withoutSession_site w a _) fun w _ _ mem =>
    .inl (withoutSession_members w a _ mem)) (fun _ => rfl) fun _ => rfl))

theorem judgePoll {a : SlotAddr} (h : Charging s t) : Charging s (Machine.judgePoll a t) := by
  have full : Charging s ((Machine.modRackOf a (fun w => w.withoutWaiting a) t).modSlot a fun y => { y with phase := .full }) :=
    .modSlot (h.modRackOf (fun _ => rfl) fun w _ b mem => .inl (withoutWaiting_members w a mem)) (fun _ => rfl) fun _ => rfl
  have counted (n : Nat) : Charging s (t.modSlot a fun y => { y with topCounter := n }) := h.modSlot (fun _ => rfl) fun _ => rfl
  unfold Machine.judgePoll
  cases t.slots[a] with
  | none => exact h
  | some x =>
    dsimp only
    cases x.phase with
    | none => exact h
    | waiting =>
      dsimp only
      split
      · split
        · exact full.attemptFor
        · exact full
      · split
        · exact h.attemptFor
        · exact h
    | bulk =>
      dsimp only
      split
      · exact h.passToTop
      · exact h
    | top =>
      dsimp only
      split
      · exact (counted _).passToFull
      · exact counted _
    | full =>
      dsimp only
      split
      · exact h.startWaiting
      · exact h

theorem shedOne {r : RackId} {a : SlotAddr} (h : Charging s t) : Charging s (Machine.shedOne r a t) :=
  .requestSetCharge (.modSlot (.modRack h (fun w => withoutSession_site w a _) fun w _ _ mem => .inl (withoutSession_members w a _ mem))
    (fun _ => rfl) fun _ => rfl)

theorem shedLoop {n : Nat} {r : RackId} (h : Charging s t) : Charging s (Machine.shedLoop n r t).2 := by
  induction n generalizing t with
  | zero => exact h
  | succ n ih =>
    unfold Machine.shedLoop
    (repeat' split)
    · exact h
    · exact h
    · exact h
    · exact ih h.shedOne

end

end Charging

end Sys2Proof.Machine
end

section
/-! PROOF. What the work of the fleet manager leaves alone, weaker than charging: the failure of a candidate, what its operation does next, and
the outcomes delivered to exchanges (R120, R157, R162). -/

namespace Sys2Proof.Machine

/-! ## What every part of the rack bus keeps of the records -/

/-- A window's place on the bus, its settle time and its budget. -/
def RackWindow.place (w : RackWindow) : Nat × Nat × Nat × Nat := (w.base, w.size, w.settle, w.budget)

theorem holds_of_place {v w : RackWindow} (place : v.place = w.place) (a : SlotAddr) : v.holds a = w.holds a :=
  holds_congr (congrArg Prod.fst place) (congrArg (fun p => p.2.1) place) a

/-- The records keep their shape: what R114, R116, R145 and R152 say of them goes from s over to t. -/
structure Records (s t : State) : Prop where
  slot (a : SlotAddr) : (t.slots[a]).isSome = (s.slots[a]).isSome
  place (r : RackId) : (t.racks[r]).map RackWindow.place = (s.racks[r]).map RackWindow.place
  members (r : RackId) (w v : RackWindow) : s.racks[r] = some w → t.racks[r] = some v →
    ∀ a ∈ v.members, a ∈ w.members ∨ w.holds a = true
  bound (q : Fin 6) : (s.bus.queues[q]).length ≤ 64 → (t.bus.queues[q]).length ≤ 64
  queued (q : Fin 6) (e : Exchange) : e ∈ t.bus.queues[q] → e ∈ s.bus.queues[q] ∨ e.queue = q
  devices : DevicesSound s → DevicesSound t
  issues : IssuesSound s → IssuesSound t

theorem IssuesSound.congr {s t : State} (sound : IssuesSound s) (ops : t.ops.map IssueOperation.group = s.ops.map IssueOperation.group)
    (groups : ∀ g : GroupId, (t.groups[g]).state = (s.groups[g]).state ∧ (t.groups[g]).issueHandle = (s.groups[g]).issueHandle) :
    IssuesSound t := by
  obtain ⟨few, nodup, each⟩ := sound
  have named (g : GroupId) : (∃ o ∈ t.ops, o.group = g) ↔ ∃ o ∈ s.ops, o.group = g := by
    rw [← List.mem_map, ops, List.mem_map]
  refine ⟨?_, ops ▸ nodup, fun g => ⟨fun there => ?_, fun absent => ?_⟩⟩
  · rwa [← List.length_map (f := IssueOperation.group), ops, List.length_map]
  · rw [(groups g).1, (groups g).2]
    exact (each g).1 ((named g).mp there)
  · rw [(groups g).2]
    refine (each g).2 fun o mem same => ?_
    obtain ⟨p, there, named⟩ := (named g).mpr ⟨o, mem, same⟩
    exact absent p there named

/-- Devices under their ids. -/
theorem DevicesSound.congr {s t : State} (sound : DevicesSound s) (ids : t.devices.map Device.id = s.devices.map Device.id) :
    DevicesSound t := by
  obtain ⟨few, nodup, zero⟩ := sound
  refine ⟨?_, ids ▸ nodup, fun d mem => ?_⟩
  · rwa [← List.length_map (f := Device.id), ids, List.length_map]
  · obtain ⟨e, there, same⟩ := List.mem_map.mp (ids ▸ List.mem_map_of_mem (f := Device.id) mem)
    exact same ▸ zero e there

namespace Records

section
variable {s t u : State}

theorem window_back (h : Records s t) {r : RackId} {v : RackWindow} (after : t.racks[r] = some v) :
    ∃ w, s.racks[r] = some w ∧ v.place = w.place := by
  have place := h.place r
  rw [after] at place
  cases before : s.racks[r] with
  | none => rw [before] at place; cases place
  | some w => exact ⟨w, rfl, by rw [before] at place; exact Option.some.inj place⟩

theorem refl (s : State) : Records s s :=
  ⟨fun _ => rfl, fun _ => rfl, fun _ w v before after a mem => .inl (by rw [before] at after; rwa [Option.some.inj after]), fun _ h => h,
    fun _ _ h => .inl h, id, id⟩

theorem trans (h : Records s t) (g : Records t u) : Records s u where
  slot a := (g.slot a).trans (h.slot a)
  place r := (g.place r).trans (h.place r)
  members r w v before after a mem := by
    obtain ⟨m, middle, -⟩ := g.window_back after
    obtain ⟨w', before', place⟩ := h.window_back middle
    obtain rfl := Option.some.inj (before.symm.trans before')
    rcases g.members r m v middle after a mem with there | held
    · exact h.members r w m before middle a there
    · exact .inr ((holds_of_place place a).symm.trans held)
  bound q := g.bound q ∘ h.bound q
  queued q e mem := (g.queued q e mem).elim (h.queued q e) .inr
  devices := g.devices ∘ h.devices
  issues := g.issues ∘ h.issues

theorem windows (h : Records s t) (sound : WindowsSound s) : WindowsSound t := by
  obtain ⟨legal, apart, slots, queues⟩ := sound
  refine ⟨fun r v after => ?_, fun r q v here u there a inV inU => ?_, fun a => ?_, fun q => ⟨h.bound q (queues q).1, fun e mem => ?_⟩⟩
  · obtain ⟨w, before, place⟩ := h.window_back after
    obtain ⟨size, base, room, settle, budget, lists⟩ := legal r w before
    simp only [RackWindow.place, Prod.mk.injEq] at place
    obtain ⟨sameBase, sameSize, sameSettle, sameBudget⟩ := place
    rw [sameBase, sameSize, sameSettle, sameBudget]
    refine ⟨size, base, room, settle, budget, fun a mem => ?_⟩
    rw [holds_congr sameBase sameSize]
    exact (h.members r w v before after a mem).elim (lists a) id
  · obtain ⟨w, before, place⟩ := h.window_back here
    obtain ⟨x, before', place'⟩ := h.window_back there
    exact apart r q w before x before' a ((holds_of_place place a).symm.trans inV) ((holds_of_place place' a).symm.trans inU)
  · rw [← Option.isSome_iff_ne_none, h.slot, Option.isSome_iff_ne_none, slots a]
    refine exists_congr fun r => ⟨fun ⟨w, before, held⟩ => ?_, fun ⟨v, after, held⟩ => ?_⟩
    · have place := h.place r
      rw [Option.mem_def.mp before] at place
      obtain ⟨v, after, same⟩ := Option.map_eq_some_iff.mp place
      exact ⟨v, after, (holds_of_place same a).trans held⟩
    · obtain ⟨w, before, place⟩ := h.window_back after
      exact ⟨w, before, (holds_of_place place a).symm.trans held⟩
  · exact (h.queued q e mem).elim ((queues q).2 e) id

/-! ### The writes of single records -/

/-- Only the devices, the events, and what the laws do not bound changes. -/
theorem of_eq (h : Records s t) (slots : u.slots = t.slots) (racks : u.racks = t.racks) (queues : u.bus.queues = t.bus.queues)
    (devices : u.devices.map Device.id = t.devices.map Device.id) (ops : u.ops.map IssueOperation.group = t.ops.map IssueOperation.group)
    (groups : ∀ g : GroupId, (u.groups[g]).state = (t.groups[g]).state ∧ (u.groups[g]).issueHandle = (t.groups[g]).issueHandle) :
    Records s u := by
  refine h.trans ⟨fun a => by rw [slots], fun r => by rw [racks], fun r w v before after a mem => .inl ?_, fun q few => by rwa [queues],
    fun q e mem => .inl (by rwa [queues] at mem), (·.congr devices), (·.congr ops groups)⟩
  rw [racks, before] at after
  rwa [Option.some.inj after]

theorem slotWritten (h : Records s t) {a : SlotAddr} {y : Option Slot} (there : y.isSome = (t.slots[a]).isSome) :
    Records s (t.setSlot a y) := by
  refine h.trans ⟨fun b => ?_, fun _ => rfl, (refl t).members, fun _ h => h, fun _ _ h => .inl h, id, id⟩
  rw [show (t.setSlot a y).slots[b] = if b = a then y else t.slots[b] from get_set_cases ..]
  split
  · next here => rw [here, there]
  · rfl

theorem modSlot (h : Records s t) {a : SlotAddr} {f : Slot → Slot} : Records s (t.modSlot a f) :=
  h.slotWritten Option.isSome_map

theorem modDevice (h : Records s t) {id : DeviceId} {f : Device → Device} (named : ∀ d, (f d).id = d.id) : Records s (t.modDevice id f) := by
  refine h.of_eq rfl rfl rfl ?_ rfl fun _ => ⟨rfl, rfl⟩
  change (t.devices.map _).map _ = _
  rw [List.map_map]
  refine List.map_congr_left fun d _ => ?_
  change (if d.id = id then f d else d).id = d.id
  split
  · exact named d
  · rfl

theorem modOp (h : Records s t) {g : GroupId} {f : IssueOperation → IssueOperation} (group : ∀ o, (f o).group = o.group) :
    Records s (t.modOp g f) := by
  refine h.of_eq rfl rfl rfl rfl ?_ fun _ => ⟨rfl, rfl⟩
  change (t.ops.map _).map _ = _
  rw [List.map_map]
  refine List.map_congr_left fun o _ => ?_
  change (if o.group = g then f o else o).group = o.group
  split
  · exact group o
  · rfl

theorem setGroup (h : Records s t) {g : GroupId} {x : Group} (state : x.state = (t.groups[g]).state)
    (handle : x.issueHandle = (t.groups[g]).issueHandle) : Records s (t.setGroup g x) := by
  refine h.of_eq rfl rfl rfl rfl rfl fun k => ?_
  rw [show (t.setGroup g x).groups[k] = if k = g then x else t.groups[k] from get_set_cases ..]
  split
  · next here =>
    subst here
    exact ⟨state, handle⟩
  · exact ⟨rfl, rfl⟩

theorem raise (h : Records s t) {k : EventKind} {o d : Nat} : Records s (Machine.raise k o d t) := by
  rw [Machine.raise, raiseKind_eq]
  exact h.of_eq rfl rfl rfl rfl rfl fun _ => ⟨rfl, rfl⟩

theorem modRack (h : Records s t) {r : RackId} {f : RackWindow → RackWindow} (place : ∀ w, (f w).place = w.place)
    (members : ∀ w, (f w).members = w.members) : Records s (t.modRack r f) := by
  have at_rack (q : RackId) : (t.modRack r f).racks[q] = if q = r then (t.racks[r]).map f else t.racks[q] := get_set_cases ..
  refine h.trans ⟨fun _ => rfl, fun q => ?_, fun q w v before after a mem => .inl ?_, fun _ h => h, fun _ _ h => .inl h, id, id⟩
  · rw [at_rack]
    split
    · next here =>
      subst here
      rw [Option.map_map]
      exact congrArg (fun g => Option.map g t.racks[q]) (funext place)
    · rfl
  · rw [at_rack] at after
    split at after
    · next here =>
      subst here
      rw [before] at after
      rw [← Option.some.inj after, members] at mem
      exact mem
    · rw [before] at after
      rwa [Option.some.inj after]

theorem request {e : Exchange} (h : Records s t) : Records s (Machine.request e t).2 := by
  rcases request_cases e t with ⟨-, eq⟩ | ⟨-, -, eq⟩ | ⟨-, -, -, eq⟩ | ⟨-, -, room, eq⟩
  · rwa [eq]
  · rwa [eq]
  · rwa [eq]
  · rw [eq]
    have at_queue (q : Fin 6) : (t.setQueue e.queue (t.bus.queues[e.queue] ++ [e])).bus.queues[q] =
        if q = e.queue then t.bus.queues[e.queue] ++ [e] else t.bus.queues[q] := get_set_cases ..
    refine h.trans ⟨fun _ => rfl, fun _ => rfl, (refl t).members, fun q few => ?_, fun q f mem => ?_, id, id⟩
    · rw [at_queue]
      split
      · rw [List.length_append, List.length_singleton]
        exact room
      · exact few
    · rw [at_queue] at mem
      split at mem
      · next here =>
        subst here
        exact (List.mem_append.mp mem).imp id fun new => congrArg Exchange.queue (List.mem_singleton.mp new)
      · exact .inl mem

theorem ask {e : Exchange} (h : Records s t) : Records s (Machine.ask e t) := h.request

/-- A queue loses entries. -/
theorem setQueue (h : Records s t) {q : Fin 6} {l : List Exchange} (sub : l.Sublist t.bus.queues[q]) : Records s (t.setQueue q l) := by
  have at_queue (k : Fin 6) : (t.setQueue q l).bus.queues[k] = if k = q then l else t.bus.queues[k] := get_set_cases ..
  refine h.trans ⟨fun _ => rfl, fun _ => rfl, (refl t).members, fun k few => ?_, fun k e mem => ?_, id, id⟩
  · rw [at_queue]
    split
    · next here =>
      subst here
      exact sub.length_le.trans few
    · exact few
  · rw [at_queue] at mem
    split at mem
    · next here =>
      subst here
      exact .inl (sub.subset mem)
    · exact .inl mem

theorem unqueue (h : Records s t) {e : Exchange} : Records s (Machine.unqueue e t) := h.setQueue List.erase_sublist

theorem forEach {α : Type} {f : α → State → State} (each : ∀ (x : α) (t : State), Records s t → Records s (f x t)) (l : List α)
    (h : Records s t) : Records s (Machine.forEach l f t) := by
  induction l generalizing t with
  | nil => exact h
  | cons x l ih => rw [forEach_cons]; exact ih (each x t h)

end

end Records

/-! ## An operation completes (R158) -/

/-- A raise writes its kind's record and the link's outbound queue. -/
theorem reported_eq (k : EventId) (o : Nat) (d : BitVec 32) (s : State) : reported k o d s = { s with
    events := s.events.set k ((s.events[k]).raised (raiseRecord o d false s)),
    link := { s.link with outbound := s.link.outbound ++ raiseNotice k (raiseRecord o d false s) s } } :=
  (raiseKind_eq_reported k o d s).symm.trans (raiseKind_eq k o d false s)

theorem raise_eq_reported (k : EventKind) (o d : Nat) (s : State) : raise k o d s = reported k.num o (BitVec.ofNat 32 d) s :=
  raiseKind_eq_reported ..

theorem op?_group {s : State} {g : GroupId} {o : IssueOperation} (found : s.op? g = some o) : o.group = g :=
  of_decide_eq_true (List.find?_some (p := fun o : IssueOperation => decide (o.group = g)) found)

theorem completeOp_eq {s : State} {g : GroupId} {o : IssueOperation} (found : s.op? g = some o) : completeOp g s = completed o s := by
  obtain rfl := op?_group found
  unfold completeOp completed
  rw [found]
  by_cases unissued : o.issued = 0
  · rcases kind : o.kind with - | - <;> rcases roster : o.roster with - | k <;>
      simp only [kind, roster, if_pos unissued, raise_eq_reported, reported_eq, reduceCtorEq, false_and, true_and, if_false] <;> rfl
  · rcases kind : o.kind with - | - <;> rcases roster : o.roster with - | k <;>
      simp only [kind, roster, if_neg unissued, raise_eq_reported, reported_eq, reduceCtorEq, false_and, true_and, if_false] <;> rfl

/-! ## The fleet manager's small work -/

/-- A device record but for its clear_state. -/
def Device.core (d : Device) : Device := { d with clearState := .none }

/-- What the small work of the fleet manager leaves alone: of a slot all but its charge fields and its reservation, of a window all but its
account, of a device all but its clear_state, of a group its state, channel and out_count, and the events but ISSUE_DONE. -/
structure Minor (s t : State) : Prop extends Records s t where
  flight : t.bus.inFlight = s.bus.inFlight
  number : t.bus.number = s.bus.number
  plate (a : SlotAddr) : (t.slots[a]).map Slot.plate = (s.slots[a]).map Slot.plate
  site (r : RackId) : (t.racks[r]).map RackWindow.site = (s.racks[r]).map RackWindow.site
  fresh (q : Fin 6) (e : Exchange) : (t.bus.queues[q]).count e ≤ (s.bus.queues[q]).count e ∨ (e.slot? ≠ none ∧ e.allowed s = true)
  cores : t.devices.map Device.core = s.devices.map Device.core
  group (g : GroupId) : (t.groups[g]).state = (s.groups[g]).state ∧ (t.groups[g]).channel = (s.groups[g]).channel ∧
    (t.groups[g]).outCount = (s.groups[g]).outCount
  events (k : EventId) : k ≠ 22 → t.events[k] = s.events[k]

namespace Charging

section
variable {s t : State}

theorem devices_eq (h : Charging s t) : t.devices = s.devices := (congrArg State.devices h.rest :)

theorem ops_eq (h : Charging s t) : t.ops = s.ops := (congrArg State.ops h.rest :)

theorem groups_eq (h : Charging s t) : t.groups = s.groups := (congrArg State.groups h.rest :)

theorem events_eq (h : Charging s t) : t.events = s.events := (congrArg State.events h.rest :)

theorem records (h : Charging s t) : Records s t where
  slot a := by
    have plate := congrArg Option.isSome (h.plate a)
    rwa [Option.isSome_map, Option.isSome_map] at plate
  place r := by
    have site := congrArg (Option.map fun x : Site => (x.base, x.size, x.settle, x.budget)) (h.site r)
    rw [Option.map_map, Option.map_map] at site
    exact site
  members := h.members
  bound := h.bound
  queued q e mem := (h.queued q e).imp (fun few => List.count_pos_iff.mp ((List.count_pos_iff.mpr mem).trans_le few)) And.left
  devices sound := by
    exact sound.congr (by rw [h.devices_eq])
  issues sound := by
    exact sound.congr (by rw [h.ops_eq]) fun g => by rw [h.groups_eq]; exact ⟨rfl, rfl⟩

/-- Charging asks for exchanges with slots only. -/
theorem slot_of_queue {e : Exchange} (cls : e.queue = 3 ∨ e.queue = 5) : e.slot? ≠ none := by
  cases e with
  | scan r => rcases cls with cls | cls <;> cases cls
  | probe | poll | setCharge | tune | release | clear => exact Option.some_ne_none _

theorem minor (h : Charging s t) : Minor s t where
  toRecords := h.records
  flight := h.flight
  number := h.number
  plate := h.plate
  site := h.site
  fresh q e := by
    rcases h.queued q e with old | ⟨cls, allowed⟩
    · exact .inl old
    · by_cases three : q = 3
      · exact .inr ⟨slot_of_queue (.inl (cls.trans three)), allowed⟩
      · by_cases five : q = 5
        · exact .inr ⟨slot_of_queue (.inr (cls.trans five)), allowed⟩
        · exact .inl (by rw [h.others q three five])
  cores := by rw [h.devices_eq]
  group g := by
    rw [h.groups_eq]
    exact ⟨rfl, rfl, rfl⟩
  events k _ := by rw [h.events_eq]

end

end Charging

namespace Minor

section
variable {s t u : State}

theorem refl (s : State) : Minor s s := (Charging.refl s).minor

theorem trans (h : Minor s t) (g : Minor t u) : Minor s u where
  toRecords := h.toRecords.trans g.toRecords
  flight := g.flight.trans h.flight
  number := g.number.trans h.number
  plate a := (g.plate a).trans (h.plate a)
  site r := (g.site r).trans (h.site r)
  fresh q e := by
    rcases g.fresh q e with few | ⟨slot, allowed⟩
    · exact (h.fresh q e).imp few.trans id
    · exact .inr ⟨slot, (allowed_congr h.plate e).symm.trans allowed⟩
  cores := g.cores.trans h.cores
  group k := ⟨(g.group k).1.trans (h.group k).1, (g.group k).2.1.trans (h.group k).2.1, (g.group k).2.2.trans (h.group k).2.2⟩
  events k other := (g.events k other).trans (h.events k other)

theorem charging (h : Minor s t) (g : Charging t u) : Minor s u := h.trans g.minor

/-! ### The small operations -/

theorem modSlot {a : SlotAddr} {f : Slot → Slot} (h : Minor s t) (plate : ∀ x, (f x).plate = x.plate) : Minor s (t.modSlot a f) := by
  refine h.trans { toRecords := (Records.refl t).modSlot, flight := rfl, number := rfl, plate := fun b => ?_, site := fun _ => rfl,
                   fresh := fun _ _ => .inl (le_refl _), cores := rfl, group := fun _ => ⟨rfl, rfl, rfl⟩, events := fun _ _ => rfl }
  rw [show (t.modSlot a f).slots[b] = if b = a then (t.slots[a]).map f else t.slots[b] from get_set_cases ..]
  split
  · next here =>
    subst here
    rw [Option.map_map]
    exact congrArg (fun g => Option.map g t.slots[b]) (funext plate)
  · rfl

theorem modOp {g : GroupId} {f : IssueOperation → IssueOperation} (h : Minor s t) (group : ∀ o, (f o).group = o.group) :
    Minor s (t.modOp g f) :=
  h.trans { toRecords := (Records.refl t).modOp group, flight := rfl, number := rfl, plate := fun _ => rfl, site := fun _ => rfl,
            fresh := fun _ _ => .inl (le_refl _), cores := rfl, group := fun _ => ⟨rfl, rfl, rfl⟩, events := fun _ _ => rfl }

/-- A device's clear_state is written. -/
theorem modDevice {id : DeviceId} {f : Device → Device} (h : Minor s t) (core : ∀ d, (f d).core = d.core) : Minor s (t.modDevice id f) := by
  have cores : (t.modDevice id f).devices.map Device.core = t.devices.map Device.core := by
    change (t.devices.map _).map _ = _
    rw [List.map_map]
    refine List.map_congr_left fun d _ => ?_
    change (if d.id = id then f d else d).core = d.core
    split
    · exact core d
    · rfl
  exact h.trans { toRecords := (Records.refl t).modDevice fun d => (congrArg Device.id (core d) :), flight := rfl, number := rfl,
                  plate := fun _ => rfl, site := fun _ => rfl, fresh := fun _ _ => .inl (le_refl _), cores := cores,
                  group := fun _ => ⟨rfl, rfl, rfl⟩, events := fun _ _ => rfl }

theorem setClear {id : DeviceId} {c : ClearState} (h : Minor s t) : Minor s (Machine.setClear id c t) := h.modDevice fun _ => rfl

theorem request {e : Exchange} (h : Minor s t) (slot : e.slot? ≠ none) : Minor s (Machine.request e t).2 := by
  have records : Records t (Machine.request e t).2 := (Records.refl t).request
  rcases request_cases e t with ⟨-, eq⟩ | ⟨-, -, eq⟩ | ⟨-, -, -, eq⟩ | ⟨allowed, -, -, eq⟩
  · rwa [eq]
  · rwa [eq]
  · rwa [eq]
  · rw [eq] at records ⊢
    refine h.trans { toRecords := records, flight := rfl, number := rfl, plate := fun _ => rfl, site := fun _ => rfl, fresh := fun q f => ?_,
                     cores := rfl, group := fun _ => ⟨rfl, rfl, rfl⟩, events := fun _ _ => rfl }
    rw [show (t.setQueue e.queue (t.bus.queues[e.queue] ++ [e])).bus.queues[q] =
      if q = e.queue then t.bus.queues[e.queue] ++ [e] else t.bus.queues[q] from get_set_cases ..]
    split
    · next here =>
      subst here
      by_cases new : f = e
      · subst new
        exact .inr ⟨slot, allowed⟩
      · left
        rw [List.count_append, List.count_singleton, if_neg (by simpa using Ne.symm new), Nat.add_zero]
    · exact .inl (le_refl _)

theorem ask {e : Exchange} (h : Minor s t) (slot : e.slot? ≠ none) : Minor s (Machine.ask e t) := h.request slot

theorem unqueue {e : Exchange} (h : Minor s t) : Minor s (Machine.unqueue e t) := by
  refine h.trans { toRecords := (Records.refl t).unqueue, flight := rfl, number := rfl, plate := fun _ => rfl, site := fun _ => rfl,
                   fresh := fun q f => ?_, cores := rfl, group := fun _ => ⟨rfl, rfl, rfl⟩, events := fun _ _ => rfl }
  rw [show (Machine.unqueue e t).bus.queues[q] = if q = e.queue then (t.bus.queues[e.queue]).erase e else t.bus.queues[q] from
    get_set_cases ..]
  split
  · next here =>
    subst here
    exact .inl (List.erase_sublist.count_le f)
  · exact .inl (le_refl _)

theorem forEach {α : Type} {f : α → State → State} (each : ∀ (x : α) (t : State), Minor s t → Minor s (f x t)) (l : List α) (h : Minor s t) :
    Minor s (Machine.forEach l f t) := by
  induction l generalizing t with
  | nil => exact h
  | cons x l ih => rw [forEach_cons]; exact ih (each x t h)

/-! ### Operations go on -/

theorem completeOp {g : GroupId} (h : Minor s t) : Minor s (Machine.completeOp g t) := by
  cases found : t.op? g with
  | none => rwa [Machine.completeOp, found]
  | some o =>
    rw [completeOp_eq found, completed, reported_eq]
    have at_group (x : Group) (k : GroupId) : (t.groups.set o.group x)[k] = if k = o.group then x else t.groups[k] := get_set_cases ..
    refine h.trans { toRecords := ⟨fun _ => rfl, fun _ => rfl, (Records.refl t).members, fun _ few => few, fun _ _ => .inl, id, fun sound => ?_⟩,
                     flight := rfl, number := rfl, plate := fun _ => rfl, site := fun _ => rfl, fresh := fun _ _ => .inl (le_refl _), cores := rfl,
                     group := fun k => ?_, events := fun k other => get_set_other _ _ _ _ other }
    · obtain ⟨few, nodup, each⟩ := sound
      refine ⟨(List.length_filter_le ..).trans few, nodup.sublist (List.filter_sublist.map _), fun k => ?_⟩
      dsimp only
      rw [at_group]
      by_cases here : k = o.group
      · rw [if_pos here]
        refine ⟨fun ⟨p, mem, same⟩ => ?_, fun _ => rfl⟩
        exact absurd (same.trans here) (of_decide_eq_true (List.mem_filter.mp mem).2)
      · rw [if_neg here]
        refine ⟨fun ⟨p, mem, same⟩ => (each k).1 ⟨p, (List.mem_filter.mp mem).1, same⟩, fun absent => (each k).2 fun p mem same => ?_⟩
        exact absent p (List.mem_filter.mpr ⟨mem, decide_eq_true (same ▸ here)⟩) same
    · dsimp only
      rw [at_group]
      split
      · next here =>
        subst here
        exact ⟨rfl, rfl, rfl⟩
      · exact ⟨rfl, rfl, rfl⟩

theorem reserveSlot {g : GroupId} {o : IssueOperation} {a : SlotAddr} (h : Minor s t) : Minor s (Machine.reserveSlot g o a t) := by
  have reserved : Minor s (t.modSlot a fun x => { x with reservation := some (handleOf g) }) := h.modSlot fun _ => rfl
  have ended : Minor s (Machine.endByReservation a (t.modSlot a fun x => { x with reservation := some (handleOf g) })) :=
    reserved.charging (Charging.refl _).endByReservation
  exact .ask (.modOp ended fun _ => rfl) (Option.some_ne_none _)

theorem chooseNext {g : GroupId} (h : Minor s t) : Minor s (Machine.chooseNext g t) := by
  unfold Machine.chooseNext
  split
  · exact h
  · split
    · exact h.reserveSlot
    · exact h.completeOp

theorem nextOrComplete {g : GroupId} (h : Minor s t) : Minor s (Machine.nextOrComplete g t) := by
  unfold Machine.nextOrComplete
  split
  · exact h
  · split
    · exact h.completeOp
    · exact h.chooseNext

theorem failCandidate {g : GroupId} {a : SlotAddr} {b : Bool} (h : Minor s t) : Minor s (Machine.failCandidate g a b t) := by
  unfold Machine.failCandidate
  extract_lets s1 occupied
  have failed : Minor s s1 := .modOp (.modSlot h fun _ => rfl) fun _ => rfl
  refine .nextOrComplete ?_
  split
  · exact failed.charging (Charging.refl _).handBack
  · exact failed

theorem failAt {a : SlotAddr} {l : List Stage} {b : Bool} (h : Minor s t) : Minor s (Machine.failAt a l b t) := by
  unfold Machine.failAt
  split
  · exact h.failCandidate
  · exact h

theorem emptiedReservation {a : SlotAddr} (h : Minor s t) : Minor s (Machine.emptiedReservation a t) := by
  unfold Machine.emptiedReservation
  split
  · exact h.failAt
  · exact h

theorem tuneAnswered {a : SlotAddr} (h : Minor s t) : Minor s (Machine.tuneAnswered a t) := by
  unfold Machine.tuneAnswered
  split
  · exact h
  · extract_lets s1
    have settled : Minor s s1 := by
      unfold s1
      split
      · exact h.modDevice fun _ => rfl
      · exact h
    have asked : Minor s (Machine.request (.release a) s1).2 := settled.request (Option.some_ne_none _)
    split
    · next eq =>
      rw [eq] at asked
      exact asked.failCandidate
    · next eq =>
      rw [eq] at asked
      exact asked.modOp fun _ => rfl

/-! ### Outcomes -/

theorem deliverDiscarded {b : Bool} {e : Exchange} (h : Minor s t) : Minor s (Machine.deliverDiscarded b e t) := by
  cases e with
  | tune a c g k => exact h.failAt
  | release a => exact h.failAt
  | clear a id => exact h.setClear
  | scan | probe | poll | setCharge => exact h

theorem deliverTimeout {e : Exchange} (h : Minor s t) : Minor s (Machine.deliverTimeout e t) := by
  cases e with
  | tune a c g k => exact h.failAt
  | release a => exact h.failAt
  | clear a id => exact h.setClear
  | setCharge a m =>
    refine h.modSlot fun x => ?_
    split <;> rfl
  | scan | probe | poll => exact h

theorem discardWhere {p : Exchange → Bool} {b : Bool} (h : Minor s t) : Minor s (Machine.discardWhere p b t) :=
  h.forEach (fun _ _ g => g.unqueue.deliverDiscarded) _

theorem discardSlot {a : SlotAddr} {b : Bool} (h : Minor s t) : Minor s (Machine.discardSlot a b t) := h.discardWhere

theorem requestClear {a : SlotAddr} {id : DeviceId} (h : Minor s t) : Minor s (Machine.requestClear a id t) := by
  have asked : Minor s (Machine.request (.clear a id) t).2 := h.request (Option.some_ne_none _)
  unfold Machine.requestClear
  split
  · next eq =>
    rw [eq] at asked
    exact asked.setClear
  · next eq =>
    rw [eq] at asked
    exact asked.setClear

theorem clearOwed {a : SlotAddr} (h : Minor s t) : Minor s (Machine.clearOwed a t) := by
  unfold Machine.clearOwed
  split
  · exact h
  · split
    · exact h
    · split
      · exact h.requestClear
      · exact h

end

end Minor

end Sys2Proof.Machine
end

section
/-! PROOF. The charge controller at a slot, in the terms of the claims (R132 to R138): admission, entry into charging, the judgement of an
answered POLL, and the poll timer. -/

namespace Sys2Proof.Machine

/-! ## Answers and timeouts -/

theorem exec_answered {e : Exchange} {params : List Byte} {s : State} (answered : Answered e params s) :
    exec .exchangeComplete s = .next (complete e params (freeBus s)) := by
  obtain ⟨x, flight, rfl, answer, live⟩ := answered
  change execExchangeComplete s = _
  unfold execExchangeComplete
  rw [Option.mem_def.mp flight]
  dsimp only
  rw [answer]
  dsimp only
  rw [live]
  rfl

theorem exec_unanswered {e : Exchange} {a : SlotAddr} {s : State} (unanswered : Unanswered e s) (slot : e.slot? = some a) :
    exec .exchangeTimeout s = .next (slotTimeout e a (freeBus s)) := by
  obtain ⟨x, flight, rfl, answer, live⟩ := unanswered
  change execExchangeTimeout s = _
  unfold execExchangeTimeout
  rw [Option.mem_def.mp flight]
  dsimp only
  rw [answer, live]
  cases exchange : x.exchange with
  | scan r => rw [exchange] at slot; cases slot
  | probe | poll | setCharge | tune | release | clear =>
    rw [exchange] at slot
    cases slot
    rfl

theorem exec_unanswered_scan {r : RackId} {s : State} (unanswered : Unanswered (.scan r) s) :
    exec .exchangeTimeout s = .next (scanTimeout r (freeBus s)) := by
  obtain ⟨x, flight, exchange, answer, live⟩ := unanswered
  change execExchangeTimeout s = _
  unfold execExchangeTimeout
  rw [Option.mem_def.mp flight]
  dsimp only
  rw [answer, live, exchange]
  rfl

/-- A level carried by an answer, stored (R125). -/
theorem storeLevel_heard {s : State} {a : SlotAddr} {x : Slot} (slot : s.slots[a] = some x) (level : Byte) :
    storeLevel a (min 100 level.toNat) (setTimeouts a 0 (freeBus s)) = heard a x level s := by
  have timed : setTimeouts a 0 (freeBus s) = (freeBus s).setSlot a (some { x with timeouts := 0 }) := modSlot_eq (s := freeBus s) slot _
  unfold storeLevel heard
  rw [timed, modSlot_eq (x := { x with timeouts := 0 }) (setSlot_get ..), setSlot_setSlot, setSlot_get, Option.bind_some]
  cases x.deviceId with
  | none =>
    simp only [reduceCtorEq, if_false, List.map_id']
    rfl
  | some id =>
    simp only [Option.some.injEq, eq_comm (a := id)]
    rfl

/-! ## Admission (R134) -/

theorem setRack_modSlot {s : State} {a : SlotAddr} {x : Slot} (slot : s.slots[a] = some x) (r : RackId) (v : Option RackWindow)
    (f : Slot → Slot) : (s.setRack r v).modSlot a f = (s.setRack r v).setSlot a (some (f x)) := modSlot_eq (s := s.setRack r v) slot f

section
variable {s : State} {r : RackId} {w : RackWindow} {a : SlotAddr} {x : Slot}

theorem headDraw_of (h : Stands s r w a x) : headDraw a s = if decide (x.level < s.charge.topLevel) then 450 else 120 := by
  unfold headDraw
  rw [h.slot, Option.map_some, Option.getD_some]
  by_cases low : x.level < s.charge.topLevel
  · rw [if_pos low, decide_eq_true low]
    rfl
  · rw [if_neg low, decide_eq_false low]
    rfl

theorem admitHead_told (h : Stands s r w a x) (occupied : x.occupancy = .occupied) :
    let bulk := decide (x.level < s.charge.topLevel)
    admitHead r a s = told a (if bulk then .bulk else .top) ((s.setRack r (some
      { w with sessions := w.sessions ++ [a], committed := w.committed + (if bulk then 450 else 120), shedPart := w.shedPart.erase a,
               micPart := w.micPart.erase a, receiverPart := w.receiverPart.erase a })).setSlot a (some
      { x with phase := if bulk then .bulk else .top, topCounter := if bulk then 0 else s.charge.topPolls })) := by
  intro bulk
  have draw : headDraw a s = if bulk then 450 else 120 := headDraw_of h
  have isBulk : decide (headDraw a s = bulkDraw) = bulk := by
    rw [draw]
    cases bulk <;> rfl
  unfold admitHead
  dsimp only
  rw [isBulk, draw, modRack_eq h.rack, setRack_modSlot h.slot, requestSetCharge_told (by rw [setSlot_get]; exact congrArg some occupied)]
  rfl

theorem attempt_admits (h : Stands s r w a x) {rest : List SlotAddr} (waiting : w.admission = a :: rest) (occupied : x.occupancy = .occupied) :
    let bulk := decide (x.level < s.charge.topLevel)
    let draw := if bulk then 450 else 120
    attempt r s = if w.committed + draw ≤ w.budget then attempt r (told a (if bulk then .bulk else .top) ((s.setRack r (some
      { w with sessions := w.sessions ++ [a], committed := w.committed + draw, shedPart := w.shedPart.erase a,
               micPart := w.micPart.erase a, receiverPart := w.receiverPart.erase a })).setSlot a (some
      { x with phase := if bulk then .bulk else .top, topCounter := if bulk then 0 else s.charge.topPolls }))) else s := by
  intro bulk draw
  rw [attempt_head h.rack waiting, admitHead_told h occupied, headDraw_of h]

/-! ## Entry into charging (R132, R133) -/

/-- The window when slot a has joined the queue at the tail of its device kind's part (R133). -/
def RackWindow.joined (w : RackWindow) (mic : Bool) (a : SlotAddr) : RackWindow :=
  if mic then { w with micPart := w.micPart ++ [a] } else { w with receiverPart := w.receiverPart ++ [a] }

/-- The device a record names is a microphone. -/
def Slot.mic (x : Slot) (s : State) : Bool := decide (((x.deviceId.bind s.device?).map Device.kind) = some .mic)

theorem startWaiting_eq (h : Stands s r w a x) :
    startWaiting a s = attempt r ((s.setRack r (some (w.joined (x.mic s) a))).setSlot a (some { x with phase := .waiting })) := by
  have waits := h.writeSlot (y := { x with phase := .waiting }) (t := s.setSlot a (some { x with phase := .waiting })) rfl rfl
  have kind : deviceKindAt a (s.setSlot a (some { x with phase := .waiting })) = (x.deviceId.bind s.device?).map Device.kind := by
    rw [deviceKindAt, setSlot_get]
    rfl
  have joined : (if deviceKindAt a (s.setSlot a (some { x with phase := .waiting })) = some .mic then { w with micPart := w.micPart ++ [a] }
      else { w with receiverPart := w.receiverPart ++ [a] }) = w.joined (x.mic s) a := by
    rw [kind, RackWindow.joined, Slot.mic]
    simp only [decide_eq_true_eq]
  unfold startWaiting joinQueue
  rw [modSlot_eq h.slot, waits.modRackOf, joined]
  have base : (w.joined (x.mic s) a).base = w.base := by unfold RackWindow.joined; split <;> rfl
  have size : (w.joined (x.mic s) a).size = w.size := by unfold RackWindow.joined; split <;> rfl
  exact (waits.write (t := (s.setSlot a (some { x with phase := .waiting })).setRack r (some (w.joined (x.mic s) a))) base size rfl
    (set_own waits.slot).symm).attemptFor

theorem enterCharging_eq (h : Stands s r w a x) :
    let z := { x with phase := if x.level < 100 then .waiting else .full, topCounter := 0, setOwed := false,
                      pollTimer := some s.charge.pollPeriod }
    enterCharging a s = if x.level < 100 then attempt r ((s.setRack r (some (w.joined (x.mic s) a))).setSlot a (some z))
      else s.setSlot a (some z) := by
  intro z
  have begun := h.writeSlot (y := { x with topCounter := 0, setOwed := false, pollTimer := some s.charge.pollPeriod })
    (t := s.setSlot a (some { x with topCounter := 0, setOwed := false, pollTimer := some s.charge.pollPeriod })) rfl rfl
  unfold enterCharging
  dsimp only
  rw [modSlot_eq h.slot, h.slot, Option.map_some, Option.getD_some, startWaiting_eq begun, modSlot_eq begun.slot, setSlot_setRack,
    setSlot_setSlot, setSlot_setSlot]
  unfold z
  by_cases low : x.level < 100
  · rw [if_pos low, if_pos low, if_pos low]
    rfl
  · rw [if_neg low, if_neg low, if_neg low]

/-! ## The judgement of an answered POLL (R136 to R138) -/

theorem judgePoll_none (h : Stands s r w a x) (phase : x.phase = .none) : judgePoll a s = s := by
  unfold judgePoll
  rw [h.slot]
  dsimp only
  rw [phase]

theorem judgePoll_waiting (h : Stands s r w a x) (phase : x.phase = .waiting) : judgePoll a s =
    let t := if x.level = 100 then (s.setRack r (some (w.withoutWaiting a))).setSlot a (some { x with phase := .full }) else s
    if w.admission.head? = some a then attempt r t else t := by
  have left := h.write (v := w.withoutWaiting a) (y := { x with phase := .full })
    (t := (s.setRack r (some (w.withoutWaiting a))).setSlot a (some { x with phase := .full })) rfl rfl rfl rfl
  unfold judgePoll
  rw [h.slot]
  dsimp only
  rw [phase]
  dsimp only
  rw [h.modRackOf, setRack_modSlot h.slot, h.isHead, left.attemptFor, h.attemptFor]
  by_cases full : x.level = 100
  · rw [if_pos full, if_pos full]
    simp only [decide_eq_true_eq]
  · rw [if_neg full, if_neg full]
    simp only [decide_eq_true_eq]

/-- A slot told its mode stands where it stood. -/
theorem Stands.told (h : Stands s r w a x) (m : ChargeMode) : ∃ y, Stands (told a m s) r w a y := by
  unfold Machine.told
  split
  · exact ⟨x, h.congr rfl rfl⟩
  · rw [h.slot]
    exact ⟨_, h.writeSlot rfl rfl⟩

theorem Stands.tellAndAttempt (h : Stands s r w a x) (occupied : x.occupancy = .occupied) (m : ChargeMode) :
    Machine.attemptFor a (requestSetCharge a m s) = attempt r (Machine.told a m s) := by
  obtain ⟨y, there⟩ := h.told m
  rw [requestSetCharge_told (by rw [h.slot]; exact congrArg some occupied), there.attemptFor]

theorem passToTop_eq (h : Stands s r w a x) (occupied : x.occupancy = .occupied) : passToTop a s = attempt r (told a .top
    ((s.setRack r (some { w with committed := w.committed - 330 })).setSlot a
      (some { x with phase := .top, topCounter := s.charge.topPolls }))) := by
  have moved := h.write (v := { w with committed := w.committed - 330 }) (y := { x with phase := .top, topCounter := s.charge.topPolls })
    (t := (s.setRack r (some { w with committed := w.committed - 330 })).setSlot a
      (some { x with phase := .top, topCounter := s.charge.topPolls })) rfl rfl rfl rfl
  unfold passToTop
  dsimp only
  rw [h.modRackOf, setRack_modSlot h.slot]
  exact moved.tellAndAttempt occupied .top

theorem passToFull_eq (h : Stands s r w a x) (occupied : x.occupancy = .occupied) : passToFull a s = attempt r (told a .off
    ((s.setRack r (some (w.withoutSession a 120))).setSlot a (some { x with phase := .full, topCounter := 0 }))) := by
  have moved := h.write (v := w.withoutSession a 120) (y := { x with phase := .full, topCounter := 0 })
    (t := (s.setRack r (some (w.withoutSession a 120))).setSlot a (some { x with phase := .full, topCounter := 0 })) rfl rfl rfl rfl
  unfold passToFull
  dsimp only
  rw [h.modRackOf, setRack_modSlot h.slot]
  exact moved.tellAndAttempt occupied .off

theorem judgePoll_bulk (h : Stands s r w a x) (phase : x.phase = .bulk) : judgePoll a s =
    if s.charge.topLevel ≤ x.level then passToTop a s else s := by
  unfold judgePoll
  rw [h.slot]
  dsimp only
  rw [phase]

theorem judgePoll_top (h : Stands s r w a x) (phase : x.phase = .top) : judgePoll a s =
    let t := s.setSlot a (some { x with topCounter := x.topCounter - 1 })
    if x.level = 100 ∨ x.topCounter ≤ 1 then passToFull a t else t := by
  unfold judgePoll
  rw [h.slot]
  dsimp only
  rw [phase]
  dsimp only
  rw [modSlot_eq h.slot]
  simp only [Nat.sub_eq_zero_iff_le, phase]

theorem judgePoll_full (h : Stands s r w a x) (phase : x.phase = .full) : judgePoll a s =
    if x.level < s.charge.rechargeLevel then startWaiting a s else s := by
  unfold judgePoll
  rw [h.slot]
  dsimp only
  rw [phase]

/-! ## A slot faults -/

/-- What follows a fault's mark, by what it leaves alone (R119, R120, R139). -/
theorem enterFault_minor (a : SlotAddr) (cause : FaultCause) (s : State) : Minor (markFault a cause s) (enterFault a cause s) :=
  (Minor.refl _).discardSlot.charging (Charging.refl _).endCharging

theorem markFault_reported {s : State} {a : SlotAddr} {x : Slot} (slot : s.slots[a] = some x) (cause : FaultCause) :
    markFault a cause s =
      let t := s.setSlot a (some { x with occupancy := .fault, faultCause := some cause })
      match cause with
      | .timeout => reported 17 a.val 1 t
      | .device => reported 17 a.val 2 t
      | .fleetFull => t := by
  unfold markFault
  rw [modSlot_eq slot]
  cases cause with
  | timeout | device => exact raise_eq_reported ..
  | fleetFull => rfl

/-- The raise of a report stands in the event's record. -/
theorem raised_reported (k : EventId) (o : Nat) (d : BitVec 32) (s : State) : Raised k o d s (reported k o d s) := by
  have record : (reported k o d s).events[k] = (s.events[k]).raised (raiseRecord o d false s) := by
    rw [reported_eq]
    exact get_set_same ..
  rw [Raised, record]
  exact ⟨rfl, rfl⟩

end

/-- A slot that faults for a cause that is reported: its record, and SLOT_FAULT's (R119, R124, R125). -/
theorem enterFault_record {s : State} {a : SlotAddr} {x : Slot} {cause : FaultCause} {code : BitVec 32}
    (reports : markFault a cause s = reported 17 a.val code (s.setSlot a (some { x with occupancy := .fault, faultCause := some cause }))) :
    (∃ y, (enterFault a cause s).slots[a] = some y ∧
      y.plate = ({ x with occupancy := .fault, faultCause := some cause } : Slot).plate) ∧
      Raised 17 a.val code s (enterFault a cause s) := by
  have minor := enterFault_minor a cause s
  have plate := minor.plate a
  have event := minor.events 17 (by decide)
  rw [reports] at plate event
  have there : (reported 17 a.val code (s.setSlot a (some { x with occupancy := .fault, faultCause := some cause }))).slots[a] =
      some { x with occupancy := .fault, faultCause := some cause } := by
    rw [reported_eq]
    exact setSlot_get ..
  rw [there] at plate
  obtain ⟨y, after, same⟩ := Option.map_eq_some_iff.mp plate
  refine ⟨⟨y, after, same⟩, ?_⟩
  rw [Raised, event]
  exact raised_reported ..

/-! ## The poll timer (R135, R136) -/

theorem poll_asked {a : SlotAddr} {s : State} (occupied : (s.slots[a]).map Slot.occupancy = some .occupied) :
    ask (.poll a) s = asked 5 (if .poll a ∈ s.bus.queues[(5 : Fin 6)] then [] else [.poll a]) s := by
  have allowed : (Exchange.poll a).allowed s = true := decide_eq_true occupied
  by_cases waits : .poll a ∈ s.bus.queues[(5 : Fin 6)]
  · rw [if_pos waits, asked_nil]
    unfold ask request
    rw [allowed, show (Exchange.poll a).merged s = true from decide_eq_true waits]
    rfl
  · rw [if_neg waits]
    exact ask_eq_asked allowed (decide_eq_false waits)

/-! ## What an answered level leaves of the device table -/

theorem device?_map {s : State} {f : Device → Device} (named : ∀ d, (f d).id = d.id) (id : DeviceId) :
    ({ s with devices := s.devices.map f } : State).device? id = (s.device? id).map f := by
  unfold State.device?
  rw [List.find?_map]
  congr 2
  funext d
  exact congrArg (fun i => decide (i = id)) (named d)

/-- The level stored leaves the devices' kinds. -/
theorem heard_kind (a : SlotAddr) (x : Slot) (level : Byte) (id : Option DeviceId) (s : State) :
    (id.bind (heard a x level s).device?).map Device.kind = (id.bind s.device?).map Device.kind := by
  cases id with
  | none => rfl
  | some id =>
    have same : (heard a x level s).device? id = (s.device? id).map fun d =>
        if x.deviceId = some d.id then { d with level := min 100 level.toNat } else d := device?_map (fun d => by split <;> rfl) id
    rw [Option.bind_some, Option.bind_some, same, Option.map_map]
    refine congrArg (fun f => Option.map f (s.device? id)) (funext fun d => ?_)
    change (if x.deviceId = some d.id then { d with level := min 100 level.toNat } else d).kind = d.kind
    split <;> rfl

/-- Settles O55: the attempt by its head, each phase by the equation of its judgement, and the fault by what follows its mark. -/
theorem admissionAndPolls : Obligations.AdmissionAndPolls := by
  intro r w a x s sound rack holds slot
  have stands := sound.stands rack holds slot
  refine ⟨fun empty => attempt_empty rack empty, fun rest waiting => ⟨fun dear => ?_, fun fits occupied => ?_⟩, ?_,
    fun level answered occupied => ?_, fun level answered => ?_, fun stopped => ?_, fun runs occupied => ?_⟩
  · rw [attempt_head rack waiting, headDraw_of stands, if_neg (Nat.not_le.mpr dear)]
  · exact (attempt_admits stands waiting occupied).trans (if_pos fits)
  · refine (enterCharging_eq stands).trans ?_
    simp only [RackWindow.joined, Slot.mic, decide_eq_true_eq]
  · have answer : exec .exchangeComplete s = .next (judgePoll a (heard a x level s)) :=
      (exec_answered answered).trans (congrArg (fun t => Host.Outcome.next (judgePoll a t)) (storeLevel_heard slot level))
    intro n t y attempted
    have heardAt : Stands t r w a y := stands.writeSlot rfl rfl
    rw [answer]
    refine ⟨fun phase => ?_, fun phase => ?_, fun phase => ?_, fun phase => ?_, fun phase high => ?_, fun phase low => ?_⟩
    · rw [judgePoll_none heardAt phase]
    · rw [judgePoll_waiting heardAt phase]
      rfl
    · rw [judgePoll_bulk heardAt phase, passToTop_eq heardAt occupied]
      rfl
    · have counted : Stands (t.setSlot a (some { y with topCounter := x.topCounter - 1 })) r w a { y with topCounter := x.topCounter - 1 } :=
        heardAt.writeSlot rfl rfl
      rw [judgePoll_top heardAt phase]
      dsimp only
      rw [passToFull_eq counted occupied, setSlot_setRack, setSlot_setSlot]
      rfl
    · exact congrArg Host.Outcome.next ((judgePoll_full heardAt phase).trans (if_neg (Nat.not_lt.mpr high)))
    · refine congrArg Host.Outcome.next (((judgePoll_full heardAt phase).trans (if_pos low)).trans ((startWaiting_eq heardAt).trans ?_))
      rw [show y.mic t = x.mic s from congrArg (fun k => decide (k = some DeviceKind.mic)) (heard_kind a x level x.deviceId s)]
      simp only [RackWindow.joined, Slot.mic, decide_eq_true_eq]
  · have answer : exec .exchangeComplete s = .next (enterFault a .device (heard a x level s)) :=
      (exec_answered answered).trans (congrArg (fun t => Host.Outcome.next (enterFault a .device t)) (storeLevel_heard slot level))
    have heardAt : (heard a x level s).slots[a] = some { x with timeouts := 0, level := min 100 level.toNat } := get_set_same ..
    obtain ⟨⟨y, after, plate⟩, raised⟩ := enterFault_record (markFault_reported heardAt .device)
    simp only [Slot.plate, Plate.mk.injEq] at plate
    obtain ⟨occupancy, device, held, -, cause, -⟩ := plate
    exact ⟨_, y, answer, after, occupancy, cause, device, held, raised⟩
  · change execPollTimerExpiry a s = _
    unfold execPollTimerExpiry
    rw [slot]
    dsimp only
    rw [if_pos stopped]
  · change execPollTimerExpiry a s = _
    unfold execPollTimerExpiry
    rw [slot]
    dsimp only
    rw [if_neg runs, modSlot_eq slot, poll_asked (by rw [setSlot_get]; exact congrArg some occupied)]
    have polled (u : State) (es : List Exchange) (y : Slot) (here : u.slots[a] = some y) : (asked 5 es u).modSlot a
        (fun y => { y with setOwed := false }) = asked 5 es (u.setSlot a (some { y with setOwed := false })) := by
      rw [modSlot_eq (s := asked 5 es u) here]
      rfl
    rw [polled _ _ _ (setSlot_get ..), setSlot_setSlot]
    by_cases owed : x.setOwed = true
    · rw [if_pos owed, if_pos owed]
      have there : ((asked 5 (if .poll a ∈ s.bus.queues[(5 : Fin 6)] then [] else [.poll a]) (s.setSlot a
          (some { x with pollTimer := some s.charge.pollPeriod, setOwed := false }))).slots[a]).map Slot.occupancy = some .occupied :=
        (congrArg (Option.map Slot.occupancy) (setSlot_get ..)).trans (congrArg some occupied)
      exact congrArg Host.Outcome.next ((requestSetCharge_told there x.phase.mode).trans
        (congrArg (fun m => told a m _) (by cases x.phase <;> rfl)))
    · rw [if_neg owed, if_neg owed]
      have settled : x.setOwed = false := by simpa using owed
      rw [← settled]
      rfl

end Sys2Proof.Machine
end

section
/-! PROOF. The dock of a state: what the laws of racks, charging and fleet are about; and the laws that every command keeps when the commands
of racks, charging and fleet keep them. -/

namespace Sys2Proof.Machine

/-! ## The dock -/

/-- A window but for the state of its SCANs. -/
def RackWindow.yard (w : RackWindow) : RackWindow := { w with rackState := .online, scanMisses := 0, scanTimer := false }

/-- A slot's occupancy, name, phase and reservation. -/
def Slot.post (x : Slot) : Slot :=
  { x with level := 0, timeouts := 0, faultCause := none, released := false, topCounter := 0, pollTimer := none, setOwed := false }

/-- A device's id, kind, state, slot, and its assignment but for the channel. -/
def Device.card (d : Device) : Device :=
  { d with level := 0, clearState := .none, assignment := d.assignment.map fun a => { a with channel := 0 } }

/-- A group's state, out_count and operation. -/
def Group.desk (x : Group) : Group := { x with channel := none, lastIssue := none }

/-- An operation's group, kind, counts, roster entry and candidate. -/
def IssueOperation.task (o : IssueOperation) : IssueOperation := { o with minLevel := 0, cancel := false, retuned := false, tried := [] }

/-- An exchange in flight, its rack, and whether that rack has been removed. -/
def InFlight.berth (x : InFlight) : InFlight := { x with position := 0, number := 0, settle := 0, answer := none }

/-- The state as the laws of racks, charging and fleet see it; all else is as after a hard reset. -/
def State.dock (s : State) : State :=
  { State.hardReset (rateOf false false) false with
    racks := s.racks.map (Option.map RackWindow.yard), slots := s.slots.map (Option.map Slot.post),
    bus := { queues := s.bus.queues, inFlight := s.bus.inFlight.map InFlight.berth, number := 0 },
    devices := s.devices.map Device.card, groups := s.groups.map Group.desk, ops := s.ops.map IssueOperation.task, roster := s.roster }

theorem map_get {α β : Type} {n : Nat} (v : Vector α n) (f : α → β) (k : Fin n) : (v.map f)[k] = f v[k] := by simp

theorem dock_rack (s : State) (r : RackId) : s.dock.racks[r] = (s.racks[r]).map RackWindow.yard := map_get ..
theorem dock_slot (s : State) (a : SlotAddr) : s.dock.slots[a] = (s.slots[a]).map Slot.post := map_get ..
theorem dock_group (s : State) (g : GroupId) : s.dock.groups[g] = (s.groups[g]).desk := map_get ..

theorem windowsSound_dock (s : State) : WindowsSound s.dock ↔ WindowsSound s := by
  have queues : s.dock.bus.queues = s.bus.queues := rfl
  have lists (w : RackWindow) : w.yard.sessions = w.sessions ∧ w.yard.admission = w.admission := ⟨rfl, rfl⟩
  have place (w : RackWindow) : w.yard.base = w.base ∧ w.yard.size = w.size ∧ w.yard.settle = w.settle ∧ w.yard.budget = w.budget :=
    ⟨rfl, rfl, rfl, rfl⟩
  have holds (w : RackWindow) (a : SlotAddr) : w.yard.holds a = w.holds a := rfl
  simp only [WindowsSound, dock_rack, dock_slot, Option.mem_map, forall_exists_index, and_imp, forall_apply_eq_imp_iff₂, ne_eq,
    Option.map_eq_none_iff, queues, lists, place, holds, exists_exists_and_eq_and]

theorem devicesSound_dock (s : State) : DevicesSound s.dock ↔ DevicesSound s := by
  have ids : s.dock.devices.map Device.id = s.devices.map Device.id := (List.map_map ..).trans rfl
  exact ⟨fun sound => sound.congr ids.symm, fun sound => sound.congr ids⟩

theorem issuesSound_dock (s : State) : IssuesSound s.dock ↔ IssuesSound s := by
  have groups : s.dock.ops.map IssueOperation.group = s.ops.map IssueOperation.group := (List.map_map ..).trans rfl
  have desks (g : GroupId) : (s.dock.groups[g]).state = (s.groups[g]).state ∧ (s.dock.groups[g]).issueHandle = (s.groups[g]).issueHandle := by
    rw [dock_group]
    exact ⟨rfl, rfl⟩
  exact ⟨fun sound => sound.congr groups.symm fun g => ⟨(desks g).1.symm, (desks g).2.symm⟩, fun sound => sound.congr groups desks⟩

/-! ## Work that leaves the dock as it was -/

/-- The dock is as it was. -/
def Moored (s t : State) : Prop := t.dock = s.dock

namespace Moored

theorem refl (s : State) : Moored s s := rfl

section
variable {s t u : State}

theorem trans (h : Moored s t) (g : Moored t u) : Moored s u := Eq.trans g h

/-- Work on other parts of the state. -/
theorem aside (h : Moored s t) (same : u.dock = t.dock) : Moored s u := h.trans same

theorem offEvents (h : Moored s t) (same : u.offEvents = t.offEvents) : Moored s u :=
  h.aside (congrArg State.dock same : u.offEvents.dock = t.offEvents.dock)

theorem offSources (h : Moored s t) (same : u.offSources = t.offSources) : Moored s u :=
  h.aside (congrArg State.dock same : u.offSources.dock = t.offSources.dock)

theorem offChannels (h : Moored s t) (same : u.offChannels = t.offChannels) : Moored s u :=
  h.aside (congrArg State.dock same : u.offChannels.dock = t.offChannels.dock)

theorem offNotices (h : Moored s t) (same : u.offNotices = t.offNotices) : Moored s u :=
  h.aside (congrArg State.dock same : u.offNotices.dock = t.offNotices.dock)

theorem raiseKind {k : EventId} {o : Nat} {d : BitVec 32} {b : Bool} (h : Moored s t) : Moored s (Machine.raiseKind k o d b t) :=
  h.offEvents (raiseKind_offEvents ..)

theorem raise {k : EventKind} {o d : Nat} (h : Moored s t) : Moored s (Machine.raise k o d t) := h.raiseKind

theorem forEach {α : Type} {f : α → State → State} (each : ∀ (a : α) {u : State}, Moored s u → Moored s (f a u)) (l : List α)
    (h : Moored s t) : Moored s (Machine.forEach l f t) := forEach_keeps (Moored s) f (fun a _ => each a) l t h

theorem offerNotice {k : EventId} (h : Moored s t) : Moored s (Machine.offerNotice k t) := by
  unfold Machine.offerNotice addNotice
  (repeat' split) <;> exact h

/-! ### Records that the dock does not see whole -/

theorem slotWritten {a : SlotAddr} {x y : Slot} (h : Moored s t) (slot : t.slots[a] = some x) (post : y.post = x.post) :
    Moored s (t.setSlot a (some y)) := by
  refine h.aside ?_
  have slots : (t.setSlot a (some y)).slots.map (Option.map Slot.post) = t.slots.map (Option.map Slot.post) := by
    change (t.slots.set a (some y)).map _ = _
    rw [Vector.map_set, Option.map_some, post]
    exact set_own ((map_get ..).trans (congrArg _ slot))
  unfold State.dock
  rw [slots]
  rfl

theorem modSlot {a : SlotAddr} {f : Slot → Slot} (h : Moored s t) (post : ∀ x, (f x).post = x.post) : Moored s (t.modSlot a f) := by
  cases slot : t.slots[a] with
  | none =>
    rw [State.modSlot, slot]
    exact h.aside (congrArg State.dock (setSlot_own slot))
  | some x =>
    rw [modSlot_eq slot]
    exact h.slotWritten slot (post x)

theorem modRack {r : RackId} {f : RackWindow → RackWindow} (h : Moored s t) (yard : ∀ w, (f w).yard = w.yard) :
    Moored s (t.modRack r f) := by
  refine h.aside ?_
  have racks : (t.modRack r f).racks.map (Option.map RackWindow.yard) = t.racks.map (Option.map RackWindow.yard) := by
    change (t.racks.set r ((t.racks[r]).map f)).map _ = _
    rw [Vector.map_set, Option.map_map]
    refine set_own ((map_get ..).trans ?_)
    exact congrArg (fun g => Option.map g t.racks[r]) (funext fun w => (yard w).symm)
  unfold State.dock
  rw [racks]
  rfl

theorem devicesMapped {f : Device → Device} (h : Moored s t) (card : ∀ d, (f d).card = d.card) :
    Moored s { t with devices := t.devices.map f } := by
  refine h.aside ?_
  have devices : (t.devices.map f).map Device.card = t.devices.map Device.card := by
    rw [List.map_map]
    exact List.map_congr_left fun d _ => card d
  unfold State.dock
  dsimp only
  rw [devices]

theorem modDevice {id : DeviceId} {f : Device → Device} (h : Moored s t) (card : ∀ d, (f d).card = d.card) :
    Moored s (t.modDevice id f) := h.devicesMapped fun d => by
  split
  · exact card d
  · rfl

theorem modOp {g : GroupId} {f : IssueOperation → IssueOperation} (h : Moored s t) (task : ∀ o, (f o).task = o.task) :
    Moored s (t.modOp g f) := by
  refine h.aside ?_
  have ops : (t.modOp g f).ops.map IssueOperation.task = t.ops.map IssueOperation.task := by
    change (t.ops.map _).map _ = _
    rw [List.map_map]
    refine List.map_congr_left fun o _ => ?_
    change (if o.group = g then f o else o).task = o.task
    split
    · exact task o
    · rfl
  unfold State.dock
  rw [ops]
  rfl

theorem setGroup {g : GroupId} {x : Group} (h : Moored s t) (desk : x.desk = (t.groups[g]).desk) : Moored s (t.setGroup g x) := by
  refine h.aside ?_
  have groups : (t.setGroup g x).groups.map Group.desk = t.groups.map Group.desk := by
    change (t.groups.set g x).map _ = _
    rw [Vector.map_set, desk]
    exact set_own (map_get ..)
  unfold State.dock
  rw [groups]
  rfl

/-! ### Sources, channels, notices and the air -/

theorem sourceOff {k : SourceId} (h : Moored s t) : Moored s (Machine.sourceOff k t) := h.offSources (sourceOff_offSources ..)

theorem sourceWaiting {k : SourceId} (h : Moored s t) : Moored s (Machine.sourceWaiting k t) := h.offSources (sourceWaiting_offSources ..)

theorem setLine {k : SourceId} {on : Bool} (h : Moored s t) : Moored s (Machine.setLine k on t) := by
  unfold Machine.setLine
  dsimp only
  split
  · split
    · exact .sourceWaiting (h.aside rfl)
    · exact h.aside rfl
  · exact .sourceOff (h.aside rfl)

theorem takeUplinkBlock {k : RosterId} {b : UplinkBlock} {good : Bool} (h : Moored s t) :
    Moored s (Machine.takeUplinkBlock k b good t) := by
  unfold Machine.takeUplinkBlock
  split
  · exact h
  · exact h.raise
  · exact h
  · exact h.offSources (arrival_offSources ..)

theorem stopAir {reason : StopReason} {order : List ChannelId} (h : Moored s t) : Moored s (Machine.stopAir reason order t) := by
  rw [stopAir_frame]
  exact h.aside rfl

theorem applyPlan {c : ChannelId} {d : Nat} (h : Moored s t) : Moored s (Machine.applyPlan c d t) := h.offChannels (applyPlan_offChannels ..)

/-- A retune changes assigned channels, which the dock does not see (R99, R100). -/
theorem retuneEffect {n : NoticeRecord} (h : Moored s t) : Moored s (Machine.retuneEffect n t) := by
  have group (g : GroupId) (c : ChannelId) : Moored s (retuneGroup g c t) := by
    have moved : Moored s { t.setGroup g { t.groups[g] with channel := some c } with devices := t.devices.map fun d =>
        match d.state, d.assignment with
        | .out, some a => if a.group = g then { d with assignment := some { a with channel := c } } else d
        | _, _ => d } := by
      refine Moored.devicesMapped (t := t.setGroup g { t.groups[g] with channel := some c }) (h.setGroup rfl) fun d => ?_
      unfold Device.card
      rcases d with ⟨id, kind, state, slot, level, assignment, clear⟩
      cases state <;> cases assignment <;> dsimp only
      split <;> rfl
    unfold retuneGroup
    dsimp only
    (repeat' split)
    · exact moved
    · exact moved
    · exact moved.aside rfl
  unfold Machine.retuneEffect
  (repeat' split)
  · exact group _ _
  · exact h
  · refine h.modDevice fun d => ?_
    unfold Device.card
    rcases d with ⟨id, kind, state, slot, level, assignment, clear⟩
    cases state <;> cases assignment <;> rfl
  · exact h

end

end Moored

/-! ## Laws of the dock -/

/-- The requests whose work the dock sees. -/
def RequestKind.docks : RequestKind → Prop
  | .rackDefine | .rackRemove | .rackBudget | .chargeConfig | .slotClearFault | .deviceForget | .groupOpen | .groupClose | .issue => True
  | _ => False

/-- A law of the dock that the commands of racks, charging and fleet keep. -/
structure DockLaw (P : State → Prop) : Prop where
  moored {s t : State} : P s → Moored s t → P t
  hardReset (rate : LineRate) (ready : Bool) : P (State.hardReset rate ready)
  softReset {s : State} : P s → P (softReset s)
  scan {r : RackId} {s : State} : P s → (s.racks[r]).isSome → P (ask (.scan r) s)
  poll {a : SlotAddr} {s : State} : P s → P (ask (.poll a) s)
  setCharge {a : SlotAddr} {m : ChargeMode} {s : State} : P s → P (requestSetCharge a m s)
  start {s t : State} : P s → exec .exchangeStart s = .next t → P t
  complete {s t : State} : P s → exec .exchangeComplete s = .next t → P t
  timeout {s t : State} : P s → exec .exchangeTimeout s = .next t → P t
  take {k : RequestKind} (body : List Byte) {s : State} : k.docks → P s → P (k.take body s).1

/-! ### Requests that the dock does not see -/

section
variable (body : List Byte) (s : State)

theorem takeAirStart_moored : Moored s (takeAirStart body s).1 := by
  unfold takeAirStart
  (repeat' split)
  · exact .refl s
  · exact .refl s
  · exact Moored.forEach (fun _ _ g => g.sourceWaiting) _ ((Moored.refl s).aside rfl)

theorem takeAirStop_moored : Moored s (takeAirStop body s).1 := by
  unfold takeAirStop
  (repeat' split) <;> exact .refl s

theorem takeSourceConfig_moored : Moored s (takeSourceConfig body s).1 := by
  unfold takeSourceConfig
  split
  · exact .refl s
  · dsimp only
    split
    · exact .raise ((Moored.refl s).aside rfl)
    · exact (Moored.refl s).aside rfl

theorem takeSourceMode_moored : Moored s (takeSourceMode body s).1 := by
  unfold takeSourceMode
  split
  · exact .refl s
  · dsimp only
    generalize (if field8 body 1 = 0 then RateMode.auto else .fixed) = mode
    (repeat' split)
    · exact .refl s
    · exact .refl s
    · exact .setLine ((Moored.refl s).aside rfl)
    · exact (Moored.refl s).aside rfl

theorem takeSourceMute_moored : Moored s (takeSourceMute body s).1 := by
  unfold takeSourceMute
  dsimp only
  (repeat' split) <;> exact (Moored.refl s).aside rfl

theorem takeSourceStatus_moored : Moored s (takeSourceStatus body s).1 := by
  unfold takeSourceStatus
  split <;> exact .refl s

theorem takeSourceLolSet_moored : Moored s (takeSourceLolSet body s).1 := by
  unfold takeSourceLolSet
  split
  · exact .refl s
  · exact (Moored.refl s).offSources (setLol_offSources ..)

theorem takeChannelStage_moored : Moored s (takeChannelStage body s).1 := by
  unfold takeChannelStage
  dsimp only
  (repeat' split) <;> exact (Moored.refl s).aside rfl

theorem takeChannelApply_moored : Moored s (takeChannelApply body s).1 := by
  unfold takeChannelApply
  dsimp only
  (repeat' split)
  · exact .refl s
  · exact .refl s
  · exact .refl s
  · exact (Moored.refl s).aside rfl
  · exact (Moored.refl s).applyPlan

theorem takeChannelClose_moored : Moored s (takeChannelClose body s).1 := by
  unfold takeChannelClose
  dsimp only
  (repeat' split) <;> exact (Moored.refl s).aside rfl

theorem takeChannelStatus_moored : Moored s (takeChannelStatus body s).1 := by
  unfold takeChannelStatus
  split <;> exact .refl s

theorem takeNoticePost_moored : Moored s (takeNoticePost body s).1 := by
  unfold takeNoticePost
  dsimp only
  (repeat' split)
  · exact .refl s
  · exact .refl s
  · exact .refl s
  · exact .refl s
  · exact .refl s
  · next lent =>
    unfold lendNotice at lent
    obtain ⟨-, given⟩ := Option.ite_none_right_eq_some.mp lent
    obtain ⟨-, rfl⟩ := Prod.ext_iff.mp (Option.some.inj given)
    exact .retuneEffect ((Moored.refl s).aside rfl)
  · exact .refl s

theorem takeNoticeCancel_moored : Moored s (takeNoticeCancel body s).1 := by
  unfold takeNoticeCancel
  split <;> exact (Moored.refl s).aside rfl

theorem takeNoticeStatus_moored : Moored s (takeNoticeStatus body s).1 := by
  unfold takeNoticeStatus
  (repeat' split) <;> exact .refl s

theorem takeSchedConfig_moored : Moored s (takeSchedConfig body s).1 := by
  unfold takeSchedConfig
  dsimp only
  split <;> exact (Moored.refl s).aside rfl

theorem takePoolStatus_moored : Moored s (takePoolStatus body s).1 := by
  unfold takePoolStatus
  dsimp only
  (repeat' split) <;> exact (Moored.refl s).aside rfl

theorem takeSlotStatus_moored : Moored s (takeSlotStatus body s).1 := by
  unfold takeSlotStatus
  (repeat' split) <;> exact .refl s

theorem takeDeviceRead_moored : Moored s (takeDeviceRead body s).1 := by
  unfold takeDeviceRead
  dsimp only
  split <;> exact .refl s

theorem takeGroupStatus_moored : Moored s (takeGroupStatus body s).1 := by
  unfold takeGroupStatus
  split <;> exact .refl s

theorem takeIssueCancel_moored : Moored s (takeIssueCancel body s).1 := by
  unfold takeIssueCancel
  (repeat' split)
  · exact .refl s
  · exact .refl s
  · exact (Moored.refl s).modOp fun _ => rfl

theorem takeIssueStatus_moored : Moored s (takeIssueStatus body s).1 := by
  unfold takeIssueStatus
  (repeat' split) <;> exact .refl s

theorem takeEventRead_moored : Moored s (takeEventRead body s).1 := by
  unfold takeEventRead
  (repeat' split) <;> exact .refl s

theorem takeEventClear_moored : Moored s (takeEventClear body s).1 := by
  unfold takeEventClear
  split
  · exact .refl s
  · refine .forEach (fun k u before => ?_) _ (.refl s)
    unfold clearKind
    split
    · exact before
    · exact before.aside rfl

theorem takeEventSet_moored : Moored s (takeEventSet body s).1 := by
  unfold takeEventSet
  split
  · exact .refl s
  · exact .raiseKind (.refl s)

theorem takeEventEnable_moored : Moored s (takeEventEnable body s).1 := by
  unfold takeEventEnable
  split
  · exact .refl s
  · refine .forEach (fun k u before => ?_) _ (.refl s)
    have enabled : Moored s (u.setEvent k { u.events[k] with enable := true }) := before.aside rfl
    unfold enableKind
    dsimp only
    (repeat' split)
    · exact before
    · exact enabled.offerNotice
    · exact enabled

theorem takeEventDisable_moored : Moored s (takeEventDisable body s).1 := by
  unfold takeEventDisable
  split
  · exact .refl s
  · exact .forEach (f := disableKind) (fun k _ before => before.aside rfl) _ (.refl s)

theorem take_moored {k : RequestKind} (aside : ¬ k.docks) : Moored s (k.take body s).1 := by
  cases k with
  | identify | softReset | airStatus => exact .refl s
  | airStart => exact takeAirStart_moored body s
  | airStop => exact takeAirStop_moored body s
  | sourceConfig => exact takeSourceConfig_moored body s
  | sourceMode => exact takeSourceMode_moored body s
  | sourceMute => exact takeSourceMute_moored body s
  | sourceStatus => exact takeSourceStatus_moored body s
  | sourceLolSet => exact takeSourceLolSet_moored body s
  | channelStage => exact takeChannelStage_moored body s
  | channelApply => exact takeChannelApply_moored body s
  | channelClose => exact takeChannelClose_moored body s
  | channelStatus => exact takeChannelStatus_moored body s
  | noticePost => exact takeNoticePost_moored body s
  | noticeCancel => exact takeNoticeCancel_moored body s
  | noticeStatus => exact takeNoticeStatus_moored body s
  | schedConfig => exact takeSchedConfig_moored body s
  | poolStatus => exact takePoolStatus_moored body s
  | slotStatus => exact takeSlotStatus_moored body s
  | deviceRead => exact takeDeviceRead_moored body s
  | groupStatus => exact takeGroupStatus_moored body s
  | issueCancel => exact takeIssueCancel_moored body s
  | issueStatus => exact takeIssueStatus_moored body s
  | eventRead => exact takeEventRead_moored body s
  | eventClear => exact takeEventClear_moored body s
  | eventSet => exact takeEventSet_moored body s
  | eventEnable => exact takeEventEnable_moored body s
  | eventDisable => exact takeEventDisable_moored body s
  | rackDefine | rackRemove | rackBudget | chargeConfig | slotClearFault | deviceForget | groupOpen | groupClose | issue =>
    exact absurd trivial aside

theorem placeGoodFrame_moored (f : Frame) : Moored s (placeGoodFrame f s) := by
  unfold placeGoodFrame
  (repeat' split)
  · exact .refl s
  · exact (Moored.refl s).aside rfl
  · exact (Moored.refl s).aside rfl
  · exact .raise (.refl s)

end

theorem received_moored {s t : State} (h : Received s t) : Moored s t := by
  cases h with
  | ignored => exact .refl s
  | hunting | receiving => exact (Moored.refl s).aside rfl
  | good f => exact ((Moored.refl s).aside rfl).trans (placeGoodFrame_moored { s with link := s.link.hunting } f)
  | bad d => exact .raise ((Moored.refl s).aside rfl)

/-! ### Every command, and every step -/

namespace DockLaw

section
variable {P : State → Prop} (law : DockLaw P)
include law

omit law in
theorem of_next {u t : State} (kept : P u) (same : (.next u : Host.Outcome State Fault Refusal) = .next t) : P t := by
  injection same with same
  exact same ▸ kept

theorem moored_next {s t u : State} (kept : P s) (h : Moored s u) (same : (.next u : Host.Outcome State Fault Refusal) = .next t) : P t :=
  of_next (law.moored kept h) same

theorem judged (k : RequestKind) (body : List Byte) {s : State} (kept : P s) : P (Machine.judged k.lengthOk k.take body s).1 := by
  unfold Machine.judged
  split
  · by_cases docks : k.docks
    · exact law.take body docks kept
    · exact law.moored kept (take_moored body s docks)
  · exact kept

theorem serveWith (kind tag : Byte) {owner : State → Answer} (owned : ∀ s, P s → P (owner s).1) {s : State} (kept : P s) :
    P (Machine.serveWith kind tag owner s) :=
  law.moored (owned _ (law.moored kept ((Moored.refl s).aside rfl : Moored s (s.addOutbound .reserved)))) ((Moored.refl _).aside rfl)

theorem request (k : RequestKind) (tag : Byte) (body : List Byte) {s t : State} (kept : P s) (h : exec (k.command tag body) s = .next t) :
    P t := by
  rw [exec_command] at h
  refine of_next ?_ h
  rcases submit_cases k tag body s with ⟨-, -, -, served⟩ | ⟨-, placed⟩
  · rw [served]
    exact law.serveWith _ _ (fun _ => law.judged k body) kept
  · rw [placed]
    exact law.moored kept (placeGoodFrame_moored ..)

theorem requestService {s t : State} (kept : P s) (h : exec .requestService s = .next t) : P t := by
  rcases requestService_cases s with waits | ⟨f, rest, -, -, serves⟩
  · rw [waits] at h
    exact of_next kept h
  · rw [serves] at h
    have served : P (Machine.serveWith f.kind f.tag (answerFrame f) s) := law.serveWith f.kind f.tag (fun u there => by
      unfold answerFrame
      split
      · exact there
      · exact law.judged _ _ there) kept
    refine law.moored_next served ?_ h
    exact (Moored.refl _).aside rfl

theorem scans {s : State} (l : List RackId) (defined : ∀ r ∈ l, (s.racks[r]).isSome) (kept : P s) :
    P (forEach l (fun r => ask (.scan r)) s) := by
  induction l generalizing s with
  | nil => exact kept
  | cons r l ih =>
    rw [forEach_cons]
    refine ih (fun q mem => ?_) (law.scan kept (defined r List.mem_cons_self))
    rw [scan_asked]
    exact defined q (List.mem_cons_of_mem r mem)

theorem scanAll {s : State} (kept : P s) : P (Machine.scanAll s) :=
  law.scans s.definedRacks (fun _ mem => (List.mem_filter.mp mem).2) kept

theorem pollTimerExpiry {a : SlotAddr} {s t : State} (kept : P s) (h : exec (.pollTimerExpiry a) s = .next t) : P t := by
  change execPollTimerExpiry a s = _ at h
  unfold execPollTimerExpiry at h
  have polled : P (ask (.poll a) (s.modSlot a (fun x => { x with pollTimer := some s.charge.pollPeriod }))) :=
    law.poll (law.moored kept ((Moored.refl s).modSlot fun _ => rfl))
  (repeat' split at h) <;> refine of_next ?_ h
  · exact kept
  · exact kept
  · exact law.setCharge (law.moored polled ((Moored.refl _).modSlot fun _ => rfl))
  · exact polled

/-- Every command keeps a law of the dock. -/
theorem exec (c : Instr) {s t : State} (kept : P s) (h : Machine.exec c s = .next t) : P t := by
  have still : Moored s s := .refl s
  cases c
  case hardReset rate1 rate0 ready =>
    refine law.moored_next (law.hardReset (rateOf rate1 rate0) ready) ?_ h
    exact (Moored.refl _).aside rfl
  case frameReceive chars =>
    have received : Moored s (forEach chars receiveChar s) :=
      still.forEach (fun c _ before => before.trans (received_moored (receiveChar_received c _))) chars
    exact law.moored_next kept received h
  case gapExpiry =>
    refine law.moored_next kept ?_ h
    split
    · exact received_moored (.bad 2)
    · exact still
  case requestService => exact law.requestService kept h
  case frameTransmitted =>
    change execFrameTransmitted s = _ at h
    unfold execFrameTransmitted at h
    split at h
    · refine law.moored_next kept ?_ h
      exact still.aside rfl
    · exact of_next kept h
  case softResetPerform =>
    refine of_next ?_ h
    split
    · exact law.softReset kept
    · exact kept
  case superframeStart =>
    refine law.moored_next kept ?_ h
    split
    · exact still.aside rfl
    · exact still
  case downlinkSlot slot =>
    change execDownlinkSlot slot s = _ at h
    unfold execDownlinkSlot at h
    split at h
    · refine law.moored_next kept ?_ h
      exact still.aside rfl
    · exact of_next kept h
  case uplinkBlockDelivery k bytes good =>
    change execUplinkBlockDelivery k bytes good s = _ at h
    unfold execUplinkBlockDelivery at h
    split at h
    · refine law.moored_next kept ?_ h
      split
      · exact .takeUplinkBlock (still.aside rfl)
      · exact still.aside rfl
    · exact of_next kept h
  case lineBlockDelivery l v =>
    change execLineBlockDelivery l v s = _ at h
    unfold execLineBlockDelivery at h
    split at h
    · exact law.moored_next kept (.offSources (still.aside rfl : Moored s (takeLine l s)) (arrival_offSources ..)) h
    · exact of_next kept h
  case outputMark order =>
    change execOutputMark order s = _ at h
    unfold execOutputMark at h
    split at h
    · refine law.moored_next kept (.forEach (fun _ _ g => g.offSources (outputSource_offSources ..)) (fullOrder order) ?_) h
      exact still.aside rfl
    · exact of_next kept h
  case reviewMark order =>
    change execReviewMark order s = _ at h
    unfold execReviewMark at h
    split at h
    · refine law.moored_next kept (.forEach (fun _ _ g => g.offChannels (reviewChannel_offChannels ..)) (fullOrder order) ?_) h
      exact still.aside rfl
    · exact of_next kept h
  case buildMark order =>
    change execBuildMark order s = _ at h
    unfold execBuildMark at h
    split at h
    · refine law.moored_next kept ?_ h
      split
      · exact still.stopAir
      · exact .aside (still.offNotices (placeNotices_offNotices ..)) rfl
    · exact of_next kept h
  case readyLineFall order =>
    refine law.moored_next kept ?_ h
    split
    · exact .raise (.stopAir (still.aside rfl))
    · exact still.aside rfl
  case readyLineRise =>
    refine law.moored_next kept ?_ h
    exact still.aside rfl
  case exchangeStart => exact law.start kept h
  case exchangeAnswer bytes =>
    change execExchangeAnswer bytes s = _ at h
    unfold execExchangeAnswer at h
    split at h
    · next x flight =>
      split at h
      · next params _ _ =>
        refine law.moored_next kept (still.aside ?_) h
        have berth : ({ x with answer := some params } : InFlight).berth = x.berth := rfl
        simp only [State.dock, flight, Option.map_some, berth]
      · exact of_next kept h
    · exact of_next kept h
  case exchangeComplete => exact law.complete kept h
  case exchangeTimeout => exact law.timeout kept h
  case scanTimerExpiry r =>
    change execScanTimerExpiry r s = _ at h
    unfold execScanTimerExpiry at h
    split at h
    · next w rack =>
      refine of_next ?_ h
      split
      · exact law.scan kept (rack ▸ rfl)
      · exact kept
    · exact of_next kept h
  case attentionFall => exact of_next (law.scanAll kept) h
  case pollTimerExpiry => exact law.pollTimerExpiry kept h
  case identify => exact law.request .identify _ _ kept h
  case softReset => exact law.request .softReset _ _ kept h
  case airStart => exact law.request .airStart _ _ kept h
  case airStop => exact law.request .airStop _ _ kept h
  case airStatus => exact law.request .airStatus _ _ kept h
  case poolStatus => exact law.request .poolStatus _ _ kept h
  case sourceConfig => exact law.request .sourceConfig _ _ kept h
  case sourceMode => exact law.request .sourceMode _ _ kept h
  case sourceMute => exact law.request .sourceMute _ _ kept h
  case sourceStatus => exact law.request .sourceStatus _ _ kept h
  case sourceLolSet => exact law.request .sourceLolSet _ _ kept h
  case channelStage => exact law.request .channelStage _ _ kept h
  case channelApply => exact law.request .channelApply _ _ kept h
  case channelClose => exact law.request .channelClose _ _ kept h
  case channelStatus => exact law.request .channelStatus _ _ kept h
  case noticePost => exact law.request .noticePost _ _ kept h
  case noticeCancel => exact law.request .noticeCancel _ _ kept h
  case noticeStatus => exact law.request .noticeStatus _ _ kept h
  case schedConfig => exact law.request .schedConfig _ _ kept h
  case rackDefine => exact law.request .rackDefine _ _ kept h
  case rackRemove => exact law.request .rackRemove _ _ kept h
  case slotStatus => exact law.request .slotStatus _ _ kept h
  case slotClearFault => exact law.request .slotClearFault _ _ kept h
  case rackBudget => exact law.request .rackBudget _ _ kept h
  case chargeConfig => exact law.request .chargeConfig _ _ kept h
  case deviceRead => exact law.request .deviceRead _ _ kept h
  case deviceForget => exact law.request .deviceForget _ _ kept h
  case groupOpen => exact law.request .groupOpen _ _ kept h
  case groupClose => exact law.request .groupClose _ _ kept h
  case groupStatus => exact law.request .groupStatus _ _ kept h
  case issue => exact law.request .issue _ _ kept h
  case issueCancel => exact law.request .issueCancel _ _ kept h
  case issueStatus => exact law.request .issueStatus _ _ kept h
  case eventRead => exact law.request .eventRead _ _ kept h
  case eventClear => exact law.request .eventClear _ _ kept h
  case eventSet => exact law.request .eventSet _ _ kept h
  case eventEnable => exact law.request .eventEnable _ _ kept h
  case eventDisable => exact law.request .eventDisable _ _ kept h

theorem step {s t : State} (kept : P s) (h : Machine.step s = .next t) : P t := by
  unfold Machine.step at h
  split at h
  · exact of_next kept h
  · next c rest _ => exact law.exec c (law.moored kept ((Moored.refl s).aside rfl : Moored s { s with pending := rest })) h

end

end DockLaw

end Sys2Proof.Machine
end

section
/-! PROOF. The records of the racks, the class queues, the device table and the issue operations keep their shape under every command (R114,
R116, R145, R152). -/

namespace Sys2Proof.Machine

namespace Records

section
variable {s t u : State}

theorem minor (h : Records s t) (g : Minor t u) : Records s u := h.trans g.toRecords

theorem charging (h : Records s t) (g : Charging t u) : Records s u := h.trans g.records

/-! ## Slots emptied, faulted and occupied -/

theorem emptiedDevice {reason : EmptyReason} {a : SlotAddr} (h : Records s t) : Records s (Machine.emptiedDevice reason a t) := by
  unfold Machine.emptiedDevice
  (repeat' split)
  · exact h
  · exact h.modDevice fun _ => rfl
  · exact .raise (h.modDevice (f := Device.unseen) fun _ => rfl)
  · exact h.modDevice (f := Device.unseen) fun _ => rfl
  · exact h
  · exact h

theorem emptySlot {reason : EmptyReason} {a : SlotAddr} (h : Records s t) : Records s (Machine.emptySlot reason a t) := by
  unfold Machine.emptySlot
  split
  · exact h
  · next x slot =>
    split
    · exact h
    · have ended : Minor t (Machine.emptiedReservation a (Machine.endCharging a (Machine.discardSlot a true t))) :=
        .emptiedReservation (.charging (Minor.refl t).discardSlot (Charging.refl _).endCharging)
      have emptied : Records t (Machine.emptiedDevice reason a (Machine.emptiedReservation a (Machine.endCharging a
        (Machine.discardSlot a true t)))) := ended.toRecords.emptiedDevice
      refine h.trans (emptied.slotWritten ?_)
      rw [emptied.slot, slot]
      rfl

theorem markFault {a : SlotAddr} {cause : FaultCause} (h : Records s t) : Records s (Machine.markFault a cause t) := by
  have marked : Records s (t.modSlot a fun x => { x with occupancy := .fault, faultCause := some cause }) := h.modSlot
  cases cause with
  | timeout | device => exact marked.raise
  | fleetFull => exact marked

theorem enterFault {a : SlotAddr} {cause : FaultCause} (h : Records s t) : Records s (Machine.enterFault a cause t) :=
  h.markFault.minor (enterFault_minor a cause t)

theorem scanPosition {w : RackWindow} {params : List Byte} {a : SlotAddr} (h : Records s t) :
    Records s (Machine.scanPosition w params a t) := by
  unfold Machine.scanPosition
  dsimp only
  (repeat' split)
  · exact h
  · exact .ask h.modSlot
  · exact h
  · exact h
  · exact h.ask
  · exact h.emptySlot
  · exact h
  · exact h.emptySlot

theorem scanComplete {r : RackId} {params : List Byte} (h : Records s t) : Records s (Machine.scanComplete r params t) := by
  unfold Machine.scanComplete
  split
  · exact h
  · next w rack =>
    refine .forEach (fun a u g => g.minor (Minor.refl u).clearOwed) _ (.forEach (fun a u g => g.scanPosition) _ ?_)
    exact h.modRack (fun _ => rfl) fun _ => rfl

theorem occupySlot {a : SlotAddr} {id : DeviceId} {kind : DeviceKind} {level : Nat} (h : Records s t) :
    Records s (Machine.occupySlot a id kind level t) := h.modSlot.modDevice fun _ => rfl

theorem storeLevel {a : SlotAddr} {level : Nat} (h : Records s t) : Records s (Machine.storeLevel a level t) := by
  unfold Machine.storeLevel
  dsimp only
  split
  · exact h.modSlot.modDevice fun _ => rfl
  · exact h.modSlot

/-! ## Sources told of the roster -/

theorem sourceOff {k : SourceId} (h : Records s t) : Records s (Machine.sourceOff k t) := by
  unfold Machine.sourceOff
  split
  · exact h
  · exact h.of_eq rfl rfl rfl rfl rfl fun _ => ⟨rfl, rfl⟩

theorem sourceWaiting {k : SourceId} (h : Records s t) : Records s (Machine.sourceWaiting k t) := by
  unfold Machine.sourceWaiting
  split
  · exact h.of_eq rfl rfl rfl rfl rfl fun _ => ⟨rfl, rfl⟩
  · exact h

theorem setRoster {k : RosterId} {x : RosterEntry} (h : Records s t) : Records s (t.setRoster k x) :=
  h.of_eq rfl rfl rfl rfl rfl fun _ => ⟨rfl, rfl⟩

theorem bindRoster {k : RosterId} {id : DeviceId} (h : Records s t) : Records s (Machine.bindRoster k id t) := by
  unfold Machine.bindRoster
  dsimp only
  split
  · exact h.setRoster.sourceWaiting
  · exact h.setRoster

theorem unbindRoster {k : RosterId} (h : Records s t) : Records s (Machine.unbindRoster k t) := h.setRoster.sourceOff

/-! ## Groups -/

/-- A group without an operation is written. -/
theorem idleGroup (h : Records s t) {g : GroupId} {x : Group}
    (idle : IssuesSound t → x.issueHandle = none ∧ ∀ o ∈ t.ops, o.group ≠ g) : Records s (t.setGroup g x) := by
  refine h.trans ⟨fun _ => rfl, fun _ => rfl, (refl t).members, fun _ few => few, fun _ _ => .inl, id, fun sound => ?_⟩
  obtain ⟨handle, absent⟩ := idle sound
  obtain ⟨few, nodup, each⟩ := sound
  refine ⟨few, nodup, fun k => ?_⟩
  rw [show (t.setGroup g x).groups[k] = if k = g then x else t.groups[k] from get_set_cases ..]
  split
  · next here => exact ⟨fun ⟨o, mem, same⟩ => absurd (same.trans here) (absent o mem), fun _ => handle⟩
  · exact each k

theorem modBound {c : ChannelId} {f : Nat → Nat} (h : Records s t) : Records s (t.modBound c f) :=
  h.of_eq rfl rfl rfl rfl rfl fun _ => ⟨rfl, rfl⟩

theorem freeGroup {g : GroupId} (h : Records s t) (idle : IssuesSound t → t.groups[g].issueHandle = none ∧ ∀ o ∈ t.ops, o.group ≠ g) :
    Records s (Machine.freeGroup g t) := by
  have freed : Records s (t.setGroup g { t.groups[g] with state := .free, channel := none }) := h.idleGroup idle
  unfold Machine.freeGroup
  dsimp only
  split
  · exact freed.modBound
  · exact freed

end

end Records

/-- A group that is not OPEN has no operation (R152). -/
theorem IssuesSound.idle {s : State} (sound : IssuesSound s) {g : GroupId} (state : s.groups[g].state ≠ .opened) :
    s.groups[g].issueHandle = none ∧ ∀ o ∈ s.ops, o.group ≠ g := by
  have absent : ∀ o ∈ s.ops, o.group ≠ g := fun o mem same => state ((sound.2.2 g).1 ⟨o, mem, same⟩).1
  exact ⟨(sound.2.2 g).2 absent, absent⟩

/-- A group without an issue handle has no operation (R152). -/
theorem IssuesSound.absent {s : State} (sound : IssuesSound s) {g : GroupId} (handle : s.groups[g].issueHandle = none) :
    ∀ o ∈ s.ops, o.group ≠ g := by
  intro o mem same
  have held := ((sound.2.2 g).1 ⟨o, mem, same⟩).2
  rw [handle] at held
  cases held

namespace Records

section
variable {s t u : State}

theorem closeIfEmpty {g : GroupId} (h : Records s t) : Records s (Machine.closeIfEmpty g t) := by
  unfold Machine.closeIfEmpty
  dsimp only
  split
  · next closes => exact .raise (h.freeGroup fun sound => sound.idle (by rw [closes.1]; exact nofun))
  · exact h

/-! ## Completions and timeouts -/

theorem returnDevice {d : Device} {a : SlotAddr} {level : Nat} (h : Records s t) : Records s (Machine.returnDevice d a level t) := by
  unfold Machine.returnDevice
  split
  · exact h.modDevice fun _ => rfl
  · next asg _ =>
    dsimp only
    have counted : Records s (t.setGroup asg.group { t.groups[asg.group] with outCount := t.groups[asg.group].outCount - 1 }) :=
      h.setGroup rfl rfl
    refine .closeIfEmpty (.raise (.modDevice ?_ ?_))
    · split
      · exact counted.unbindRoster
      · exact counted
    · exact fun _ => rfl

theorem probeOutcome {a : SlotAddr} {id : DeviceId} {kind : DeviceKind} {level : Nat} (h : Records s t) (named : id ≠ 0) :
    Records s (Machine.probeOutcome a id kind level t) := by
  unfold Machine.probeOutcome
  split
  · next new =>
    split
    · next room =>
      refine .charging (.occupySlot (h.trans (u := { t with devices := t.devices ++ [_] }) ?_)) (Charging.refl _).enterCharging
      refine ⟨fun _ => rfl, fun _ => rfl, (refl t).members, fun _ few => few, fun _ _ => .inl, fun sound => ?_, fun h => h⟩
      obtain ⟨few, nodup, zero⟩ := sound
      refine ⟨?_, ?_, fun d mem => ?_⟩
      · rw [List.length_append]
        exact room
      · rw [List.map_append, List.nodup_append]
        refine ⟨nodup, List.nodup_singleton _, fun i there j here => ?_⟩
        rw [List.map_singleton, List.mem_singleton] at here
        obtain ⟨d, mem, rfl⟩ := List.mem_map.mp there
        rintro rfl
        have absent := List.find?_eq_none.mp new d mem
        simp [here] at absent
      · rcases List.mem_append.mp mem with old | new
        · exact zero d old
        · rw [List.mem_singleton.mp new]
          exact named
    · exact h.modSlot.enterFault.raise
  · split
    · exact .charging (.minor h.returnDevice.occupySlot (Minor.refl _).requestClear) (Charging.refl _).enterCharging
    · have docked : Records s (t.modDevice id fun x => { x with state := .docked, slot := some a }) := h.modDevice fun _ => rfl
      exact docked.occupySlot.charging (Charging.refl _).enterCharging

theorem probeComplete {a : SlotAddr} {params : List Byte} (h : Records s t) : Records s (Machine.probeComplete a params t) := by
  unfold Machine.probeComplete
  extract_lets id s1
  have emptied : Records s s1 := by
    unfold s1
    split
    · exact h.emptySlot
    · exact h
  split
  · exact h.modSlot.enterFault
  · split
    · exact h.modSlot.enterFault
    · next good => exact emptied.probeOutcome fun zero => good (.inr zero)

theorem pollComplete {a : SlotAddr} {params : List Byte} (h : Records s t) : Records s (Machine.pollComplete a params t) := by
  unfold Machine.pollComplete
  dsimp only
  split
  · exact h.storeLevel.enterFault
  · exact h.storeLevel.charging (Charging.refl _).judgePoll

theorem issueDevice {g : GroupId} {o : IssueOperation} {a : SlotAddr} {id : DeviceId} (h : Records s t) :
    Records s (Machine.issueDevice g o a id t) := by
  unfold Machine.issueDevice
  extract_lets c tuned s1 s2 x s3 s4
  have out : Records s s1 := h.modDevice fun _ => rfl
  have given : Records s s2 := out.modOp fun _ => rfl
  have counted : Records s s3 := given.setGroup rfl rfl
  have handed : Records s s4 := counted.modSlot
  split
  · exact handed.bindRoster
  · exact handed

theorem releaseAnswered {a : SlotAddr} (h : Records s t) : Records s (Machine.releaseAnswered a t) := by
  unfold Machine.releaseAnswered
  split
  · exact h
  · split
    · dsimp only
      split
      · exact h.issueDevice.minor (Minor.refl _).completeOp
      · exact h.issueDevice.minor (Minor.refl _).nextOrComplete
    · exact h

theorem complete {e : Exchange} {params : List Byte} (h : Records s t) : Records s (Machine.complete e params t) := by
  have timed (a : SlotAddr) : Records s (setTimeouts a 0 t) := h.modSlot
  cases e with
  | scan r => exact h.scanComplete
  | probe a => exact (timed a).probeComplete
  | poll a => exact (timed a).pollComplete
  | setCharge a m => exact (timed a).storeLevel
  | tune a c g k => exact (timed a).storeLevel.minor (Minor.refl _).tuneAnswered
  | release a => exact (timed a).storeLevel.releaseAnswered
  | clear a id => exact (timed a).minor (Minor.refl _).setClear

theorem slotTimeout {e : Exchange} {a : SlotAddr} (h : Records s t) : Records s (Machine.slotTimeout e a t) := by
  unfold Machine.slotTimeout
  split
  · have missed : Records s (deliverTimeout e (Machine.raise .dockTimeout a.val e.code (setTimeouts a 1 t))) :=
      .minor (.raise h.modSlot) (Minor.refl _).deliverTimeout
    unfold probeAgain
    split
    · exact missed.ask
    · exact missed
  · exact .minor (.enterFault h.modSlot) (Minor.refl _).deliverTimeout

theorem scanTimeout {r : RackId} (h : Records s t) : Records s (Machine.scanTimeout r t) := by
  unfold Machine.scanTimeout
  (repeat' split)
  · exact h
  · exact h
  · exact h.modRack (fun _ => rfl) fun _ => rfl
  · refine .forEach (fun _ _ g => g.emptySlot) _ (.raise (h.modRack ?_ ?_))
    · exact fun _ => rfl
    · exact fun _ => rfl

/-! ## Budgets -/

theorem shedLoop {n : Nat} {r : RackId} (h : Records s t) : Records s (Machine.shedLoop n r t).2 := h.charging (Charging.refl _).shedLoop

/-- The shed slots, which had sessions, are handed back to the shed part (R142). -/
theorem shed {r : RackId} (h : Records s t) : Records s (Machine.shed r t).2 := by
  unfold Machine.shed
  split
  · exact h
  · next w rack =>
    dsimp only
    have looped : Records t (Machine.shedLoop w.sessions.length r t).2 := (refl t).shedLoop
    split
    · exact h.trans looped
    · refine h.trans (.charging (.raise ?_) (Charging.refl _).attempt)
      generalize (Machine.shedLoop w.sessions.length r t).1 = gone
      generalize (Machine.shedLoop w.sessions.length r t).2 = m at looped
      have at_rack (q : RackId) : (m.modRack r fun v => { v with shedPart := w.sessions.filter (fun a => a ∈ gone) ++ v.shedPart }).racks[q] =
        if q = r then (m.racks[r]).map fun v => { v with shedPart := w.sessions.filter (fun a => a ∈ gone) ++ v.shedPart } else m.racks[q] :=
        get_set_cases ..
      refine { looped with place := fun q => ?_, members := fun q x v before after a mem => ?_ }
      · rw [at_rack, ← looped.place q]
        split
        · next here =>
          subst here
          rw [Option.map_map]
          rfl
        · rfl
      · rw [at_rack] at after
        split at after
        · next here =>
          subst here
          obtain rfl := Option.some.inj (rack.symm.trans before)
          obtain ⟨y, middle, rfl⟩ := Option.map_eq_some_iff.mp after
          simp only [RackWindow.members, RackWindow.admission, List.append_assoc, List.mem_append, List.mem_filter] at mem
          have kept := looped.members q w y before middle a
          simp only [RackWindow.members, RackWindow.admission, List.mem_append] at kept ⊢
          tauto
        · exact looped.members q x v before after a mem

end

end Records

/-! ## The law that every command keeps -/

/-- The records as R114, R116, R145 and R152 bound them. -/
def RecordsSound (s : State) : Prop := WindowsSound s ∧ DevicesSound s ∧ IssuesSound s

theorem Records.sound {s t : State} (h : Records s t) (sound : RecordsSound s) : RecordsSound t := by
  obtain ⟨windows, devices, issues⟩ := sound
  exact ⟨h.windows windows, h.devices devices, h.issues issues⟩

/-! ### Windows defined and removed (R114, R122) -/

/-- One record is written at each of these addresses. -/
theorem forEach_setSlot (l : List SlotAddr) (x : Option Slot) (s : State) : forEach l (fun a t => t.setSlot a x) s =
    { s with slots := Vector.ofFn fun a : SlotAddr => if a ∈ l then x else s.slots[a] } := by
  have at_slot (v : SlotAddr → Option Slot) (a : SlotAddr) : (Vector.ofFn v)[a] = v a := by simp
  induction l generalizing s with
  | nil =>
    have same : (Vector.ofFn fun a : SlotAddr => if a ∈ ([] : List SlotAddr) then x else s.slots[a]) = s.slots := by
      ext i hi
      simp
    rw [same]
    rfl
  | cons b l ih =>
    rw [forEach_cons, ih]
    have same : (Vector.ofFn fun a : SlotAddr => if a ∈ l then x else (s.setSlot b x).slots[a]) =
        Vector.ofFn fun a : SlotAddr => if a ∈ b :: l then x else s.slots[a] := by
      refine congrArg Vector.ofFn (funext fun a => ?_)
      rw [show (s.setSlot b x).slots[a] = if a = b then x else s.slots[a] from get_set_cases ..]
      by_cases there : a ∈ l
      · rw [if_pos there, if_pos (List.mem_cons_of_mem b there)]
      · by_cases here : a = b
        · rw [if_neg there, if_pos here, if_pos (here ▸ List.mem_cons_self)]
        · rw [if_neg there, if_neg here, if_neg (by simp [there, here])]
    rw [same]
    rfl

/-- The slots when one record has been written at each address of a window. -/
theorem forEach_addresses (w : RackWindow) (x : Option Slot) (s : State) : forEach w.addresses (fun a t => t.setSlot a x) s =
    { s with slots := Vector.ofFn fun a : SlotAddr => if w.holds a then x else s.slots[a] } := by
  rw [forEach_setSlot]
  simp only [mem_addresses]

theorem ofFn_get {α : Type} {n : Nat} (f : Fin n → α) (k : Fin n) : (Vector.ofFn f)[k] = f k := by simp

/-- A window on free addresses joins the others, and its slot records stand (R114). -/
theorem WindowsSound.define {s : State} (sound : WindowsSound s) {r : RackId} {w : RackWindow} {x : Slot} (free : s.racks[r] = none)
    (legal : w.size ∈ [4, 8, 16, 32] ∧ w.base % w.size = 0 ∧ w.base + w.size ≤ 256 ∧ w.settle ≤ 15 ∧ w.budget ≤ 10000)
    (idle : w.members = []) (apart : ∀ (q : RackId) (v : RackWindow) (a : SlotAddr), s.racks[q] = some v → v.holds a = true → w.holds a = false) :
    WindowsSound (forEach w.addresses (fun a t => t.setSlot a (some x)) (s.setRack r (some w))) := by
  obtain ⟨each, distinct, slots, queues⟩ := sound
  rw [forEach_addresses]
  have at_rack (q : RackId) : (s.racks.set r (some w))[q] = if q = r then some w else s.racks[q] := get_set_cases ..
  have window {q : RackId} {v : RackWindow} (there : (s.racks.set r (some w))[q] = some v) : (q = r ∧ v = w) ∨ s.racks[q] = some v := by
    rw [at_rack] at there
    split at there
    · next here => exact .inl ⟨here, (Option.some.inj there).symm⟩
    · exact .inr there
  refine ⟨fun q v there => ?_, fun q p v here u there a inV inU => ?_, fun a => ?_, queues⟩
  · rcases window there with ⟨-, rfl⟩ | old
    · obtain ⟨size, base, room, settle, budget⟩ := legal
      refine ⟨size, base, room, settle, budget, fun a mem => ?_⟩
      rw [show v.sessions ++ v.admission = [] from idle] at mem
      cases mem
    · exact each q v old
  · rcases window here with ⟨rfl, rfl⟩ | old
    · rcases window there with ⟨rfl, -⟩ | young
      · rfl
      · have := apart p u a young inU
        rw [inV] at this
        cases this
    · rcases window there with ⟨rfl, rfl⟩ | young
      · have := apart q v a old inV
        rw [inU] at this
        cases this
      · exact distinct q p v old u young a inV inU
  · dsimp only
    rw [ofFn_get]
    by_cases held : w.holds a = true
    · rw [if_pos held]
      exact iff_of_true (Option.some_ne_none x) ⟨r, w, get_set_same .., held⟩
    · rw [if_neg held]
      refine (slots a).trans (exists_congr fun q => ⟨fun ⟨v, old, holds⟩ => ⟨v, ?_, holds⟩, fun ⟨v, there, holds⟩ => ?_⟩)
      · change (s.racks.set r (some w))[q] = some v
        rw [at_rack, if_neg]
        · exact old
        · rintro rfl
          rw [Option.mem_def.mp old] at free
          cases free
      · rcases window there with ⟨-, rfl⟩ | old
        · exact absurd holds held
        · exact ⟨v, old, holds⟩

/-- A window leaves with its slot records (R122). -/
theorem WindowsSound.remove {s : State} (sound : WindowsSound s) {r : RackId} {w v : RackWindow} (rack : s.racks[r] = some v)
    (place : v.place = w.place) : WindowsSound ((forEach w.addresses (fun a t => t.setSlot a none) s).setRack r none) := by
  obtain ⟨each, distinct, slots, queues⟩ := sound
  rw [forEach_addresses]
  have window {q : RackId} {u : RackWindow} (there : (s.racks.set r none)[q] = some u) : q ≠ r ∧ s.racks[q] = some u := by
    rw [get_set_cases] at there
    split at there
    · cases there
    · next other => exact ⟨other, there⟩
  refine ⟨fun q u there => each q u (window there).2, fun q p u here x there a inU inX =>
    distinct q p u (window here).2 x (window there).2 a inU inX, fun a => ?_, queues⟩
  change (Vector.ofFn fun a : SlotAddr => if w.holds a = true then none else s.slots[a])[a] ≠ none ↔ _
  rw [ofFn_get]
  by_cases held : w.holds a = true
  · rw [if_pos held]
    refine iff_of_false (fun absurd => absurd rfl) ?_
    rintro ⟨q, u, there, holds⟩
    obtain ⟨other, old⟩ := window there
    exact other (distinct q r u old v rack a holds ((holds_of_place place a).trans held))
  · rw [if_neg held]
    refine (slots a).trans (exists_congr fun q => ⟨fun ⟨u, old, holds⟩ => ⟨u, ?_, holds⟩, fun ⟨u, there, holds⟩ => ⟨u, (window there).2, holds⟩⟩)
    refine (get_set_other _ _ _ _ ?_).trans old
    rintro rfl
    obtain rfl := Option.some.inj (rack.symm.trans old)
    exact held ((holds_of_place place a).symm.trans holds)

/-! ### The commands -/

theorem recordsSound_moored {s t : State} (sound : RecordsSound s) (h : Moored s t) : RecordsSound t := by
  obtain ⟨windows, devices, issues⟩ := sound
  refine ⟨(windowsSound_dock t).mp ?_, (devicesSound_dock t).mp ?_, (issuesSound_dock t).mp ?_⟩
  · exact h ▸ (windowsSound_dock s).mpr windows
  · exact h ▸ (devicesSound_dock s).mpr devices
  · exact h ▸ (issuesSound_dock s).mpr issues

theorem softReset_records (s : State) : Records s (softReset s) := by
  have blocks : Records s (softResetBlocks s) := by
    have at_rack (r : RackId) : (softResetBlocks s).racks[r] = (s.racks[r]).map RackWindow.softReset := mapAll_get ..
    have at_group (g : GroupId) : (softResetBlocks s).groups[g] = (s.groups[g]).softReset := mapAll_get ..
    refine ⟨fun a => ?_, fun r => ?_, fun r w v before after a mem => ?_, fun q _ => ?_, fun q e mem => ?_, fun sound => ?_, fun _ => ?_⟩
    · rw [slot_softReset, Option.isSome_map]
    · rw [at_rack, Option.map_map]
      rfl
    · rw [at_rack, before] at after
      rw [← Option.some.inj after] at mem
      cases mem
    · rw [show (softResetBlocks s).bus.queues[q] = [] from idle_queue ..]
      exact Nat.zero_le _
    · rw [show (softResetBlocks s).bus.queues[q] = [] from idle_queue ..] at mem
      cases mem
    · exact sound.congr (List.map_map ..)
    · refine ⟨Nat.zero_le _, List.nodup_nil, fun g => ⟨fun ⟨o, mem, _⟩ => ?_, fun _ => ?_⟩⟩
      · cases mem
      · rw [at_group]
        rfl
  exact blocks.forEach (fun _ _ g => g.ask) _

theorem exchangeStart_records {s t : State} (h : exec .exchangeStart s = .next t) : Records s t := by
  change execExchangeStart s = _ at h
  unfold execExchangeStart at h
  split at h
  · next e _ _ =>
    injection h with h
    rw [← h]
    exact (Records.refl s).unqueue (e := e) |>.of_eq rfl rfl rfl rfl rfl fun _ => ⟨rfl, rfl⟩
  · injection h with h
    exact h ▸ .refl s

theorem freeBus_records (s : State) : Records s (freeBus s) := (Records.refl s).of_eq rfl rfl rfl rfl rfl fun _ => ⟨rfl, rfl⟩

theorem exchangeComplete_records {s t : State} (h : exec .exchangeComplete s = .next t) : Records s t := by
  have freed := freeBus_records s
  change execExchangeComplete s = _ at h
  unfold execExchangeComplete at h
  (repeat' split at h) <;> injection h with h <;> rw [← h]
  · exact .refl s
  · exact .refl s
  · exact freed.minor (Minor.refl _).deliverDiscarded
  · exact freed.complete

theorem exchangeTimeout_records {s t : State} (h : exec .exchangeTimeout s = .next t) : Records s t := by
  have freed := freeBus_records s
  change execExchangeTimeout s = _ at h
  unfold execExchangeTimeout at h
  (repeat' split at h) <;> injection h with h <;> rw [← h]
  · exact .refl s
  · exact .refl s
  · exact freed.minor (Minor.refl _).deliverDiscarded
  · exact freed.scanTimeout
  · exact freed.slotTimeout
  · exact freed

/-! ### The requests -/

section
variable (body : List Byte) {s : State}

/-- The legal sizes and bases of R114 keep a window within the address space. -/
theorem window_within {base size : Nat} (legal : size ∈ rackSizes) (aligned : base % size = 0) (byte : base < 256) : base + size ≤ 256 := by
  simp only [rackSizes, List.mem_cons, List.not_mem_nil, or_false] at legal
  rcases legal with rfl | rfl | rfl | rfl <;> omega

theorem apart_of_overlaps {base size : Nat} (apart : ¬overlaps base size s = true) {q : RackId} {v : RackWindow} {a : SlotAddr}
    (rack : s.racks[q] = some v) (holds : v.holds a = true) : ¬(base ≤ a.val ∧ a.val < base + size) := by
  intro inside
  refine apart (List.any_eq_true.mpr ⟨q, List.mem_finRange q, ?_⟩)
  rw [rack]
  have := holds_iff.mp holds
  exact decide_eq_true ⟨by omega, by omega⟩

theorem takeRackDefine_recordsSound (sound : RecordsSound s) : RecordsSound (takeRackDefine body s).1 := by
  obtain ⟨windows, devices, issues⟩ := sound
  unfold takeRackDefine
  split
  · exact ⟨windows, devices, issues⟩
  · next r _ =>
    dsimp only
    generalize money : (if body.length = 6 then min 10000 (field16 body 4) else 2000) = budget
    have rich : budget ≤ 10000 := by
      rw [← money]
      split
      · exact Nat.min_le_left ..
      · decide
    split
    · exact ⟨windows, devices, issues⟩
    · next free =>
      split
      · exact ⟨windows, devices, issues⟩
      · next values =>
        split
        · exact ⟨windows, devices, issues⟩
        · next apart =>
          simp only [not_or, not_not, Nat.not_lt] at values
          obtain ⟨size, aligned, settle⟩ := values
          have none_there : s.racks[r] = none := by simpa using free
          have within := window_within size aligned (BitVec.isLt _)
          refine Records.sound (.ask (.refl _)) ⟨windows.define none_there ⟨size, aligned, within, settle, rich⟩ rfl fun q v a rack holds => ?_, ?_, ?_⟩
          · have out := apart_of_overlaps apart rack holds
            rw [Bool.eq_false_iff, ne_eq, holds_iff]
            exact out
          · rw [forEach_addresses]
            exact devices
          · rw [forEach_addresses]
            exact issues

theorem removeRack_recordsSound {r : RackId} {w : RackWindow} (rack : s.racks[r] = some w) (sound : RecordsSound s) :
    RecordsSound (removeRack r w s) := by
  unfold removeRack
  extract_lets s1 s2
  have doomed : Records s s1 := by
    have stopped : Records s (s.modRack r fun v => { v with scanTimer := false }) := (Records.refl s).modRack (fun _ => rfl) fun _ => rfl
    exact (stopped.minor (Minor.refl _).discardWhere).of_eq rfl rfl rfl rfl rfl fun _ => ⟨rfl, rfl⟩
  have emptied : Records s s2 := doomed.forEach (fun _ _ g => g.emptySlot) _
  obtain ⟨windows, devices, issues⟩ := emptied.sound sound
  have place := emptied.place r
  rw [rack] at place
  obtain ⟨v, there, same⟩ := Option.map_eq_some_iff.mp place
  refine ⟨windows.remove there same, ?_, ?_⟩
  · rw [forEach_addresses]
    exact devices
  · rw [forEach_addresses]
    exact issues

theorem takeRackRemove_recordsSound (sound : RecordsSound s) : RecordsSound (takeRackRemove body s).1 := by
  unfold takeRackRemove
  split
  · exact sound
  · split
    · exact sound
    · next w rack =>
      split
      · exact sound
      · exact removeRack_recordsSound rack sound

/-- A budget within R141's bound leaves the window legal. -/
theorem WindowsSound.rebudget (sound : WindowsSound s) (r : RackId) {budget : Nat} (rich : budget ≤ 10000) :
    WindowsSound (s.modRack r fun v => { v with budget := budget }) := by
  obtain ⟨each, distinct, slots, queues⟩ := sound
  have at_rack (q : RackId) : (s.modRack r fun v => { v with budget := budget }).racks[q] =
      if q = r then (s.racks[r]).map fun v => { v with budget := budget } else s.racks[q] := get_set_cases ..
  have window {q : RackId} {v : RackWindow} (there : (s.modRack r fun v => { v with budget := budget }).racks[q] = some v) :
      ∃ w, s.racks[q] = some w ∧ (v = { w with budget := budget } ∨ v = w) := by
    rw [at_rack] at there
    split at there
    · next here =>
      subst here
      obtain ⟨w, old, rfl⟩ := Option.map_eq_some_iff.mp there
      exact ⟨w, old, .inl rfl⟩
    · exact ⟨v, there, .inr rfl⟩
  refine ⟨fun q v there => ?_, fun q p v here u there a inV inU => ?_, fun a => (slots a).trans (exists_congr fun q => ?_), queues⟩
  · obtain ⟨w, old, rfl | rfl⟩ := window there
    · obtain ⟨size, base, room, settle, -, lists⟩ := each q w old
      exact ⟨size, base, room, settle, rich, lists⟩
    · exact each q v old
  · obtain ⟨w, old, rfl | rfl⟩ := window here <;> obtain ⟨x, young, rfl | rfl⟩ := window there <;>
      exact distinct q p _ old _ young a inV inU
  · constructor
    · rintro ⟨w, old, holds⟩
      by_cases here : q = r
      · subst here
        exact ⟨{ w with budget := budget }, by rw [Option.mem_def, at_rack, if_pos rfl, Option.mem_def.mp old, Option.map_some], holds⟩
      · exact ⟨w, by rw [Option.mem_def, at_rack, if_neg here]; exact old, holds⟩
    · rintro ⟨v, there, holds⟩
      obtain ⟨w, old, rfl | rfl⟩ := window there
      · exact ⟨w, old, holds⟩
      · exact ⟨v, old, holds⟩

theorem takeRackBudget_recordsSound (sound : RecordsSound s) : RecordsSound (takeRackBudget body s).1 := by
  unfold takeRackBudget
  split
  · exact sound
  · next r _ =>
    split
    · exact sound
    · next w _ =>
      dsimp only
      split
      · have written : RecordsSound (s.modRack r fun v => { v with budget := min 10000 (field16 body 1) }) :=
          ⟨sound.1.rebudget r (Nat.min_le_left ..), sound.2⟩
        unfold writeBudget
        dsimp only
        split
        · exact (Records.refl _).shed.sound written
        · split
          · exact ((Charging.refl _).attempt.records).sound written
          · exact written
      · exact sound

theorem takeChargeConfig_records : Records s (takeChargeConfig body s).1 := by
  unfold takeChargeConfig
  dsimp only
  split
  · exact .refl s
  · refine .forEach (fun _ u g => g.charging (Charging.refl u).attempt) _ ?_
    exact (Records.refl s).of_eq rfl rfl rfl rfl rfl fun _ => ⟨rfl, rfl⟩

theorem clearFault_records (a : SlotAddr) : Records s (clearFault a s) := by
  unfold clearFault
  refine .ask (.modSlot ?_)
  split
  · split
    · exact (Records.refl s).modDevice (f := Device.unseen) fun _ => rfl
    · exact .refl s
  · exact .refl s

theorem takeSlotClearFault_records : Records s (takeSlotClearFault body s).1 := by
  unfold takeSlotClearFault
  split
  · exact .refl s
  · split
    · exact .refl s
    · split
      · exact .refl s
      · exact clearFault_records _

theorem takeDeviceForget_records : Records s (takeDeviceForget body s).1 := by
  unfold takeDeviceForget
  split
  · exact .refl s
  · split
    · exact .refl s
    · refine ⟨fun _ => rfl, fun _ => rfl, (Records.refl s).members, fun _ few => few, fun _ _ => .inl, fun sound => ?_, fun h => h⟩
      obtain ⟨few, nodup, zero⟩ := sound
      exact ⟨(List.length_filter_le ..).trans few, nodup.sublist (List.filter_sublist.map _), fun e mem => zero e (List.mem_filter.mp mem).1⟩

theorem takeGroupOpen_records : Records s (takeGroupOpen body s).1 := by
  unfold takeGroupOpen
  split
  · next g c _ _ =>
    split
    · exact .refl s
    · next free =>
      split
      · exact .refl s
      · refine .modBound ((Records.refl s).idleGroup fun sound => ⟨rfl, (sound.idle ?_).2⟩)
        rw [not_not.mp free]
        exact nofun
  · exact .refl s

theorem takeGroupClose_records : Records s (takeGroupClose body s).1 := by
  unfold takeGroupClose
  split
  · exact .refl s
  · next g _ =>
    dsimp only
    split
    · exact .refl s
    · split
      · exact .refl s
      · next quiet =>
        have handle : s.groups[g].issueHandle = none := by simpa using quiet
        split
        · exact (Records.refl s).freeGroup fun sound => ⟨handle, sound.absent handle⟩
        · exact (Records.refl s).idleGroup fun sound => ⟨handle, sound.absent handle⟩

/-- An operation is created for an OPEN group without one, while fewer than four run (R152). -/
theorem createOp_records {g : GroupId} (opened : s.groups[g].state = .opened) (idle : s.groups[g].issueHandle = none)
    (room : s.ops.length < 4) : Records s (createOp g body s) := by
  unfold createOp
  extract_lets o x s1 s2
  have s2_eq : ∃ entries, s2 = { s1 with roster := entries } := by
    unfold s2
    split
    · exact ⟨_, rfl⟩
    · exact ⟨_, rfl⟩
  obtain ⟨entries, s2_eq⟩ := s2_eq
  rw [s2_eq]
  refine ⟨fun _ => rfl, fun _ => rfl, (Records.refl s).members, fun _ few => few, fun _ _ => .inl, fun h => h, fun sound => ?_⟩
  have absent := sound.absent idle
  obtain ⟨few, nodup, each⟩ := sound
  refine ⟨?_, ?_, fun k => ?_⟩
  · change (s.ops ++ [o]).length ≤ 4
    rw [List.length_append]
    exact room
  · change ((s.ops ++ [o]).map IssueOperation.group).Nodup
    rw [List.map_append, List.nodup_append]
    refine ⟨nodup, List.nodup_singleton _, fun i there j here => ?_⟩
    obtain ⟨p, mem, rfl⟩ := List.mem_map.mp there
    rw [List.mem_singleton.mp here]
    exact absent p mem
  · change ((∃ p ∈ s.ops ++ [o], p.group = k) → (s1.groups[k]).state = .opened ∧ (s1.groups[k]).issueHandle = some (k.val + 1)) ∧
      ((∀ p ∈ s.ops ++ [o], p.group ≠ k) → (s1.groups[k]).issueHandle = none)
    rw [show s1.groups[k] = if k = g then { s.groups[g] with issueHandle := some (handleOf g), lastIssue := none } else s.groups[k] from
      get_set_cases ..]
    by_cases here : k = g
    · rw [if_pos here]
      subst here
      exact ⟨fun _ => ⟨opened, rfl⟩, fun none_of => absurd rfl (none_of o (List.mem_append_right _ List.mem_cons_self))⟩
    · rw [if_neg here]
      refine ⟨fun ⟨p, mem, same⟩ => ?_, fun none_of => (each k).2 fun p mem => none_of p (List.mem_append_left _ mem)⟩
      rcases List.mem_append.mp mem with old | new
      · exact (each k).1 ⟨p, old, same⟩
      · rw [List.mem_singleton.mp new] at same
        exact absurd same.symm here

theorem takeIssue_records : Records s (takeIssue body s).1 := by
  unfold takeIssue
  split
  · exact .refl s
  · next g _ =>
    split
    · exact .refl s
    · split
      · exact .refl s
      · next opened =>
        split
        · exact .refl s
        · next idle =>
          split
          · exact .refl s
          · next room =>
            split
            · exact .refl s
            · refine (createOp_records body (not_not.mp opened) ?_ (Nat.not_le.mp room)).minor (Minor.refl _).chooseNext
              simpa using idle

theorem take_recordsSound {k : RequestKind} (docks : k.docks) (sound : RecordsSound s) : RecordsSound (k.take body s).1 := by
  cases k with
  | rackDefine => exact takeRackDefine_recordsSound body sound
  | rackRemove => exact takeRackRemove_recordsSound body sound
  | rackBudget => exact takeRackBudget_recordsSound body sound
  | chargeConfig => exact (takeChargeConfig_records body).sound sound
  | slotClearFault => exact (takeSlotClearFault_records body).sound sound
  | deviceForget => exact (takeDeviceForget_records body).sound sound
  | groupOpen => exact (takeGroupOpen_records body).sound sound
  | groupClose => exact (takeGroupClose_records body).sound sound
  | issue => exact (takeIssue_records body).sound sound
  | _ => exact docks.elim

end

/-- The records keep their shape under every command. -/
theorem recordsSound_law : DockLaw RecordsSound where
  moored := recordsSound_moored
  hardReset rate ready := ⟨hardReset_windowsSound rate ready, (hardReset_dockSound rate ready).deviceTable, hardReset_issuesSound rate ready⟩
  softReset := (softReset_records _).sound
  scan sound _ := (Records.refl _).ask.sound sound
  poll := (Records.refl _).ask.sound
  setCharge := (Charging.refl _).requestSetCharge.records.sound
  start sound h := (exchangeStart_records h).sound sound
  complete sound h := (exchangeComplete_records h).sound sound
  timeout sound h := (exchangeTimeout_records h).sound sound
  take body _ := take_recordsSound body

/-- Settles O48: the records' bounds are a law of the dock by themselves. -/
theorem rackAndFleetRecordsKept : Obligations.RackAndFleetRecordsKept :=
  fun _ _ windows devices issues h => recordsSound_law.step ⟨windows, devices, issues⟩ h

end Sys2Proof.Machine
end

section
/-! PROOF. Exchanges that end without an answer (R118, R119, R126), and what the emptying of a slot leaves of the others (R121). -/

namespace Sys2Proof.Machine

/-! ## A slot that no candidate has -/

theorem candidateGroup_none {a : SlotAddr} {s : State} (free : ∀ o ∈ s.ops, ∀ c, o.candidate = some c → c.slot ≠ a) (l : List Stage) :
    candidateGroup a l s = none := by
  unfold candidateGroup
  rw [Option.map_eq_none_iff, List.find?_eq_none]
  intro o mem
  cases candidate : o.candidate with
  | none => simp
  | some c => simp [free o mem c candidate]

theorem failAt_none {a : SlotAddr} {s : State} (free : ∀ o ∈ s.ops, ∀ c, o.candidate = some c → c.slot ≠ a) (l : List Stage) (b : Bool) :
    failAt a l b s = s := by
  rw [failAt, candidateGroup_none free]

/-- The devices when an exchange's end is DISCARDED: a CLEAR is owed again (R162). -/
theorem deliverDiscarded_spent {e : Exchange} {s : State}
    (free : e.queue = 1 → ∀ o ∈ s.ops, ∀ c, o.candidate = some c → e.slot? ≠ some c.slot) (b : Bool) :
    deliverDiscarded b e s =
      { s with devices := s.devices.map fun d => if ∃ a, e = .clear a d.id then { d with clearState := .owed } else d } := by
  have same (other : ∀ a id, e ≠ .clear a id) :
      { s with devices := s.devices.map fun d => if ∃ a, e = .clear a d.id then { d with clearState := .owed } else d } = s := by
    have id : (s.devices.map fun d => if ∃ a, e = .clear a d.id then { d with clearState := ClearState.owed } else d) = s.devices :=
      (List.map_congr_left fun d _ => if_neg fun ⟨a, clear⟩ => other a d.id clear).trans (List.map_id' _)
    rw [id]
  cases e with
  | tune a c g k => exact (failAt_none (fun o mem k there same => free rfl o mem k there (congrArg some same.symm)) _ b).trans (same nofun).symm
  | release a => exact (failAt_none (fun o mem k there same => free rfl o mem k there (congrArg some same.symm)) _ b).trans (same nofun).symm
  | clear a id =>
    have cleared (d : Device) : (if d.id = id then { d with clearState := ClearState.owed } else d) =
        if ∃ b, Exchange.clear a id = .clear b d.id then { d with clearState := .owed } else d := by
      by_cases named : d.id = id
      · rw [if_pos named, if_pos ⟨a, by rw [named]⟩]
      · rw [if_neg named, if_neg fun ⟨b, clear⟩ => named (Exchange.clear.inj clear).2.symm]
    exact congrArg (fun f => { s with devices := s.devices.map f }) (funext cleared)
  | scan | probe | poll | setCharge => exact (same nofun).symm

/-! ## Discarded exchanges leave their queues (R120) -/

theorem count_unqueue (e f : Exchange) (s : State) :
    ((unqueue e s).bus.queues[f.queue]).count f = (s.bus.queues[f.queue]).count f - if e = f then 1 else 0 := by
  rw [show (unqueue e s).bus.queues[f.queue] = if f.queue = e.queue then (s.bus.queues[e.queue]).erase e else s.bus.queues[f.queue] from
    get_set_cases ..]
  by_cases same : e = f
  · subst same
    rw [if_pos rfl, if_pos rfl, List.count_erase_self]
  · rw [if_neg same, Nat.sub_zero]
    split
    · next here => exact (List.count_erase_of_ne (Ne.symm same)).trans (by simp only [here])
    · rfl

/-- A discarded exchange that cannot be asked for again is gone. -/
theorem discardWhere_gone {p : Exchange → Bool} {b : Bool} {s : State} (sound : WindowsSound s) {f : Exchange} (meant : p f = true)
    (barred : f.allowed s = false) (q : Fin 6) : f ∉ (discardWhere p b s).bus.queues[q] := by
  have loop (l : List Exchange) (t : State) (barred : f.allowed t = false) :
      ((forEach l (fun e u => deliverDiscarded b e (unqueue e u)) t).bus.queues[f.queue]).count f ≤
        (t.bus.queues[f.queue]).count f - l.count f := by
    induction l generalizing t with
    | nil => exact le_refl _
    | cons e l ih =>
      have minor : Minor t (deliverDiscarded b e (unqueue e t)) := (Minor.refl t).unqueue.deliverDiscarded
      have later : Minor (unqueue e t) (deliverDiscarded b e (unqueue e t)) := (Minor.refl _).deliverDiscarded
      have fewer : ((deliverDiscarded b e (unqueue e t)).bus.queues[f.queue]).count f ≤ ((unqueue e t).bus.queues[f.queue]).count f := by
        rcases later.fresh f.queue f with few | ⟨-, allowed⟩
        · exact few
        · have before : f.allowed t = true := (allowed_congr (s := t) (t := unqueue e t) (fun _ => rfl) f).symm.trans allowed
          rw [barred] at before
          cases before
      rw [forEach_cons]
      refine (ih _ ((allowed_congr minor.plate f).trans barred)).trans ?_
      rw [count_unqueue] at fewer
      rw [List.count_cons]
      split at fewer
      · next same =>
        subst same
        simp only [beq_self_eq_true, if_true]
        omega
      · next other =>
        rw [if_neg (by simpa using other)]
        omega
  have windows : WindowsSound (discardWhere p b s) := (Minor.refl s).discardWhere.windows sound
  by_cases own : f.queue = q
  · subst own
    rw [← List.count_eq_zero]
    have left := loop (queuedWhere p s) s barred
    have all : (s.bus.queues[f.queue]).count f ≤ (queuedWhere p s).count f := by
      unfold queuedWhere
      rw [List.count_flatMap]
      refine le_trans (le_of_eq ?_) (List.single_le_sum (fun _ _ => Nat.zero_le _) _
        (List.mem_map_of_mem (List.mem_finRange f.queue)))
      exact (List.count_filter meant).symm
    unfold discardWhere
    omega
  · exact fun mem => own ((windows.2.2.2 q).2 f mem)

/-! ## A slot emptied (R121) -/

/-- What the emptying of slot a leaves: the windows, the bus's exchange in flight, the other slots, and the events but UNISSUED_REMOVAL and
ISSUE_DONE. -/
structure Emptied (a : SlotAddr) (s t : State) : Prop extends Records s t where
  flight : t.bus.inFlight = s.bus.inFlight
  site (r : RackId) : (t.racks[r]).map RackWindow.site = (s.racks[r]).map RackWindow.site
  other (b : SlotAddr) : b ≠ a → (t.slots[b]).map Slot.plate = (s.slots[b]).map Slot.plate
  own : (t.slots[a]).map Slot.occupancy = (s.slots[a]).map fun _ => .empty
  events (k : EventId) : k ≠ 20 → k ≠ 22 → t.events[k] = s.events[k]
  ids : t.devices.map Device.id = s.devices.map Device.id

theorem modDevice_ids {f : Device → Device} (named : ∀ d, (f d).id = d.id) (id : DeviceId) (s : State) :
    (s.modDevice id f).devices.map Device.id = s.devices.map Device.id := by
  unfold State.modDevice
  rw [List.map_map]
  refine List.map_congr_left fun d _ => ?_
  change (if d.id = id then f d else d).id = d.id
  split
  · exact named d
  · rfl

theorem Minor.ids {s t : State} (h : Minor s t) : t.devices.map Device.id = s.devices.map Device.id := by
  have ids := congrArg (List.map Device.id) h.cores
  rw [List.map_map, List.map_map] at ids
  exact ids

theorem emptiedDevice_slots (reason : EmptyReason) (a : SlotAddr) (s : State) : (emptiedDevice reason a s).slots = s.slots ∧
    (emptiedDevice reason a s).racks = s.racks ∧ (emptiedDevice reason a s).bus = s.bus ∧
    (∀ k : EventId, k ≠ 20 → (emptiedDevice reason a s).events[k] = s.events[k]) ∧
    (emptiedDevice reason a s).devices.map Device.id = s.devices.map Device.id := by
  have same (t : State) (slots : t.slots = s.slots) (racks : t.racks = s.racks) (bus : t.bus = s.bus) (events : t.events = s.events)
      (ids : t.devices.map Device.id = s.devices.map Device.id) : t.slots = s.slots ∧ t.racks = s.racks ∧ t.bus = s.bus ∧
        (∀ k : EventId, k ≠ 20 → t.events[k] = s.events[k]) ∧ t.devices.map Device.id = s.devices.map Device.id :=
    ⟨slots, racks, bus, fun k _ => by rw [events], ids⟩
  have unseen (id : DeviceId) := modDevice_ids (f := Device.unseen) (fun _ => rfl) id s
  unfold emptiedDevice
  (repeat' split)
  · exact same _ rfl rfl rfl rfl rfl
  · exact same _ rfl rfl rfl rfl (modDevice_ids (by exact fun _ => rfl) _ s)
  · rw [raise_eq_reported, reported_eq]
    exact ⟨rfl, rfl, rfl, fun k other => get_set_other _ _ _ _ other, unseen _⟩
  · exact same _ rfl rfl rfl rfl (unseen _)
  · exact same _ rfl rfl rfl rfl rfl
  · exact same _ rfl rfl rfl rfl rfl

theorem emptied_of_minor {reason : EmptyReason} {a : SlotAddr} {s m : State} (minor : Minor s m) (slot : (s.slots[a]).isSome) :
    Emptied a s ((emptiedDevice reason a m).setSlot a (some .initial)) := by
  have records : Records s (emptiedDevice reason a m) := minor.toRecords.emptiedDevice
  obtain ⟨slots, racks, bus, events, ids⟩ := emptiedDevice_slots reason a m
  generalize emptiedDevice reason a m = n at records slots racks bus events ids
  refine { toRecords := records.slotWritten ?_, ids := ids.trans minor.ids, flight := ?_, site := fun r => ?_, other := fun b other => ?_, own := ?_, events := fun k k20 k22 => ?_ }
  · rw [records.slot, slot]
    rfl
  · exact (congrArg Bus.inFlight bus).trans minor.flight
  · exact (congrArg (fun v : Vector (Option RackWindow) 8 => (v[r]).map RackWindow.site) racks).trans (minor.site r)
  · rw [show (n.setSlot a (some .initial)).slots[b] = n.slots[b] from get_set_other _ _ _ _ other, slots]
    exact minor.plate b
  · rw [setSlot_get]
    obtain ⟨x, there⟩ := Option.isSome_iff_exists.mp slot
    rw [there]
    rfl
  · exact (events k k20).trans (minor.events k k22)

theorem emptied_refl {a : SlotAddr} {s : State} (own : (s.slots[a]).map Slot.occupancy = (s.slots[a]).map fun _ => .empty) : Emptied a s s :=
  { toRecords := .refl s, flight := rfl, site := fun _ => rfl, other := fun _ _ => rfl, own := own, events := fun _ _ _ => rfl,
    ids := rfl }

theorem emptySlot_emptied (reason : EmptyReason) (a : SlotAddr) (s : State) : Emptied a s (emptySlot reason a s) := by
  unfold emptySlot
  split
  · next slot => exact emptied_refl (by rw [slot]; rfl)
  · next x slot =>
    split
    · next empty => exact emptied_refl (by rw [slot]; exact congrArg some empty)
    · refine emptied_of_minor (.emptiedReservation (.charging (Minor.refl s).discardSlot (Charging.refl _).endCharging)) ?_
      rw [slot]
      rfl

/-- A window's slots emptied one after another: what stays, and that each is EMPTY. -/
structure AllEmptied (l : List SlotAddr) (s t : State) : Prop extends Records s t where
  flight : t.bus.inFlight = s.bus.inFlight
  site (r : RackId) : (t.racks[r]).map RackWindow.site = (s.racks[r]).map RackWindow.site
  other (b : SlotAddr) : b ∉ l → (t.slots[b]).map Slot.plate = (s.slots[b]).map Slot.plate
  own (a : SlotAddr) : a ∈ l → (t.slots[a]).map Slot.occupancy = (s.slots[a]).map fun _ => .empty
  events (k : EventId) : k ≠ 20 → k ≠ 22 → t.events[k] = s.events[k]

theorem map_const_of_isSome {α β γ : Type} {x : Option α} {y : Option β} (same : x.isSome = y.isSome) (c : γ) :
    x.map (fun _ => c) = y.map fun _ => c := by
  cases x with
  | none =>
    cases y with
    | none => rfl
    | some b => cases same
  | some a =>
    cases y with
    | none => cases same
    | some b => rfl

theorem forEach_emptied (reason : EmptyReason) (l : List SlotAddr) (s : State) : AllEmptied l s (forEach l (emptySlot reason) s) := by
  induction l generalizing s with
  | nil =>
    exact { toRecords := .refl s, flight := rfl, site := fun _ => rfl, other := fun _ _ => rfl, own := fun _ => nofun,
            events := fun _ _ _ => rfl }
  | cons b l ih =>
    rw [forEach_cons]
    have one := emptySlot_emptied reason b s
    have rest := ih (emptySlot reason b s)
    refine { toRecords := one.toRecords.trans rest.toRecords, flight := rest.flight.trans one.flight,
             site := fun r => (rest.site r).trans (one.site r), other := fun a absent => ?_, own := fun a mem => ?_,
             events := fun k k20 k22 => (rest.events k k20 k22).trans (one.events k k20 k22) }
    · rw [List.mem_cons, not_or] at absent
      exact (rest.other a absent.2).trans (one.other a absent.1)
    · by_cases there : a ∈ l
      · exact (rest.own a there).trans (map_const_of_isSome (one.slot a) _)
      · obtain rfl := (List.mem_cons.mp mem).resolve_right there
        have kept := congrArg (Option.map Plate.occupancy) (rest.other a there)
        rw [Option.map_map, Option.map_map] at kept
        exact Eq.trans kept one.own

/-! ## Timeouts (R119, R126) -/

theorem exec_doomed_timeout {s : State} {x : InFlight} (flight : s.bus.inFlight = some x) (answer : x.answer = none)
    (doomed : x.doomed = true) : exec .exchangeTimeout s = .next (deliverDiscarded false x.exchange (freeBus s)) := by
  change execExchangeTimeout s = _
  unfold execExchangeTimeout
  rw [flight]
  dsimp only
  rw [answer, doomed]
  rfl

theorem slotTimeout_first {s : State} {e : Exchange} {a : SlotAddr} {x : Slot} (slot : s.slots[a] = some x) (first : x.timeouts = 0) :
    slotTimeout e a (freeBus s) = probeAgain e (deliverTimeout e (reported 16 a.val (BitVec.ofNat 32 (kindCode e))
      { s with bus := { s.bus with inFlight := none }, slots := s.slots.set a (some { x with timeouts := 1 }) })) := by
  have timed : setTimeouts a 1 (freeBus s) = (freeBus s).setSlot a (some { x with timeouts := 1 }) := modSlot_eq (s := freeBus s) slot _
  unfold slotTimeout
  rw [show (freeBus s).slots[a] = some x from slot, Option.map_some, Option.getD_some, if_pos first, timed, raise_eq_reported, code_eq_kindCode]
  rfl

theorem slotTimeout_second {s : State} {e : Exchange} {a : SlotAddr} {x : Slot} (slot : s.slots[a] = some x) (second : x.timeouts ≠ 0) :
    slotTimeout e a (freeBus s) = deliverTimeout e (enterFault a .timeout ((freeBus s).setSlot a (some { x with timeouts := 2 }))) := by
  have timed : setTimeouts a 2 (freeBus s) = (freeBus s).setSlot a (some { x with timeouts := 2 }) := modSlot_eq (s := freeBus s) slot _
  unfold slotTimeout
  rw [show (freeBus s).slots[a] = some x from slot, Option.map_some, Option.getD_some, if_neg second, timed]

/-- No exchange of a FAULT slot can be asked for (R116). -/
theorem barred_of_fault {s : State} {a : SlotAddr} (fault : (s.slots[a]).map Slot.occupancy = some .fault) {f : Exchange}
    (named : f.slot? = some a) : f.allowed s = false := by
  have other {o : Occupancy} (o_ne : Occupancy.fault ≠ o) : decide ((s.slots[a]).map Slot.occupancy = some o) = false :=
    decide_eq_false fun same => o_ne (Option.some.inj (fault.symm.trans same))
  cases f with
  | scan r => cases named
  | probe b => cases named; exact other nofun
  | poll b | setCharge b m | tune b c g k | release b | clear b id => cases named; exact other nofun

/-- A faulted slot has no exchange in the queues, whatever is delivered afterwards (R119, R120). -/
theorem enterFault_quiet {s t : State} (sound : WindowsSound s) {a : SlotAddr} (slot : (s.slots[a]).isSome) {cause : FaultCause}
    (later : Minor (enterFault a cause s) t) {f : Exchange} (named : f.slot? = some a) (q : Fin 6) : f ∉ t.bus.queues[q] := by
  have marked : WindowsSound (markFault a cause s) := ((Records.refl s).markFault).windows sound
  have fault : ((markFault a cause s).slots[a]).map Slot.occupancy = some .fault := by
    obtain ⟨x, there⟩ := Option.isSome_iff_exists.mp slot
    rw [markFault_reported there]
    cases cause with
    | timeout | device =>
      dsimp only
      rw [reported_eq]
      exact congrArg (Option.map Slot.occupancy) (setSlot_get ..)
    | fleetFull => exact congrArg (Option.map Slot.occupancy) (setSlot_get ..)
  have barred := barred_of_fault fault named
  have gone := discardWhere_gone (p := fun e => decide (e.slot? = some a)) (b := false) marked (decide_eq_true named) barred q
  have discarded : Minor (markFault a cause s) (discardSlot a false (markFault a cause s)) := (Minor.refl _).discardSlot
  have rest : Minor (discardSlot a false (markFault a cause s)) t := (Charging.refl _).endCharging.minor.trans later
  rw [← List.count_eq_zero] at gone ⊢
  rcases rest.fresh q f with few | ⟨-, allowed⟩
  · exact Nat.le_zero.mp (few.trans (le_of_eq gone))
  · rw [allowed_congr discarded.plate f, barred] at allowed
    cases allowed

theorem exchangeTimesOut_scan {s : State} {r : RackId} {w : RackWindow} (sound : WindowsSound s) (unanswered : Unanswered (.scan r) s)
    (rack : s.racks[r] = some w) (online : w.rackState = .online) (missed : w.scanMisses ≠ 0) :
    ∃ t v, exec .exchangeTimeout s = .next t ∧ t.racks[r] = some v ∧ v.rackState = .unreachable ∧ v.scanMisses = 2 ∧ v.budget = w.budget ∧
      v.scanTimer = w.scanTimer ∧ Raised 18 r.val 0 s t ∧
      ∀ a : SlotAddr, w.holds a = true → (t.slots[a]).map Slot.occupancy = some .empty := by
  let lost := (freeBus s).setRack r (some { w with scanMisses := 2, rackState := .unreachable })
  have times : exec .exchangeTimeout s = .next (forEach w.addresses (emptySlot .lost) (reported 18 r.val 0 lost)) := by
    rw [exec_unanswered_scan unanswered]
    unfold scanTimeout
    rw [show (freeBus s).racks[r] = some w from rack]
    dsimp only
    rw [online]
    dsimp only
    rw [if_neg missed, modRack_eq (s := freeBus s) rack, raise_eq_reported]
    rfl
  have emptied := forEach_emptied .lost w.addresses (reported 18 r.val 0 lost)
  have at_rack : (reported 18 r.val 0 lost).racks[r] = some { w with scanMisses := 2, rackState := .unreachable } := by
    rw [reported_eq]
    exact setRack_get ..
  have site := emptied.site r
  rw [at_rack] at site
  obtain ⟨v, there, same⟩ := Option.map_eq_some_iff.mp site
  simp only [RackWindow.site, Site.mk.injEq] at same
  obtain ⟨-, -, -, state, misses, timer, budget⟩ := same
  refine ⟨_, v, times, there, state, misses, budget, timer, ?_, fun a holds => ?_⟩
  · rw [Raised, emptied.events 18 (by decide) (by decide)]
    exact raised_reported 18 r.val 0 lost
  · obtain ⟨x, stands⟩ := sound.stands_rack rack holds
    have slot : (reported 18 r.val 0 lost).slots[a] = some x := by
      rw [reported_eq]
      exact stands.slot
    rw [emptied.own a (mem_addresses.mpr holds), slot]
    rfl

/-- Settles O53: each timeout by the equation of its case; after a second one, by what the fault and the outcome leave alone. -/
theorem exchangeTimesOut : Obligations.ExchangeTimesOut := by
  intro s sound _
  refine ⟨fun answered => ?_, fun x flight answer doomed free => ?_, fun r w unanswered rack => ⟨fun state => ?_, fun online none_missed => ?_,
    exchangeTimesOut_scan sound unanswered rack⟩, fun e a x unanswered named slot => ?_⟩
  · change execExchangeTimeout s = _
    unfold execExchangeTimeout
    cases flight : s.bus.inFlight with
    | none => rfl
    | some x =>
      dsimp only
      rw [if_pos (Option.isSome_iff_ne_none.mpr (answered x flight))]
  · rw [exec_doomed_timeout flight answer doomed, deliverDiscarded_spent (s := freeBus s) fun _ => free]
    rfl
  · rw [exec_unanswered_scan unanswered]
    unfold scanTimeout
    rw [show (freeBus s).racks[r] = some w from rack]
    dsimp only
    rw [state]
    rfl
  · rw [exec_unanswered_scan unanswered]
    unfold scanTimeout
    rw [show (freeBus s).racks[r] = some w from rack]
    dsimp only
    rw [online]
    dsimp only
    rw [if_pos none_missed, modRack_eq (s := freeBus s) rack, ← online]
    rfl
  · intro free missed
    have timed := exec_unanswered unanswered named
    have at_slot : missed.slots[a] = some { x with timeouts := 1 } := by
      unfold missed
      rw [reported_eq]
      exact get_set_same ..
    refine ⟨fun first probes probing => ?_, fun first polls => ?_, fun m first charges => ?_, fun id first clears => ?_, fun second => ?_⟩
    · rw [timed, slotTimeout_first slot first]
      subst probes
      refine congrArg Host.Outcome.next (probe_asked ?_)
      exact (congrArg (Option.map Slot.occupancy) at_slot).trans (congrArg some probing)
    · rw [timed, slotTimeout_first slot first]
      subst polls
      rfl
    · rw [timed, slotTimeout_first slot first]
      subst charges
      refine congrArg Host.Outcome.next ((modSlot_eq at_slot _).trans ?_)
      dsimp only
      by_cases owes : x.occupancy = .occupied ∧ x.phase ≠ .none
      · rw [if_pos owes, decide_eq_true owes, Bool.or_true]
      · rw [if_neg owes, decide_eq_false owes, Bool.or_false]
    · rw [timed, slotTimeout_first slot first]
      subst clears
      change Host.Outcome.next (missed.modDevice id _) = _
      have devices : missed.devices = s.devices := by
        unfold missed
        rw [reported_eq]
      rw [State.modDevice, devices]
    · let twice := (freeBus s).setSlot a (some { x with timeouts := 2 })
      have windows : WindowsSound twice := ((freeBus_records s).slotWritten (by rw [show (freeBus s).slots[a] = some x from slot]; rfl)).windows sound
      have there : twice.slots[a] = some { x with timeouts := 2 } := setSlot_get ..
      have faulted := enterFault_minor a .timeout twice
      have later : Minor (enterFault a .timeout twice) (deliverTimeout e (enterFault a .timeout twice)) := (Minor.refl _).deliverTimeout
      obtain ⟨⟨y, record, plate⟩, raised⟩ := enterFault_record (markFault_reported there .timeout)
      have last := later.plate a
      rw [record] at last
      obtain ⟨z, final, same⟩ := Option.map_eq_some_iff.mp last
      rw [plate] at same
      simp only [Slot.plate, Plate.mk.injEq] at same
      obtain ⟨occupancy, device, level, timeouts, cause, -⟩ := same
      refine ⟨_, z, timed.trans (congrArg Host.Outcome.next (slotTimeout_second slot second)), final, occupancy, cause, timeouts, device, level, ?_,
        ?_, fun q f mem named => ?_⟩
      · rw [Raised, later.events 17 (by decide)]
        exact raised
      · refine later.flight.trans (faulted.flight.trans ?_)
        rw [markFault_reported there]
        dsimp only
        rw [reported_eq]
        rfl
      · exact enterFault_quiet windows (by rw [there]; rfl) later named q mem

end Sys2Proof.Machine
end

section
/-! PROOF. Completed exchanges of the rack bus but for PROBE, POLL, TUNE and RELEASE (R118, R120, R123, R125, R162). -/

namespace Sys2Proof.Machine

/-! ## Devices whose slot is found empty (R121) -/

/-- The small work of the fleet manager keeps a device's record but for its clear_state. -/
theorem Minor.device? {s t : State} (h : Minor s t) (id : DeviceId) : (t.device? id).map Device.core = (s.device? id).map Device.core := by
  have found (l : List Device) : (l.find? fun d => d.id = id).map Device.core = (l.map Device.core).find? fun d => d.id = id := by
    rw [List.find?_map]
    rfl
  unfold State.device?
  rw [found, found, h.cores]

/-- What the comparison of positions may do to a device's record e, which becomes f: nothing, or it is in no slot any more, and UNSEEN with
UNISSUED_REMOVAL raised when it was DOCKED. -/
def Fate (e f : Device) (raised : Bool) : Prop :=
  (f.state = e.state ∧ f.slot = e.slot) ∨ (e.state = .docked ∧ f.state = .unseen ∧ f.slot = none ∧ raised = true) ∨
    (e.state = .out ∧ f.state = .out ∧ f.slot = none)

/-- The devices after positions have been compared. -/
structure Swept (s t : State) : Prop where
  fate (id : DeviceId) (e : Device) : s.device? id = some e → ∃ f, t.device? id = some f ∧ Fate e f (t.events[(20 : EventId)]).raw
  raw : (s.events[(20 : EventId)]).raw = true → (t.events[(20 : EventId)]).raw = true

namespace Swept

section
variable {s t u : State}

theorem trans (h : Swept s t) (g : Swept t u) : Swept s u := by
  refine ⟨fun id e there => ?_, g.raw ∘ h.raw⟩
  obtain ⟨f, middle, first⟩ := h.fate id e there
  obtain ⟨k, after, second⟩ := g.fate id f middle
  refine ⟨k, after, ?_⟩
  rcases first with ⟨state, slot⟩ | ⟨docked, unseen, slot, raised⟩ | ⟨out, still, slot⟩
  · rwa [Fate, state, slot] at second
  · rcases second with ⟨state', slot'⟩ | ⟨docked', -⟩ | ⟨out', -⟩
    · exact .inr (.inl ⟨docked, state'.trans unseen, slot'.trans slot, g.raw raised⟩)
    · rw [unseen] at docked'; cases docked'
    · rw [unseen] at out'; cases out'
  · rcases second with ⟨state', slot'⟩ | ⟨docked', -⟩ | ⟨-, out', slot'⟩
    · exact .inr (.inr ⟨out, state'.trans still, slot'.trans slot⟩)
    · rw [still] at docked'; cases docked'
    · exact .inr (.inr ⟨out, out', slot'⟩)

theorem of_eq (devices : t.devices = s.devices) (events : t.events = s.events) : Swept s t := by
  refine ⟨fun id e there => ⟨e, ?_, .inl ⟨rfl, rfl⟩⟩, fun raw => by rwa [events]⟩
  unfold State.device? at there ⊢
  rwa [devices]

theorem refl (s : State) : Swept s s := .of_eq rfl rfl

theorem minor (h : Minor s t) : Swept s t := by
  refine ⟨fun id e there => ?_, fun raw => by rwa [h.events 20 (by decide)]⟩
  have core := h.device? id
  rw [there] at core
  obtain ⟨f, after, same⟩ := Option.map_eq_some_iff.mp core
  exact ⟨f, after, .inl ⟨(congrArg Device.state same :), (congrArg Device.slot same :)⟩⟩

end

end Swept

/-- A device in no slot any more by a removal: its fate, with its record found again. -/
def Removed (id : DeviceId) (e : Device) (t : State) : Prop :=
  ∃ f, t.device? id = some f ∧ (e.state = .docked → f.state = .unseen ∧ (t.events[(20 : EventId)]).raw = true) ∧
    (e.state = .out → f.state = .out) ∧ (e.state ≠ .unseen → f.slot = none)

/-- A removed device stays removed. -/
theorem Removed.swept {id : DeviceId} {e : Device} {t u : State} (h : Removed id e t) (g : Swept t u) : Removed id e u := by
  obtain ⟨f, there, docked, out, slot⟩ := h
  obtain ⟨k, after, fate⟩ := g.fate id f there
  refine ⟨k, after, fun was => ?_, fun was => ?_, fun was => ?_⟩
  · obtain ⟨unseen, raw⟩ := docked was
    rcases fate with ⟨state, -⟩ | ⟨docked', -⟩ | ⟨out', -⟩
    · exact ⟨state.trans unseen, g.raw raw⟩
    · rw [unseen] at docked'; cases docked'
    · rw [unseen] at out'; cases out'
  · rcases fate with ⟨state, -⟩ | ⟨docked', -⟩ | ⟨-, out', -⟩
    · exact state.trans (out was)
    · rw [out was] at docked'; cases docked'
    · exact out'
  · rcases fate with ⟨-, same⟩ | ⟨-, -, none, -⟩ | ⟨-, -, none⟩
    · exact same.trans (slot was)
    · exact none
    · exact none

/-- A device whose fate comes in two parts. -/
theorem Removed.earlier {id : DeviceId} {e : Device} {s m t : State} (before : Swept s m) (found : s.device? id = some e) (later : Swept m t)
    (removed : ∀ f, m.device? id = some f → Removed id f t) : Removed id e t := by
  obtain ⟨f, middle, fate⟩ := before.fate id e found
  rcases fate with ⟨state, -⟩ | ⟨was, unseen, slot, raised⟩ | ⟨was, still, -⟩
  · obtain ⟨k, after, docked, out, slotless⟩ := removed f middle
    exact ⟨k, after, state ▸ docked, state ▸ out, state ▸ slotless⟩
  · obtain ⟨k, after, fate⟩ := later.fate id f middle
    rcases fate with ⟨state, same⟩ | ⟨docked, -⟩ | ⟨out, -⟩
    · exact ⟨k, after, fun _ => ⟨state.trans unseen, later.raw raised⟩, fun out => (by rw [was] at out; cases out), fun _ => same.trans slot⟩
    · rw [unseen] at docked; cases docked
    · rw [unseen] at out; cases out
  · obtain ⟨k, after, -, out, slotless⟩ := removed f middle
    exact ⟨k, after, fun docked => (by rw [was] at docked; cases docked), fun _ => out still, fun _ => slotless (by rw [still]; exact nofun)⟩

theorem device?_modDevice {f : Device → Device} (named : ∀ d, (f d).id = d.id) (id k : DeviceId) (s : State) :
    (s.modDevice id f).device? k = (s.device? k).map fun d => if d.id = id then f d else d :=
  device?_map (fun d => by split; exacts [named d, rfl]) k

theorem device?_modDevice_own {s : State} {d : Device} (found : s.device? d.id = some d) (f : Device → Device)
    (named : ∀ e, (f e).id = e.id) : (s.modDevice d.id f).device? d.id = some (f d) := by
  rw [device?_modDevice named, found, Option.map_some, if_pos rfl]

theorem device?_id {s : State} {id : DeviceId} {d : Device} (found : s.device? id = some d) : d.id = id :=
  of_decide_eq_true (List.find?_some (p := fun e : Device => decide (e.id = id)) found)

/-- The device of a slot found empty (R121 steps 4 and 5). -/
theorem emptiedDevice_removed {a : SlotAddr} {s : State} :
    Swept s (emptiedDevice .removed a s) ∧
      ∀ (id : DeviceId) (e : Device), (s.slots[a]).bind Slot.deviceId = some id → s.device? id = some e → Removed id e (emptiedDevice .removed a s) := by
  have fates (t : State) (f : Device → Device) (d : Device) (found : s.device? d.id = some d) (named : ∀ e, (f e).id = e.id)
      (devices : t.devices = (s.modDevice d.id f).devices) (raw : (s.events[(20 : EventId)]).raw = true → (t.events[(20 : EventId)]).raw = true)
      (fate : Fate d (f d) (t.events[(20 : EventId)]).raw) : Swept s t := by
    have at_id (k : DeviceId) : t.device? k = (s.device? k).map fun e => if e.id = d.id then f e else e := by
      rw [← device?_modDevice named]
      unfold State.device?
      rw [devices]
    refine ⟨fun k e there => ?_, raw⟩
    rw [at_id, there]
    refine ⟨_, rfl, ?_⟩
    by_cases same : e.id = d.id
    · have own := device?_id there
      rw [← own, same, found] at there
      obtain rfl := Option.some.inj there
      dsimp only
      rwa [if_pos rfl]
    · have other : (if e.id = d.id then f e else e) = e := if_neg same
      exact .inl ⟨congrArg Device.state other, congrArg Device.slot other⟩
  unfold emptiedDevice
  cases named : (s.slots[a]).bind Slot.deviceId with
  | none => exact ⟨.refl s, fun id e none => nomatch none⟩
  | some id =>
    rw [Option.bind_some]
    cases found : s.device? id with
    | none => exact ⟨.refl s, fun k e same there => by cases same; rw [found] at there; cases there⟩
    | some d =>
      dsimp only
      obtain rfl := device?_id found
      have raised (o : Nat) (n : Nat) (u : State) : ((raise .unissuedRemoval o n u).events[(20 : EventId)]).raw = true := by
        rw [raise_eq_reported]
        exact (raised_reported 20 o _ u).1
      cases state : d.state with
      | out =>
        dsimp only
        have swept : Swept s (s.modDevice d.id fun x => { x with slot := none }) :=
          fates _ (fun x => { x with slot := none }) d found (fun _ => rfl) rfl (fun raw => raw) (.inr (.inr ⟨state, state, rfl⟩))
        refine ⟨swept, fun k e same there => ?_⟩
        cases same
        obtain rfl := Option.some.inj (found.symm.trans there)
        refine ⟨{ d with slot := none }, ?_, ?_, fun _ => state, fun _ => rfl⟩
        · exact device?_modDevice_own found (fun x => { x with slot := none }) fun _ => rfl
        · intro docked
          rw [state] at docked
          cases docked
      | unseen =>
        dsimp only
        refine ⟨.refl s, fun k e same there => ?_⟩
        cases same
        obtain rfl := Option.some.inj (found.symm.trans there)
        refine ⟨d, found, ?_, ?_, fun seen => absurd state seen⟩
        · intro docked
          rw [state] at docked
          cases docked
        · intro out
          rw [state] at out
          cases out
      | docked =>
        dsimp only
        have devices : (raise .unissuedRemoval a.val d.id.toNat (s.modDevice d.id Device.unseen)).devices = (s.modDevice d.id Device.unseen).devices := by
          rw [raise_eq_reported, reported_eq]
        have swept := fates (raise .unissuedRemoval a.val d.id.toNat (s.modDevice d.id Device.unseen)) Device.unseen d found (fun _ => rfl) devices
          (fun _ => raised ..) (.inr (.inl ⟨state, rfl, rfl, raised ..⟩))
        refine ⟨swept, fun k e same there => ?_⟩
        cases same
        obtain rfl := Option.some.inj (found.symm.trans there)
        refine ⟨d.unseen, ?_, fun _ => ⟨rfl, raised ..⟩, ?_, fun _ => rfl⟩
        · have at_id : (raise .unissuedRemoval a.val d.id.toNat (s.modDevice d.id Device.unseen)).device? d.id =
              (s.modDevice d.id Device.unseen).device? d.id := by
            unfold State.device?
            rw [devices]
          exact at_id.trans (device?_modDevice_own found Device.unseen fun _ => rfl)
        · intro out
          rw [state] at out
          cases out

/-- A slot emptied after a SCAN: what it does to the devices, and to the one it names. -/
theorem emptySlot_removed (a : SlotAddr) (s : State) : Swept s (emptySlot .removed a s) ∧
    ∀ (x : Slot) (e : Device) (id : DeviceId), s.slots[a] = some x → x.occupancy ≠ .empty → x.deviceId = some id → s.device? id = some e →
      Removed id e (emptySlot .removed a s) := by
  unfold emptySlot
  split
  · next slot => exact ⟨.refl s, fun x e id there => by rw [slot] at there; cases there⟩
  · next x slot =>
    split
    · next empty =>
      refine ⟨.refl s, fun y e id there full => ?_⟩
      obtain rfl := Option.some.inj (slot.symm.trans there)
      exact absurd empty full
    · have minor : Minor s (emptiedReservation a (endCharging a (discardSlot a true s))) :=
        .emptiedReservation (.charging (Minor.refl s).discardSlot (Charging.refl _).endCharging)
      generalize emptiedReservation a (endCharging a (discardSlot a true s)) = m at minor
      obtain ⟨swept, removed⟩ := emptiedDevice_removed (a := a) (s := m)
      have emptied : Swept (emptiedDevice .removed a m) ((emptiedDevice .removed a m).setSlot a (some .initial)) := .of_eq rfl rfl
      refine ⟨(Swept.minor minor).trans (swept.trans emptied), fun y e id there _ names found => ?_⟩
      obtain rfl := Option.some.inj (slot.symm.trans there)
      have plate := congrArg (Option.map Plate.deviceId) (minor.plate a)
      rw [slot, Option.map_map, Option.map_map] at plate
      obtain ⟨z, record, same⟩ := Option.map_eq_some_iff.mp plate
      have core := minor.device? id
      rw [found] at core
      obtain ⟨f, after, alike⟩ := Option.map_eq_some_iff.mp core
      have named : (m.slots[a]).bind Slot.deviceId = some id := by
        rw [record]
        exact Eq.trans same names
      have state : f.state = e.state := (congrArg Device.state alike :)
      obtain ⟨k, last, docked, out, slot⟩ := (removed id f named after).swept emptied
      exact ⟨k, last, state ▸ docked, state ▸ out, state ▸ slot⟩

/-! ## The positions of a SCAN (R123) -/

/-- The bit of a position in a SCAN's answer. -/
theorem occupiedAt_le32 (flags : BitVec 32) (i : Nat) : occupiedAt (le32 flags.toNat) i = flags.getLsbD i := by
  rw [occupiedAt, field32_le32]
  rfl

/-- A request touches the class queues alone. -/
theorem ask_aside (e : Exchange) (s : State) : (ask e s).bus.inFlight = s.bus.inFlight ∧ (ask e s).racks = s.racks ∧
    (ask e s).slots = s.slots ∧ (ask e s).devices = s.devices ∧ (ask e s).events = s.events := by
  unfold ask
  rcases request_cases e s with ⟨-, eq⟩ | ⟨-, -, eq⟩ | ⟨-, -, -, eq⟩ | ⟨-, -, -, eq⟩ <;> rw [eq] <;> exact ⟨rfl, rfl, rfl, rfl, rfl⟩

section
variable {w : RackWindow} {params : List Byte} {a : SlotAddr} {s : State}

/-! A position by what its slot was and what the SCAN found there. -/

theorem scanPosition_undefined (slot : s.slots[a] = none) : scanPosition w params a s = s := by
  unfold scanPosition
  rw [slot]
  rfl

variable {x : Slot}

theorem scanPosition_new (slot : s.slots[a] = some x) (there : occupiedAt params (a.val - w.base) = true) (empty : x.occupancy = .empty) :
    scanPosition w params a s = ask (.probe a) (s.setSlot a (some { x with occupancy := .probing })) := by
  unfold scanPosition
  rw [slot, Option.map_some, there, empty, modSlot_eq slot]
  rfl

theorem scanPosition_probing (slot : s.slots[a] = some x) (there : occupiedAt params (a.val - w.base) = true)
    (probing : x.occupancy = .probing) :
    scanPosition w params a s = if .probe a ∈ s.bus.queues[(2 : Fin 6)] then s else ask (.probe a) s := by
  unfold scanPosition
  rw [slot, Option.map_some, there, probing]
  rfl

theorem scanPosition_known (slot : s.slots[a] = some x) (there : occupiedAt params (a.val - w.base) = true)
    (known : x.occupancy = .occupied ∨ x.occupancy = .fault) : scanPosition w params a s = s := by
  unfold scanPosition
  rcases known with known | known
  · rw [slot, Option.map_some, there, known]
    rfl
  · rw [slot, Option.map_some, there, known]
    rfl

theorem scanPosition_away (slot : s.slots[a] = some x) (away : occupiedAt params (a.val - w.base) = false) :
    scanPosition w params a s = emptySlot .removed a s := by
  unfold scanPosition
  rw [slot, Option.map_some, away]
  cases occupancy : x.occupancy with
  | empty =>
    unfold emptySlot
    rw [slot]
    dsimp only
    rw [if_pos occupancy]
    rfl
  | probing | occupied | fault => rfl

/-- One position's comparison: the other slots, the bus's exchange in flight and the windows stay, the slot's occupancy is as found. -/
structure Compared (w : RackWindow) (params : List Byte) (a : SlotAddr) (s t : State) : Prop extends Records s t where
  flight : t.bus.inFlight = s.bus.inFlight
  site (r : RackId) : (t.racks[r]).map RackWindow.site = (s.racks[r]).map RackWindow.site
  other (b : SlotAddr) : b ≠ a → (t.slots[b]).map Slot.plate = (s.slots[b]).map Slot.plate
  own : (t.slots[a]).map Slot.occupancy = (s.slots[a]).map fun x =>
    if occupiedAt params (a.val - w.base) then (if x.occupancy = .empty then .probing else x.occupancy) else .empty
  swept : Swept s t
  gone : occupiedAt params (a.val - w.base) = false → ∀ (x : Slot) (e : Device) (id : DeviceId), s.slots[a] = some x → x.occupancy ≠ .empty →
    x.deviceId = some id → s.device? id = some e → Removed id e t

/-- A position that is not emptied. -/
theorem Compared.still {u : State} (slot : s.slots[a] = some x) (there : occupiedAt params (a.val - w.base) = true) (records : Records s u)
    (flight : u.bus.inFlight = s.bus.inFlight) (racks : u.racks = s.racks) (other : ∀ b : SlotAddr, b ≠ a → u.slots[b] = s.slots[b])
    (own : (u.slots[a]).map Slot.occupancy = some (if x.occupancy = .empty then .probing else x.occupancy))
    (devices : u.devices = s.devices) (events : u.events = s.events) : Compared w params a s u where
  toRecords := records
  flight := flight
  site r := by rw [racks]
  other b out := by rw [other b out]
  own := by rw [own, slot, there]; rfl
  swept := .of_eq devices events
  gone away := by rw [there] at away; cases away

theorem scanPosition_compared : Compared w params a s (scanPosition w params a s) := by
  cases slot : s.slots[a] with
  | none =>
    rw [scanPosition_undefined slot]
    exact { toRecords := .refl s, flight := rfl, site := fun _ => rfl, other := fun _ _ => rfl, own := by rw [slot]; rfl, swept := .refl s,
            gone := fun _ x e id there => by rw [slot] at there; cases there }
  | some x =>
    cases there : occupiedAt params (a.val - w.base) with
    | false =>
      rw [scanPosition_away slot there]
      have one := emptySlot_emptied .removed a s
      obtain ⟨swept, removed⟩ := emptySlot_removed a s
      exact { toRecords := one.toRecords, flight := one.flight, site := one.site, other := one.other, own := by rw [one.own, there]; rfl,
              swept := swept, gone := fun _ => removed }
    | true =>
      have probed (u : State) (records : Records s u) (flight : u.bus.inFlight = s.bus.inFlight) (racks : u.racks = s.racks)
          (other : ∀ b : SlotAddr, b ≠ a → u.slots[b] = s.slots[b]) (own : (u.slots[a]).map Slot.occupancy =
            some (if x.occupancy = .empty then .probing else x.occupancy)) (devices : u.devices = s.devices) (events : u.events = s.events) :
          Compared w params a s (ask (.probe a) u) := by
        obtain ⟨flight', racks', slots', devices', events'⟩ := ask_aside (.probe a) u
        exact .still slot there records.ask (flight'.trans flight) (racks'.trans racks) (fun b out => by rw [slots', other b out])
          (by rw [slots', own]) (devices'.trans devices) (events'.trans events)
      cases occupancy : x.occupancy with
      | empty =>
        rw [scanPosition_new slot there occupancy]
        refine probed _ ((Records.refl s).slotWritten (by rw [slot]; rfl)) rfl rfl (fun b out => get_set_other _ _ _ _ out) ?_ rfl rfl
        rw [setSlot_get, if_pos occupancy]
        rfl
      | probing =>
        have own : (s.slots[a]).map Slot.occupancy = some (if x.occupancy = .empty then .probing else x.occupancy) := by
          rw [slot, if_neg (by rw [occupancy]; exact nofun)]
          rfl
        rw [scanPosition_probing slot there occupancy]
        split
        · exact .still slot there (.refl s) rfl rfl (fun _ _ => rfl) own rfl rfl
        · exact probed s (.refl s) rfl rfl (fun _ _ => rfl) own rfl rfl
      | occupied | fault =>
        rw [scanPosition_known slot there (by simp [occupancy])]
        refine .still slot there (.refl s) rfl rfl (fun _ _ => rfl) ?_ rfl rfl
        rw [slot, if_neg (by rw [occupancy]; exact nofun)]
        rfl

/-- A window's positions compared one after another. -/
structure AllCompared (w : RackWindow) (params : List Byte) (l : List SlotAddr) (s t : State) : Prop extends Records s t where
  flight : t.bus.inFlight = s.bus.inFlight
  site (r : RackId) : (t.racks[r]).map RackWindow.site = (s.racks[r]).map RackWindow.site
  other (b : SlotAddr) : b ∉ l → (t.slots[b]).map Slot.plate = (s.slots[b]).map Slot.plate
  own (a : SlotAddr) : a ∈ l → (t.slots[a]).map Slot.occupancy = (s.slots[a]).map fun x =>
    if occupiedAt params (a.val - w.base) then (if x.occupancy = .empty then .probing else x.occupancy) else .empty
  swept : Swept s t
  gone (a : SlotAddr) : a ∈ l → occupiedAt params (a.val - w.base) = false → ∀ (x : Slot) (e : Device) (id : DeviceId), s.slots[a] = some x →
    x.occupancy ≠ .empty → x.deviceId = some id → s.device? id = some e → Removed id e t

/-- A later comparison knows a slot by the plate it had before. -/
theorem occupancy_of_plate {x y : Option Slot} (plate : x.map Slot.plate = y.map Slot.plate) (f : Occupancy → Occupancy) :
    x.map (fun z => f z.occupancy) = y.map fun z => f z.occupancy := by
  have mapped := congrArg (Option.map fun p : Plate => f p.occupancy) plate
  rw [Option.map_map, Option.map_map] at mapped
  exact mapped

theorem forEach_compared {l : List SlotAddr} (nodup : l.Nodup) : AllCompared w params l s (forEach l (scanPosition w params) s) := by
  induction l generalizing s with
  | nil =>
    exact { toRecords := .refl s, flight := rfl, site := fun _ => rfl, other := fun _ _ => rfl, own := fun _ => nofun, swept := .refl s,
            gone := fun _ => nofun }
  | cons b l ih =>
    obtain ⟨apart, nodup⟩ := List.nodup_cons.mp nodup
    rw [forEach_cons]
    have one : Compared w params b s (scanPosition w params b s) := scanPosition_compared
    have rest := ih (s := scanPosition w params b s) nodup
    refine { toRecords := one.toRecords.trans rest.toRecords, flight := rest.flight.trans one.flight,
             site := fun r => (rest.site r).trans (one.site r), swept := one.swept.trans rest.swept, other := fun a absent => ?_,
             own := fun a mem => ?_, gone := fun a mem away x e id slot full named found => ?_ }
    · rw [List.mem_cons, not_or] at absent
      exact (rest.other a absent.2).trans (one.other a absent.1)
    · by_cases there : a ∈ l
      · have apart : a ≠ b := fun same => apart (same ▸ there)
        exact (rest.own a there).trans (occupancy_of_plate (one.other a apart) fun o =>
          if occupiedAt params (a.val - w.base) then (if o = .empty then .probing else o) else .empty)
      · obtain rfl := (List.mem_cons.mp mem).resolve_right there
        exact (occupancy_of_plate (rest.other a there) id).trans one.own
    · by_cases there : a ∈ l
      · have apart : a ≠ b := fun same => apart (same ▸ there)
        have plate := one.other a apart
        rw [slot] at plate
        obtain ⟨y, before, same⟩ := Option.map_eq_some_iff.mp plate
        simp only [Slot.plate, Plate.mk.injEq] at same
        obtain ⟨occupancy, device, -⟩ := same
        refine .earlier one.swept found rest.swept fun f middle => ?_
        exact rest.gone a there away y f id before (occupancy ▸ full) (device.trans named) middle
      · obtain rfl := (List.mem_cons.mp mem).resolve_right there
        exact (one.gone away x e id slot full named found).swept rest.swept

end

/-! ## A SCAN that finds every known device there -/

/-- A new device's slot is PROBING (R123). -/
def Slot.probing (x : Slot) : Slot := if x.occupancy = .empty then { x with occupancy := .probing } else x

/-- A position's comparison asks for a PROBE (R123). -/
def probesAt (w : RackWindow) (params : List Byte) (s : State) (a : SlotAddr) : Bool :=
  occupiedAt params (a.val - w.base) && (decide ((s.slots[a]).map Slot.occupancy = some .empty) ||
    (decide ((s.slots[a]).map Slot.occupancy = some .probing) && decide (Exchange.probe a ∉ s.bus.queues[(2 : Fin 6)])))

section
variable {w : RackWindow} {params : List Byte} {a : SlotAddr} {s : State}

theorem scanPosition_present (present : ∀ x, s.slots[a] = some x → x.occupancy ≠ .empty → occupiedAt params (a.val - w.base) = true) :
    scanPosition w params a s = asked 2 (if probesAt w params s a then [.probe a] else [])
      (s.setSlot a (if occupiedAt params (a.val - w.base) then (s.slots[a]).map Slot.probing else s.slots[a])) := by
  cases slot : s.slots[a] with
  | none =>
    rw [scanPosition_undefined slot, Option.map_none, ite_self, setSlot_own slot, probesAt, slot]
    simp [asked_nil]
  | some x =>
    rw [Option.map_some]
    cases there : occupiedAt params (a.val - w.base) with
    | false =>
      have empty : x.occupancy = .empty := by
        by_contra full
        rw [present x slot full] at there
        cases there
      rw [scanPosition_away slot there, probesAt, there, Bool.false_and, if_neg nofun, if_neg nofun, asked_nil, setSlot_own slot]
      unfold emptySlot
      rw [slot]
      exact if_pos empty
    | true =>
      rw [if_pos rfl]
      cases occupancy : x.occupancy with
      | empty =>
        rw [scanPosition_new slot there occupancy, Slot.probing, if_pos occupancy, probe_asked (by rw [setSlot_get]; rfl), probesAt, there, slot]
        simp [occupancy]
      | probing =>
        have same : x.probing = x := if_neg (by rw [occupancy]; exact nofun)
        rw [scanPosition_probing slot there occupancy, same, setSlot_own slot, probe_asked (by rw [slot]; exact congrArg some occupancy), probesAt, there, slot]
        by_cases waits : Exchange.probe a ∈ s.bus.queues[(2 : Fin 6)]
        · rw [if_pos waits]
          simp only [Option.map_some, occupancy, waits, not_true, decide_false, Bool.and_false, Bool.or_false, reduceCtorEq, Option.some.injEq,
            Bool.false_eq_true, if_false, asked_nil]
        · rw [if_neg waits]
          simp only [Option.map_some, occupancy, waits, not_false_eq_true, decide_true, Bool.and_true, Bool.or_true, if_true]
      | occupied | fault =>
        have same : x.probing = x := if_neg (by rw [occupancy]; exact nofun)
        rw [scanPosition_known slot there (by simp [occupancy]), same, setSlot_own slot, probesAt, there, slot]
        simp [occupancy, asked_nil]

/-- The positions of a SCAN that empties none, together. -/
theorem forEach_present {l : List SlotAddr} (nodup : l.Nodup)
    (present : ∀ a ∈ l, ∀ x, s.slots[a] = some x → x.occupancy ≠ .empty → occupiedAt params (a.val - w.base) = true) :
    forEach l (scanPosition w params) s = asked 2 ((l.filter (probesAt w params s)).map Exchange.probe) { s with
      slots := Vector.ofFn fun a : SlotAddr =>
        if a ∈ l ∧ occupiedAt params (a.val - w.base) = true then (s.slots[a]).map Slot.probing else s.slots[a] } := by
  induction l generalizing s with
  | nil =>
    have same : (Vector.ofFn fun a : SlotAddr => if a ∈ ([] : List SlotAddr) ∧ occupiedAt params (a.val - w.base) = true then
        (s.slots[a]).map Slot.probing else s.slots[a]) = s.slots := by
      ext i hi
      simp
    rw [same]
    exact (asked_nil 2 s).symm
  | cons b l ih =>
    obtain ⟨apart, nodup⟩ := List.nodup_cons.mp nodup
    have one := scanPosition_present (present b List.mem_cons_self)
    generalize asks : (if probesAt w params s b then [Exchange.probe b] else []) = es at one
    have only : ∀ e ∈ es, e = .probe b := by
      rw [← asks]
      intro e mem
      split at mem
      · exact List.mem_singleton.mp mem
      · cases mem
    generalize found : (if occupiedAt params (b.val - w.base) then (s.slots[b]).map Slot.probing else s.slots[b]) = y at one
    have away {a : SlotAddr} (mem : a ∈ l) : a ≠ b := fun same => apart (same ▸ mem)
    have slot {a : SlotAddr} (mem : a ∈ l) : (asked 2 es (s.setSlot b y)).slots[a] = s.slots[a] := get_set_other _ _ _ _ (away mem)
    have waits {a : SlotAddr} (mem : a ∈ l) : Exchange.probe a ∈ (asked 2 es (s.setSlot b y)).bus.queues[(2 : Fin 6)] ↔
        Exchange.probe a ∈ s.bus.queues[(2 : Fin 6)] := by
      rw [asked_queue, List.mem_append]
      refine or_iff_left fun new => away mem ?_
      exact Exchange.probe.inj (only _ (List.mem_of_mem_take new))
    have same {a : SlotAddr} (mem : a ∈ l) : probesAt w params (asked 2 es (s.setSlot b y)) a = probesAt w params s a := by
      unfold probesAt
      rw [slot mem]
      simp only [waits mem]
    rw [forEach_cons, one, ih nodup fun a mem x there => present a (List.mem_cons_of_mem b mem) x ((slot mem).symm.trans there),
      List.filter_congr fun a mem => same mem]
    have filtered : ((b :: l).filter (probesAt w params s)).map Exchange.probe = es ++ (l.filter (probesAt w params s)).map Exchange.probe := by
      rw [List.filter_cons, ← asks]
      split <;> rfl
    have slots : (Vector.ofFn fun a : SlotAddr => if a ∈ l ∧ occupiedAt params (a.val - w.base) = true then
        ((asked 2 es (s.setSlot b y)).slots[a]).map Slot.probing else (asked 2 es (s.setSlot b y)).slots[a]) =
        Vector.ofFn fun a : SlotAddr => if a ∈ b :: l ∧ occupiedAt params (a.val - w.base) = true then
          (s.slots[a]).map Slot.probing else s.slots[a] := by
      refine congrArg Vector.ofFn (funext fun a => ?_)
      by_cases here : a = b
      · subst here
        rw [if_neg fun both => apart both.1]
        refine (setSlot_get ..).trans (found.symm.trans ?_)
        simp only [List.mem_cons_self, true_and]
      · rw [show (asked 2 es (s.setSlot b y)).slots[a] = s.slots[a] from get_set_other _ _ _ _ here]
        simp only [List.mem_cons, here, false_or]
    rw [slots, filtered, asked_append]
    rfl

end

end Sys2Proof.Machine
end

section
/-! PROOF. EXCHANGE_COMPLETE for a SCAN, a SET_CHARGE and a CLEAR (R118, R123, R125, R162). -/

namespace Sys2Proof.Machine

/-! ## A CLEAR requested (R162) -/

/-- A CLEAR of an OCCUPIED slot's device: queued, or owed when the queue is full. -/
theorem requestClear_asked {a : SlotAddr} {s : State} (occupied : (s.slots[a]).map Slot.occupancy = some .occupied) (id : DeviceId) :
    requestClear a id s = asked 4 [.clear a id]
      (setClear id (if (s.bus.queues[(4 : Fin 6)]).length < 64 then .queued else .owed) s) := by
  unfold requestClear
  rw [request_eq_asked (e := .clear a id) (decide_eq_true occupied) rfl]
  by_cases room : (s.bus.queues[(4 : Fin 6)]).length < 64
  · rw [if_pos room, if_pos (show (s.bus.queues[(Exchange.clear a id).queue]).length < 64 from room)]
    rfl
  · rw [if_neg room, if_neg (show ¬(s.bus.queues[(Exchange.clear a id).queue]).length < 64 from room)]
    rfl

/-- Slot a's DOCKED device d owes a CLEAR that can be asked for. -/
def Owing (a : SlotAddr) (d : Device) (s : State) : Prop :=
  ∃ x, s.slots[a] = some x ∧ x.occupancy = .occupied ∧ x.deviceId = some d.id ∧ x.reservation = none ∧ s.device? d.id = some d ∧
    d.state = .docked ∧ d.clearState = .owed

theorem clearOwed_owing {a : SlotAddr} {d : Device} {s : State} (owing : Owing a d s) : clearOwed a s = requestClear a d.id s := by
  obtain ⟨x, slot, occupied, named, free, found, docked, owed⟩ := owing
  unfold clearOwed
  rw [slot]
  dsimp only
  rw [named, Option.bind_some, found]
  exact if_pos ⟨occupied, docked, owed, free⟩

theorem clearOwed_quiet {a : SlotAddr} {s : State} (none_owed : ∀ d, ¬Owing a d s) : clearOwed a s = s := by
  unfold clearOwed
  cases slot : s.slots[a] with
  | none => rfl
  | some x =>
    dsimp only
    cases found : x.deviceId.bind s.device? with
    | none => rfl
    | some d =>
      obtain ⟨id, named, device⟩ := Option.bind_eq_some_iff.mp found
      obtain rfl := device?_id device
      refine if_neg fun ⟨occupied, docked, owed, free⟩ => none_owed d ⟨x, slot, occupied, named, free, device, docked, owed⟩

theorem forEach_clearOwed_quiet {l : List SlotAddr} {s : State} (none_owed : ∀ a ∈ l, ∀ d, ¬Owing a d s) : forEach l clearOwed s = s := by
  induction l with
  | nil => rfl
  | cons a l ih =>
    rw [forEach_cons, clearOwed_quiet (none_owed a List.mem_cons_self)]
    exact ih fun b mem => none_owed b (List.mem_cons_of_mem a mem)

/-- What owed CLEARs asked for do to a device they are not for, and to the CLEAR queue. -/
structure Cleared (id : DeviceId) (n : Nat) (s t : State) : Prop where
  slots : t.slots = s.slots
  device : t.device? id = s.device? id
  longer : (t.bus.queues[(4 : Fin 6)]).length ≤ (s.bus.queues[(4 : Fin 6)]).length + n
  stays (e : Exchange) : e ∈ s.bus.queues[(4 : Fin 6)] → e ∈ t.bus.queues[(4 : Fin 6)]

theorem clearOwed_cleared {a : SlotAddr} {id : DeviceId} {s : State} (other : (s.slots[a]).bind Slot.deviceId ≠ some id) :
    Cleared id 1 s (clearOwed a s) := by
  by_cases owes : ∃ d, Owing a d s
  · obtain ⟨d, owing⟩ := owes
    rw [clearOwed_owing owing]
    obtain ⟨x, slot, occupied, named, -⟩ := owing
    have apart : d.id ≠ id := fun same => other (by rw [slot, Option.bind_some, named, same])
    rw [requestClear_asked (by rw [slot]; exact congrArg some occupied)]
    generalize (if (s.bus.queues[(4 : Fin 6)]).length < 64 then ClearState.queued else .owed) = c
    have device : (setClear d.id c s).device? id = s.device? id := by
      refine (device?_modDevice (f := fun d => { d with clearState := c }) (fun _ => rfl) d.id id s).trans ?_
      cases found : s.device? id with
      | none => rfl
      | some e => exact congrArg some (if_neg fun same => apart (same.symm.trans (device?_id found)))
    refine ⟨rfl, device, ?_, fun e mem => ?_⟩
    · rw [asked_queue, List.length_append, List.length_take]
      exact Nat.add_le_add_left (Nat.min_le_right _ _) _
    · rw [asked_queue]
      exact List.mem_append_left _ mem
  · rw [clearOwed_quiet (not_exists.mp owes)]
    exact ⟨rfl, rfl, Nat.le_succ _, fun _ mem => mem⟩

theorem forEach_cleared {id : DeviceId} {l : List SlotAddr} {s : State} (other : ∀ a ∈ l, (s.slots[a]).bind Slot.deviceId ≠ some id) :
    Cleared id l.length s (forEach l clearOwed s) := by
  induction l generalizing s with
  | nil => exact ⟨rfl, rfl, le_refl _, fun _ mem => mem⟩
  | cons a l ih =>
    have one := clearOwed_cleared (other a List.mem_cons_self)
    have rest := ih (s := clearOwed a s) fun b mem => by
      rw [one.slots]
      exact other b (List.mem_cons_of_mem a mem)
    rw [forEach_cons]
    refine ⟨rest.slots.trans one.slots, rest.device.trans one.device, ?_, fun e mem => rest.stays e (one.stays e mem)⟩
    have := one.longer
    have := rest.longer
    rw [List.length_cons]
    omega

theorem addresses_length_le (w : RackWindow) : w.addresses.length ≤ w.size :=
  (List.length_filterMap_le _ _).trans (le_of_eq List.length_range)

/-- An owed CLEAR of one of the window's slots is queued when the queue has room for each of them. -/
theorem forEach_clearOwed_queued {w : RackWindow} {a : SlotAddr} {d : Device} {s : State} (holds : w.holds a = true) (owing : Owing a d s)
    (only : ∀ b : SlotAddr, b ≠ a → (s.slots[b]).bind Slot.deviceId ≠ some d.id) (room : (s.bus.queues[(4 : Fin 6)]).length + w.size ≤ 64) :
    .clear a d.id ∈ (forEach w.addresses clearOwed s).bus.queues[(4 : Fin 6)] ∧
      ((forEach w.addresses clearOwed s).device? d.id).map Device.clearState = some .queued := by
  obtain ⟨before, after, cut⟩ := List.append_of_mem (mem_addresses.mpr holds)
  have nodup := addresses_nodup w
  rw [cut] at nodup
  have size := addresses_length_le w
  rw [cut, List.length_append, List.length_cons] at size
  obtain ⟨-, latter, apart⟩ := List.nodup_append.mp nodup
  have first := forEach_cleared (l := before) (s := s) fun b mem => only b (apart b mem a List.mem_cons_self)
  obtain ⟨x, slot, occupied, named, free, found, docked, owed⟩ := owing
  have there : (forEach before clearOwed s).slots[a] = some x := (congrArg (fun v : Vector (Option Slot) 256 => v[a]) first.slots).trans slot
  have middle : Owing a d (forEach before clearOwed s) :=
    ⟨x, there, occupied, named, free, first.device.trans found, docked, owed⟩
  rw [cut, forEach_append, forEach_cons, clearOwed_owing middle]
  rw [requestClear_asked (by rw [there]; exact congrArg some occupied)]
  have longer := first.longer
  generalize forEach before clearOwed s = m at first there longer ⊢
  rw [if_pos (show (m.bus.queues[(4 : Fin 6)]).length < 64 by omega)]
  have last := forEach_cleared (id := d.id) (l := after) (s := asked 4 [.clear a d.id] (setClear d.id .queued m)) fun b mem => by
    rw [show (asked 4 [.clear a d.id] (setClear d.id .queued m)).slots = s.slots from first.slots]
    exact only b fun same => (List.nodup_cons.mp latter).1 (same ▸ mem)
  constructor
  · refine last.stays _ ?_
    rw [asked_queue, List.take_of_length_le (Nat.le_sub_of_add_le' (show (m.bus.queues[(4 : Fin 6)]).length + 1 ≤ 64 by omega))]
    exact List.mem_append_right _ List.mem_cons_self
  · rw [last.device]
    have cleared := device?_modDevice_own (first.device.trans found) (fun e : Device => { e with clearState := .queued }) fun _ => rfl
    exact congrArg (Option.map Device.clearState) cleared

/-! ## A completed SCAN (R123) -/

/-- The state a SCAN's answer is taken in: the bus free, the rack ONLINE. -/
def rackHeard (r : RackId) (w : RackWindow) (s : State) : State :=
  (freeBus s).setRack r (some { w with rackState := .online, scanMisses := 0 })

theorem exec_scanned {r : RackId} {w : RackWindow} {params : List Byte} {s : State} (answered : Answered (.scan r) params s)
    (rack : s.racks[r] = some w) : exec .exchangeComplete s =
      .next (forEach w.addresses clearOwed (forEach w.addresses (scanPosition w params) (rackHeard r w s))) := by
  rw [exec_answered answered]
  change Host.Outcome.next (scanComplete r params (freeBus s)) = _
  unfold scanComplete rackHeard
  rw [show (freeBus s).racks[r] = some w from rack, modRack_eq (s := freeBus s) rack]

/-- The clear_states of owed CLEARs leave what the comparison of the positions said of the devices. -/
theorem forEach_clearOwed_minor (l : List SlotAddr) (s : State) : Minor s (forEach l clearOwed s) :=
  (Minor.refl s).forEach (fun _ _ g => g.clearOwed) _

section
variable {s : State} {r : RackId} {w : RackWindow} {flags : BitVec 32}

/-- What a SCAN's answer does to the rack and the slots of its window, and to the devices of those found empty. -/
theorem scan_compares (devices : DevicesSound s) (answered : Answered (.scan r) (le32 flags.toNat) s) (rack : s.racks[r] = some w)
    {t : State} (runs : exec .exchangeComplete s = .next t) : t.bus.inFlight = none ∧
      (∃ v, t.racks[r] = some v ∧ v.rackState = .online ∧ v.scanMisses = 0) ∧
      (∀ a : SlotAddr, w.holds a = true → (t.slots[a]).map Slot.occupancy =
        if flags.getLsbD (a.val - w.base) then (if (s.slots[a]).map Slot.occupancy = some .empty then some .probing else
          (s.slots[a]).map Slot.occupancy) else (s.slots[a]).map fun _ => .empty) ∧
      ∀ a : SlotAddr, w.holds a = true → flags.getLsbD (a.val - w.base) = false → ∀ x, s.slots[a] = some x → x.occupancy ≠ .empty →
        ∀ d ∈ s.devices, x.deviceId = some d.id → Removed d.id d t := by
  obtain rfl := Host.Outcome.next.inj (runs.symm.trans (exec_scanned answered rack))
  have compared : AllCompared w (le32 flags.toNat) w.addresses (rackHeard r w s)
    (forEach w.addresses (scanPosition w (le32 flags.toNat)) (rackHeard r w s)) := forEach_compared (addresses_nodup w)
  generalize forEach w.addresses (scanPosition w (le32 flags.toNat)) (rackHeard r w s) = m at compared
  have minor := forEach_clearOwed_minor w.addresses m
  generalize forEach w.addresses clearOwed m = t at minor
  refine ⟨minor.flight.trans compared.flight, ?_, fun a holds => ?_, fun a holds away x slot full d mem named => ?_⟩
  · have site := (minor.site r).trans (compared.site r)
    rw [show (rackHeard r w s).racks[r] = some { w with rackState := .online, scanMisses := 0 } from setRack_get ..] at site
    obtain ⟨v, there, same⟩ := Option.map_eq_some_iff.mp site
    simp only [RackWindow.site, Site.mk.injEq] at same
    obtain ⟨-, -, -, state, misses, -⟩ := same
    exact ⟨v, there, state, misses⟩
  · refine (occupancy_of_plate (minor.plate a) id).trans ((compared.own a (mem_addresses.mpr holds)).trans ?_)
    rw [occupiedAt_le32]
    change ((s.slots[a]).map _) = _
    cases s.slots[a] with
    | none => simp
    | some x => simp only [Option.map_some, Option.some.injEq]; split <;> (try split) <;> rfl
  · exact (compared.gone a (mem_addresses.mpr holds) ((occupiedAt_le32 flags _).trans away) x d d.id slot full named
      ((device?_eq_some devices).mpr ⟨mem, rfl⟩)).swept (.minor minor)

/-- The state after the comparison of a SCAN that finds none gone (R123). -/
def scanPresent (r : RackId) (w : RackWindow) (there : SlotAddr → Bool) (s : State) : State :=
  let occupancy := fun a : SlotAddr => (s.slots[a]).map Slot.occupancy
  let asks := (List.finRange 256).filter (fun a => w.holds a && there a && (decide (occupancy a = some .empty) ||
    (decide (occupancy a = some .probing) && decide (Exchange.probe a ∉ s.bus.queues[(2 : Fin 6)]))))
  asked 2 (asks.map Exchange.probe) { s with
    bus := { s.bus with inFlight := none }, racks := s.racks.set r (some { w with rackState := .online, scanMisses := 0 }),
    slots := Vector.ofFn (fun a : SlotAddr => if w.holds a && there a then (s.slots[a]).map Slot.probing else s.slots[a]) }

theorem scan_present (present : ∀ a : SlotAddr, w.holds a = true → (s.slots[a]).map Slot.occupancy ≠ some .empty →
    flags.getLsbD (a.val - w.base) = true) : forEach w.addresses (scanPosition w (le32 flags.toNat)) (rackHeard r w s) =
      scanPresent r w (fun a => flags.getLsbD (a.val - w.base)) s := by
  rw [forEach_present (addresses_nodup w)]
  · unfold scanPresent
    have asks : w.addresses.filter (probesAt w (le32 flags.toNat) (rackHeard r w s)) = (List.finRange 256).filter (fun a =>
        w.holds a && flags.getLsbD (a.val - w.base) && (decide ((s.slots[a]).map Slot.occupancy = some .empty) ||
          (decide ((s.slots[a]).map Slot.occupancy = some .probing) && decide (Exchange.probe a ∉ s.bus.queues[(2 : Fin 6)])))) := by
      rw [addresses_eq_filter, List.filter_filter]
      refine List.filter_congr fun a _ => ?_
      rw [probesAt, occupiedAt_le32, Bool.and_comm, Bool.and_assoc]
      rfl
    rw [asks]
    refine congrArg (fun v => asked 2 _ { freeBus s with racks := _, slots := v }) ?_
    refine congrArg Vector.ofFn (funext fun a => ?_)
    simp only [mem_addresses, occupiedAt_le32, Bool.and_eq_true]
    rfl
  · intro a mem x slot full
    rw [occupiedAt_le32]
    refine present a (mem_addresses.mp mem) fun empty => full ?_
    rw [show s.slots[a] = some x from slot] at empty
    exact Option.some.inj empty

/-- An OCCUPIED slot that is there stays as it is at a SCAN that finds none gone. -/
theorem scanPresent_slot {there : SlotAddr → Bool} {a : SlotAddr} {x : Slot} (occupied : x.occupancy = .occupied) :
    (scanPresent r w there s).slots[a] = some x ↔ s.slots[a] = some x := by
  have other (y : Slot) : y.probing = x ↔ y = x := by
    unfold Slot.probing
    split
    · next empty =>
      refine ⟨fun same => ?_, fun same => ?_⟩
      · rw [← same] at occupied
        cases occupied
      · rw [same, occupied] at empty
        cases empty
    · exact Iff.rfl
  rw [show (scanPresent r w there s).slots[a] = if w.holds a && there a then (s.slots[a]).map Slot.probing else s.slots[a] from ofFn_get ..]
  split
  · cases s.slots[a] with
    | none => simp
    | some y => simp [other]
  · exact Iff.rfl

theorem scanPresent_named {there : SlotAddr → Bool} (b : SlotAddr) :
    ((scanPresent r w there s).slots[b]).bind Slot.deviceId = (s.slots[b]).bind Slot.deviceId := by
  rw [show (scanPresent r w there s).slots[b] = if w.holds b && there b then (s.slots[b]).map Slot.probing else s.slots[b] from ofFn_get ..]
  split
  · cases s.slots[b] with
    | none => rfl
    | some y =>
      rw [Option.map_some, Option.bind_some, Slot.probing]
      split <;> rfl
  · rfl

end

/-- Settles O51: the answers of SET_CHARGE and CLEAR by their equations; a SCAN's by what the comparison of its positions, one after another,
does to each, and by the CLEARs asked for after it. -/
theorem exchangeCompletes : Obligations.ExchangeCompletes := by
  intro s windows devices
  refine ⟨fun quiet => ?_, fun x params flight answer doomed free => ?_, fun a x m level answered slot => ?_, fun a x id answered slot => ?_,
    fun r w flags answered rack => ?_⟩
  · change execExchangeComplete s = _
    unfold execExchangeComplete
    cases flight : s.bus.inFlight with
    | none => rfl
    | some x =>
      dsimp only
      rw [quiet x flight]
  · change execExchangeComplete s = _
    unfold execExchangeComplete
    rw [flight]
    dsimp only
    rw [answer]
    dsimp only
    rw [doomed, if_pos rfl, deliverDiscarded_spent (s := freeBus s) fun _ => free]
    rfl
  · exact (exec_answered answered).trans (congrArg Host.Outcome.next (storeLevel_heard slot level))
  · refine (exec_answered answered).trans (congrArg Host.Outcome.next ?_)
    have timed : setTimeouts a 0 (freeBus s) = (freeBus s).setSlot a (some { x with timeouts := 0 }) := modSlot_eq (s := freeBus s) slot _
    change setClear id .none (setTimeouts a 0 (freeBus s)) = _
    rw [timed]
    rfl
  · intro there occupancy nothingGone owes
    have runs := exec_scanned answered rack
    obtain ⟨flight, site, slots, gone⟩ := scan_compares devices answered rack runs
    refine ⟨_, runs, flight, site, fun a holds => (slots a holds).trans ?_, fun a holds away x slot full d mem named => ?_, fun present => ?_⟩
    · obtain ⟨x, stands⟩ := windows.stands_rack rack holds
      have none_left : (s.slots[a]).map (fun _ => Occupancy.empty) = some .empty := by rw [stands.slot]; rfl
      rw [none_left]
    · obtain ⟨f, found, docked, out, slotless⟩ := gone a holds away x slot full d mem named
      rw [found]
      exact ⟨fun was => ⟨(docked was).2, congrArg some (docked was).1⟩, fun was => congrArg some (out was), slotless⟩
    · rw [scan_present present]
      have owing {a : SlotAddr} {d : Device} : Owing a d (scanPresent r w there s) ↔ Owing a d s := by
        refine exists_congr fun x => ⟨fun ⟨slot, occupied, rest⟩ => ⟨(scanPresent_slot occupied).mp slot, occupied, rest⟩,
          fun ⟨slot, occupied, rest⟩ => ⟨(scanPresent_slot occupied).mpr slot, occupied, rest⟩⟩
      refine ⟨fun d mem a ⟨holds, docked, owed, x, slot, occupied, named, free⟩ only room => ?_, fun quiet => ?_⟩
      · refine forEach_clearOwed_queued holds (owing.mpr ?_) (fun b other => ?_) ?_
        · exact ⟨x, slot, occupied, named, free, (device?_eq_some devices).mpr ⟨mem, rfl⟩, docked, owed⟩
        · rw [scanPresent_named]
          exact only b other
        · have same : (scanPresent r w there s).bus.queues[(4 : Fin 6)] = s.bus.queues[(4 : Fin 6)] :=
            get_set_other _ (2 : Fin 6) 4 _ (by decide)
          rw [same]
          exact room
      · refine (forEach_clearOwed_quiet fun a mem d owed => ?_).trans rfl
        obtain ⟨x, slot, occupied, named, free, found, docked, owed⟩ := owing.mp owed
        exact quiet d ((device?_eq_some devices).mp found).1 a ⟨mem_addresses.mp mem, docked, owed, x, slot, occupied, named, free⟩

end Sys2Proof.Machine
end

section
/-! PROOF. Discarded exchanges when no candidate is among them (R120), and the judgement of a PROBE (R124, R145, R149, R161). -/

namespace Sys2Proof.Machine

/-! ## Discarded exchanges, together (R120) -/

/-- The exchanges of a list taken out of their queues, the CLEARs among them owed again (R120, R162). -/
def State.struck (l : List Exchange) (s : State) : State :=
  { s with
    bus := { s.bus with queues := Vector.ofFn fun q : Fin 6 => (s.bus.queues[q]).diff (l.filter fun e => e.queue = q) },
    devices := s.devices.map fun d => if ∃ e ∈ l, ∃ a, e = Exchange.clear a d.id then { d with clearState := .owed } else d }

theorem struck_nil (s : State) : s.struck [] = s := by
  have queues : (Vector.ofFn fun q : Fin 6 => (s.bus.queues[q]).diff (([] : List Exchange).filter fun e => e.queue = q)) = s.bus.queues := by
    ext i hi : 1
    rw [Vector.getElem_ofFn]
    rfl
  have devices : (s.devices.map fun d => if ∃ e ∈ ([] : List Exchange), ∃ a, e = Exchange.clear a d.id then
      { d with clearState := ClearState.owed } else d) = s.devices :=
    (List.map_congr_left fun d _ => if_neg fun ⟨_, mem, _⟩ => by cases mem).trans (List.map_id' _)
  rw [State.struck, queues, devices]

theorem struck_cons (e : Exchange) (l : List Exchange) (s : State) : s.struck (e :: l) = State.struck l { unqueue e s with
    devices := s.devices.map fun d => if ∃ a, e = Exchange.clear a d.id then { d with clearState := .owed } else d } := by
  have queues : (Vector.ofFn fun q : Fin 6 => ((unqueue e s).bus.queues[q]).diff (l.filter fun f => f.queue = q)) =
      Vector.ofFn fun q : Fin 6 => (s.bus.queues[q]).diff ((e :: l).filter fun f => f.queue = q) := by
    refine congrArg Vector.ofFn (funext fun q => ?_)
    rw [show (unqueue e s).bus.queues[q] = if q = e.queue then (s.bus.queues[e.queue]).erase e else s.bus.queues[q] from get_set_cases ..,
      List.filter_cons]
    by_cases own : q = e.queue
    · subst own
      rw [if_pos rfl, if_pos (decide_eq_true rfl), List.diff_cons]
    · rw [if_neg own, if_neg fun same => own (of_decide_eq_true same).symm]
  have devices : ((s.devices.map fun d => if ∃ a, e = Exchange.clear a d.id then { d with clearState := ClearState.owed } else d).map
      fun d => if ∃ f ∈ l, ∃ a, f = Exchange.clear a d.id then { d with clearState := .owed } else d) =
      s.devices.map fun d => if ∃ f ∈ e :: l, ∃ a, f = Exchange.clear a d.id then { d with clearState := .owed } else d := by
    rw [List.map_map]
    refine List.map_congr_left fun d _ => ?_
    simp only [Function.comp_apply, List.mem_cons, exists_eq_or_imp]
    by_cases first : ∃ a, e = Exchange.clear a d.id
    · simp only [first, if_true, true_or, ite_self]
    · simp only [first, if_false, false_or]
  rw [State.struck, ← queues, ← devices]
  rfl

/-- The exchanges of a list leave their queues, and are delivered DISCARDED with no candidate to fail. -/
theorem forEach_discarded {l : List Exchange} {b : Bool} {s : State}
    (free : ∀ e ∈ l, e.queue = 1 → ∀ o ∈ s.ops, ∀ c, o.candidate = some c → e.slot? ≠ some c.slot) :
    forEach l (fun e u => deliverDiscarded b e (unqueue e u)) s = s.struck l := by
  induction l generalizing s with
  | nil => exact (struck_nil s).symm
  | cons e l ih =>
    rw [forEach_cons, deliverDiscarded_spent (s := unqueue e s) (free e List.mem_cons_self) b, struck_cons]
    exact ih (s := { unqueue e s with devices := _ }) fun f mem => free f (List.mem_cons_of_mem e mem)

/-- A list without its members that satisfy a test. -/
theorem diff_filter {α : Type} [DecidableEq α] (p : α → Bool) (l : List α) : l.diff (l.filter p) = l.filter fun x => !p x := by
  induction l with
  | nil => rfl
  | cons x l ih =>
    cases meant : p x with
    | true => rw [List.filter_cons, if_pos meant, List.diff_cons, List.erase_cons_head, ih, List.filter_cons, if_neg (by simp [meant])]
    | false =>
      have absent : x ∉ l.filter p := fun mem => by
        rw [(List.mem_filter.mp mem).2] at meant
        cases meant
      rw [List.filter_cons, if_neg (by simp [meant]), List.cons_diff, if_neg absent, ih, List.filter_cons, if_pos (by simp [meant])]

theorem flatMap_single {α : Type} {n : Nat} {f : Fin n → List α} {q : Fin n} (other : ∀ j, j ≠ q → f j = []) :
    (List.finRange n).flatMap f = f q := by
  obtain ⟨before, after, cut⟩ := List.append_of_mem (List.mem_finRange q)
  have nodup := List.nodup_finRange n
  rw [cut] at nodup
  obtain ⟨-, latter, apart⟩ := List.nodup_append.mp nodup
  rw [cut, List.flatMap_append, List.flatMap_cons, List.flatMap_eq_nil_iff.mpr fun j mem => other j (apart j mem q List.mem_cons_self),
    List.flatMap_eq_nil_iff.mpr fun j mem => other j fun same => (List.nodup_cons.mp latter).1 (same ▸ mem), List.append_nil, List.nil_append]

theorem mem_queuedWhere {p : Exchange → Bool} {s : State} {e : Exchange} :
    e ∈ queuedWhere p s ↔ p e = true ∧ ∃ q : Fin 6, e ∈ s.bus.queues[q] := by
  unfold queuedWhere
  simp only [List.mem_flatMap, List.mem_finRange, true_and, List.mem_filter]
  exact ⟨fun ⟨q, mem, meant⟩ => ⟨meant, q, mem⟩, fun ⟨meant, q, mem⟩ => ⟨q, mem, meant⟩⟩

/-- The exchanges p gone from the queues, the CLEARs among them owed again (R120, R162). -/
def State.without (p : Exchange → Bool) (s : State) : State :=
  { s with
    bus := { s.bus with queues := s.bus.queues.map fun l => l.filter fun e => !p e },
    devices := s.devices.map fun d =>
      if ∃ a, Exchange.clear a d.id ∈ queuedWhere p s then { d with clearState := .owed } else d }

theorem struck_queuedWhere {p : Exchange → Bool} {s : State} (queues : ∀ q : Fin 6, ∀ e ∈ s.bus.queues[q], e.queue = q) :
    s.struck (queuedWhere p s) = s.without p := by
  have left : (Vector.ofFn fun q : Fin 6 => (s.bus.queues[q]).diff ((queuedWhere p s).filter fun e => e.queue = q)) =
      s.bus.queues.map fun l => l.filter fun e => !p e := by
    ext i hi : 1
    rw [Vector.getElem_ofFn, Vector.getElem_map]
    have own : (queuedWhere p s).filter (fun e => e.queue = ⟨i, hi⟩) = (s.bus.queues[i]).filter p := by
      unfold queuedWhere
      rw [List.filter_flatMap, flatMap_single (q := ⟨i, hi⟩)]
      · exact List.filter_eq_self.mpr fun e mem => decide_eq_true (queues ⟨i, hi⟩ e (List.mem_of_mem_filter mem))
      · intro j other
        exact List.filter_eq_nil_iff.mpr fun e mem same =>
          other ((queues j e (List.mem_of_mem_filter mem)).symm.trans (of_decide_eq_true same))
    exact (congrArg (List.diff _) own).trans (diff_filter p _)
  have owed : (fun d : Device => if ∃ e ∈ queuedWhere p s, ∃ a, e = Exchange.clear a d.id then { d with clearState := ClearState.owed } else d) =
      fun d => if ∃ a, Exchange.clear a d.id ∈ queuedWhere p s then { d with clearState := .owed } else d := by
    funext d
    refine if_congr ⟨fun ⟨e, mem, a, same⟩ => ⟨a, same ▸ mem⟩, fun ⟨a, mem⟩ => ⟨_, mem, a, rfl⟩⟩ rfl rfl
  rw [State.struck, left, owed]
  rfl

/-- Exchanges discarded when none is a candidate's: they are gone, and nothing else happens but to the devices whose CLEAR was among them. -/
theorem discardWhere_eq {p : Exchange → Bool} {s : State} (queues : ∀ q : Fin 6, ∀ e ∈ s.bus.queues[q], e.queue = q)
    (free : ∀ e ∈ s.bus.queues[(1 : Fin 6)], p e = true → ∀ o ∈ s.ops, ∀ c, o.candidate = some c → e.slot? ≠ some c.slot) (b : Bool) :
    discardWhere p b s = s.without p := by
  unfold discardWhere
  rw [forEach_discarded, struck_queuedWhere queues]
  intro e mem one
  obtain ⟨meant, q, there⟩ := mem_queuedWhere.mp mem
  obtain rfl : q = 1 := (queues q e there).symm.trans one
  exact free e there meant

end Sys2Proof.Machine
end

section
/-! PROOF. The judgement of a PROBE (R124, R145, R149, R161). -/

namespace Sys2Proof.Machine

/-! ## The answer and the slot it judges (R176) -/

section
variable (id : DeviceId) (kind level fault : Byte)

/-- The parameters of a PROBE's answer. -/
def probeAnswer : List Byte := le32 id.toNat ++ [kind, level, fault]

theorem probeAnswer_id : BitVec.ofNat 32 (field32 (probeAnswer id kind level fault) 0) = id := by
  rw [show field32 (probeAnswer id kind level fault) 0 = field32 (le32 id.toNat) 0 from rfl, field32_le32]
  exact BitVec.ofNat_toNat _ _ |>.trans (BitVec.setWidth_eq id)

theorem probeAnswer_kind : field8 (probeAnswer id kind level fault) 4 = kind.toNat := rfl
theorem probeAnswer_level : reportedLevel (probeAnswer id kind level fault) 5 = min 100 level.toNat := rfl
theorem probeAnswer_fault : (probeAnswer id kind level fault).getD 6 0 = fault := rfl

end

theorem probeKind_none {n : Nat} (large : 1 < n) : probeKind n = none := by
  obtain ⟨m, rfl⟩ := Nat.exists_eq_add_of_le' large
  rfl

theorem probeKind_some {b : Byte} (small : b.toNat ≤ 1) : probeKind b.toNat = some (if b = 0 then .receiver else .mic) := by
  have cases : b.toNat = 0 ∨ b.toNat = 1 := by omega
  rcases cases with zero | one
  · rw [zero, if_pos (BitVec.eq_of_toNat_eq zero)]
    rfl
  · rw [one, if_neg fun zero => by rw [zero] at one; cases one]
    rfl

/-! ## A probed slot that faults -/

/-- The exchanges of a slot that has PROBEs alone, discarded, when it is in no charge phase. -/
theorem endCharging_discardSlot_probing {a : SlotAddr} {s : State} {y : Slot} (sound : WindowsSound s) (slot : s.slots[a] = some y)
    (idle : y.phase = .none) (only : ∀ (q : Fin 6) (e : Exchange), e ∈ s.bus.queues[q] → e.slot? = some a → e = .probe a) :
    endCharging a (discardSlot a false s) = { s with bus := { s.bus with
      queues := s.bus.queues.set 2 ((s.bus.queues[(2 : Fin 6)]).filter (fun e => e ≠ .probe a)) } } := by
  have queued (q : Fin 6) (e : Exchange) (mem : e ∈ s.bus.queues[q]) : e.queue = q := (sound.2.2.2 q).2 e mem
  unfold discardSlot
  rw [discardWhere_eq queued fun e mem named o _ c _ => ?_]
  · have left : s.bus.queues.map (fun l => l.filter fun e => !decide (e.slot? = some a)) =
        s.bus.queues.set 2 ((s.bus.queues[(2 : Fin 6)]).filter (fun e => e ≠ .probe a)) := by
      ext i hi : 1
      rw [Vector.getElem_map, Vector.getElem_set]
      by_cases second : 2 = i
      · subst second
        rw [if_pos rfl]
        refine List.filter_congr fun e mem => ?_
        rw [← decide_not]
        exact decide_eq_decide.mpr (not_congr ⟨only 2 e mem, fun same => same ▸ rfl⟩)
      · rw [if_neg second]
        refine List.filter_eq_self.mpr fun e mem => ?_
        rw [← decide_not]
        refine decide_eq_true fun named => second ?_
        have probe := only ⟨i, hi⟩ e mem named
        have own := queued ⟨i, hi⟩ e mem
        rw [probe] at own
        exact congrArg Fin.val own
    have devices : (s.without fun e => decide (e.slot? = some a)).devices = s.devices := by
      refine (List.map_congr_left fun d _ => if_neg ?_).trans (List.map_id' _)
      rintro ⟨b, mem⟩
      obtain ⟨named, q, there⟩ := mem_queuedWhere.mp mem
      cases only q _ there (of_decide_eq_true named)
    have whole : (s.without fun e => decide (e.slot? = some a)) = { s with bus := { s.bus with
        queues := s.bus.queues.set 2 ((s.bus.queues[(2 : Fin 6)]).filter (fun e => e ≠ .probe a)) } } := by
      refine (congrArg (fun l => { s.without (fun e => decide (e.slot? = some a)) with devices := l }) devices : _).trans ?_
      exact congrArg (fun v => { s with bus := { s.bus with queues := v } }) left
    rw [whole]
    unfold endCharging
    rw [show ({ s with bus := { s.bus with
        queues := s.bus.queues.set 2 ((s.bus.queues[(2 : Fin 6)]).filter (fun e => e ≠ .probe a)) } } : State).slots[a] = some y from slot,
      Option.map_some, Option.getD_some, idle]
  · have probe := only 1 e mem (of_decide_eq_true named)
    have own := queued 1 e mem
    rw [probe] at own
    cases own

/-! ## The return of an OUT device (R161) -/

/-- The roster entry a returned device had is FREE, its source OFF and its cells back. -/
def State.vacated (roster : Option RosterId) (s : State) : State :=
  let tied := fun j : SourceId => decide (roster.map Fin.val = some j.val ∧ s.sources[j].state ≠ .off)
  { s with
    roster := Vector.ofFn (fun i : RosterId => if roster = some i then .free else s.roster[i]),
    sources := Vector.ofFn (fun j : SourceId => if tied j then s.sources[j].rested .off else s.sources[j]),
    pool := { s.pool with
      freeList := s.pool.freeList ++ (List.finRange 14).flatMap (fun j => if tied j then s.sources[j].buffer.chain else []) } }

theorem ofFn_own {α : Type} {n : Nat} (v : Vector α n) : (Vector.ofFn fun i : Fin n => v[i]) = v := by
  ext i hi : 1
  rw [Vector.getElem_ofFn]
  rfl

theorem ofFn_set {α : Type} {n : Nat} (v : Vector α n) (k : Fin n) (x : α) :
    (Vector.ofFn fun i : Fin n => if i = k then x else v[i]) = v.set k x := by
  ext i hi : 1
  rw [Vector.getElem_ofFn, Vector.getElem_set]
  exact if_congr ⟨fun same => (congrArg Fin.val same).symm, fun same => Fin.ext same.symm⟩ rfl rfl

theorem flatMap_empty {α β : Type} (l : List α) : l.flatMap (fun _ => ([] : List β)) = [] := List.flatMap_eq_nil_iff.mpr fun _ _ => rfl

theorem vacated_none (s : State) : s.vacated none = s := by
  unfold State.vacated
  simp only [Option.map_none, reduceCtorEq, false_and, decide_false, Bool.false_eq_true, if_false, ofFn_own, flatMap_empty,
    List.append_nil]

theorem unbindRoster_eq (k : RosterId) (s : State) : unbindRoster k s = s.vacated (some k) := by
  have roster : (Vector.ofFn fun i : RosterId => if some k = some i then RosterEntry.free else s.roster[i]) = s.roster.set k .free := by
    rw [← ofFn_set]
    refine congrArg Vector.ofFn (funext fun i => if_congr ?_ rfl rfl)
    exact Option.some_inj.trans eq_comm
  have same (j : SourceId) : (some k).map Fin.val = some j.val ↔ j = uplinkSource k := by
    rw [Option.map_some, Option.some_inj]
    exact ⟨fun same => Fin.ext same.symm, fun same => (congrArg Fin.val same).symm⟩
  unfold unbindRoster sourceOff State.vacated
  rw [roster]
  simp only [same]
  by_cases off : s.sources[uplinkSource k].state = .off
  · have tied (j : SourceId) : decide (j = uplinkSource k ∧ s.sources[j].state ≠ .off) = false :=
      decide_eq_false fun ⟨same, runs⟩ => runs (same ▸ off)
    rw [if_pos (show (s.setRoster k .free).sources[uplinkSource k].state = .off from off)]
    simp only [tied, Bool.false_eq_true, if_false, ofFn_own, flatMap_empty, List.append_nil]
    rfl
  · have tied (j : SourceId) : decide (j = uplinkSource k ∧ s.sources[j].state ≠ .off) = decide (j = uplinkSource k) :=
      decide_eq_decide.mpr ⟨And.left, fun same => ⟨same, same ▸ off⟩⟩
    have sources : (Vector.ofFn fun j : SourceId => if j = uplinkSource k then s.sources[j].rested .off else s.sources[j]) =
        s.sources.set (uplinkSource k) (s.sources[uplinkSource k].rested .off) := by
      rw [← ofFn_set]
      refine congrArg Vector.ofFn (funext fun j => ?_)
      split
      · next same => rw [same]
      · rfl
    have cells : (List.finRange 14).flatMap (fun j : SourceId => if j = uplinkSource k then s.sources[j].buffer.chain else []) =
        s.sources[uplinkSource k].buffer.chain := by
      rw [flatMap_single (q := uplinkSource k) fun j other => if_neg other, if_pos rfl]
    rw [if_neg (show ¬(s.setRoster k .free).sources[uplinkSource k].state = .off from off)]
    simp only [tied, decide_eq_true_eq, sources, cells]
    rfl

/-- A channel with one group less bound to it. -/
def Channel.fewer (ch : Channel) : Channel := { ch with boundGroups := ch.boundGroups - 1 }

theorem freeGroup_eq (g : GroupId) (s : State) : freeGroup g s = { s with
    groups := s.groups.set g { s.groups[g] with state := .free, channel := none },
    channels := Vector.ofFn fun c : ChannelId => if s.groups[g].channel = some c then (s.channels[c]).fewer else s.channels[c] } := by
  unfold freeGroup
  dsimp only
  cases channel : s.groups[g].channel with
  | none =>
    simp only [reduceCtorEq, if_false, ofFn_own]
    rfl
  | some c =>
    have channels : (Vector.ofFn fun k : ChannelId => if some c = some k then (s.channels[k]).fewer else s.channels[k]) =
        s.channels.set c (s.channels[c]).fewer := by
      rw [← ofFn_set]
      refine congrArg Vector.ofFn (funext fun k => ?_)
      by_cases same : c = k
      · rw [if_pos (congrArg some same), if_pos same.symm, same]
      · rw [if_neg fun both => same (Option.some.inj both), if_neg fun both => same both.symm]
    rw [channels]
    rfl

/-- A returned device's record. -/
def Device.back (a : SlotAddr) (n : Nat) (d : Device) : Device := { d with state := .docked, slot := some a, level := n, assignment := none }

/-- The state after a device's return: its group's count and, when the last one is back, the group and its channel's count; its roster
entry; and DEVICE_RETURNED (R161). -/
def State.returned (d : Device) (asg : Assignment) (a : SlotAddr) (n : Nat) (s : State) : State :=
  let g := s.groups[asg.group]
  let closes : Prop := g.state = .closing ∧ g.outCount ≤ 1
  reported 21 a.val d.id { s.vacated asg.roster with
    groups := s.groups.set asg.group
      (if closes then { g with state := .free, channel := none, outCount := 0 } else { g with outCount := g.outCount - 1 }),
    channels := Vector.ofFn fun c : ChannelId => if closes ∧ g.channel = some c then (s.channels[c]).fewer else s.channels[c],
    devices := s.devices.map fun e => if e.id = d.id then e.back a n else e }

theorem returnDevice_eq {d : Device} {asg : Assignment} {s : State} {g : Group} (assigned : d.assignment = some asg)
    (group : s.groups[asg.group] = g) (a : SlotAddr) (n : Nat) :
    returnDevice d a n s = if g.state = .closing ∧ g.outCount ≤ 1 then
      reported 23 asg.group.val (BitVec.ofNat 32 ((g.channel.map Fin.val).getD 0)) (s.returned d asg a n) else s.returned d asg a n := by
  let counted := s.setGroup asg.group { g with outCount := g.outCount - 1 }
  let back := reported 21 a.val d.id ((counted.vacated asg.roster).modDevice d.id fun e => e.back a n)
  have unbound : returnDevice d a n s = closeIfEmpty asg.group back := by
    unfold returnDevice back
    rw [assigned]
    dsimp only
    rw [raise_eq_reported, BitVec.ofNat_toNat, BitVec.setWidth_eq, group]
    cases asg.roster with
    | none => rw [vacated_none]; rfl
    | some k => rw [← unbindRoster_eq]; rfl
  have fewer : back.groups[asg.group] = { g with outCount := g.outCount - 1 } := by
    unfold back
    rw [reported_eq]
    exact get_set_same ..
  rw [unbound]
  unfold closeIfEmpty State.returned
  dsimp only
  rw [fewer, group]
  by_cases closes : g.state = .closing ∧ g.outCount ≤ 1
  · have gone : g.outCount - 1 = 0 := Nat.sub_eq_zero_of_le closes.2
    rw [if_pos ⟨closes.1, gone⟩, if_pos closes, if_pos closes, raise_eq_reported, freeGroup_eq, fewer]
    refine congrArg (reported 23 _ _) ?_
    simp only [closes, true_and, gone, and_true]
    unfold back
    rw [reported_eq, reported_eq]
    simp only [counted, State.modDevice, State.vacated, State.setGroup, Vector.set_set]
    rfl
  · rw [if_neg fun both => closes ⟨both.1, Nat.sub_eq_zero_iff_le.mp both.2⟩, if_neg closes, if_neg closes]
    refine congrArg (reported 21 _ _) ?_
    simp only [closes, false_and, if_false, ofFn_own]
    rfl

end Sys2Proof.Machine
end

section
/-! PROOF. A completed PROBE, case by case (R124). -/

namespace Sys2Proof.Machine

/-! ## The slot that becomes OCCUPIED -/

/-- The slot's record when its PROBE brings device id. -/
def Slot.filled (id : DeviceId) (n : Nat) (x : Slot) : Slot := { x with occupancy := .occupied, deviceId := some id, level := n, timeouts := 0 }

theorem occupySlot_eq {a : SlotAddr} {s : State} {x : Slot} (slot : s.slots[a] = some x) (answered : x.timeouts = 0) (id : DeviceId)
    (kind : DeviceKind) (n : Nat) : occupySlot a id kind n s =
      (s.setSlot a (some (x.filled id n))).modDevice id fun d => { d with kind := kind, level := n } := by
  unfold occupySlot
  rw [modSlot_eq slot, Slot.filled, ← answered]

theorem enterCharging_devices (a : SlotAddr) (s : State) : (enterCharging a s).devices = s.devices := (Charging.refl s).enterCharging.devices_eq

/-- What the return of a device does to the slots, and to its record. -/
theorem returnDevice_devices (d : Device) (a : SlotAddr) (n : Nat) (s : State) : (returnDevice d a n s).slots = s.slots ∧
    ∃ f : Device → Device, (∀ e, (f e).id = e.id ∧ (f e).state = .docked ∧ (f e).slot = some a) ∧
      (returnDevice d a n s).devices = s.devices.map fun e => if e.id = d.id then f e else e := by
  cases assigned : d.assignment with
  | none =>
    have back : returnDevice d a n s = s.modDevice d.id fun e => { e with state := .docked, slot := some a, level := n } := by
      unfold returnDevice
      rw [assigned]
    rw [back]
    refine ⟨rfl, fun e => { e with state := .docked, slot := some a, level := n }, fun _ => ⟨rfl, rfl, rfl⟩, rfl⟩
  | some asg =>
    rw [returnDevice_eq assigned rfl]
    unfold State.returned
    refine ⟨?_, Device.back a n, fun _ => ⟨rfl, rfl, rfl⟩, ?_⟩
    · split <;> simp only [reported_eq] <;> rfl
    · split <;> simp only [reported_eq]

/-- Device id is DOCKED in slot a. -/
def DockedAt (a : SlotAddr) (id : DeviceId) (s : State) : Prop := ∃ d, s.device? id = some d ∧ d.state = .docked ∧ d.slot = some a

theorem dockedAt_congr {a : SlotAddr} {id : DeviceId} {s t : State} (devices : t.devices = s.devices) : DockedAt a id t ↔ DockedAt a id s := by
  unfold DockedAt State.device?
  rw [devices]

theorem dockedAt_modDevice {a : SlotAddr} {id : DeviceId} {d : Device} {s : State} {f : Device → Device} (found : s.device? id = some d)
    (docked : ∀ e, (f e).id = e.id ∧ (f e).state = .docked ∧ (f e).slot = some a) : DockedAt a id (s.modDevice id f) :=
  ⟨f d, by rw [device?_modDevice (fun e => (docked e).1), found, Option.map_some, if_pos (device?_id found)], (docked d).2⟩

theorem DockedAt.modDevice {a : SlotAddr} {id : DeviceId} {s : State} {f : Device → Device} (there : DockedAt a id s)
    (kept : ∀ e, (f e).id = e.id ∧ (f e).state = e.state ∧ (f e).slot = e.slot) : DockedAt a id (s.modDevice id f) := by
  obtain ⟨d, found, docked, slot⟩ := there
  refine ⟨f d, ?_, (kept d).2.1.trans docked, (kept d).2.2.trans slot⟩
  rw [device?_modDevice (fun e => (kept e).1), found, Option.map_some, if_pos (device?_id found)]

/-- What the outcome of a PROBE that fills its slot does to the slots and to the device's record. -/
theorem probeOutcome_fills {a : SlotAddr} {id : DeviceId} {kind : DeviceKind} {n : Nat} {s : State} {y : Slot} (slot : s.slots[a] = some y)
    (answered : y.timeouts = 0) (room : s.device? id ≠ none ∨ s.devices.length < 384) :
    let t := probeOutcome a id kind n s
    (t.slots[a]).map Slot.plate = some (y.filled id n).plate ∧
      (∀ c : SlotAddr, c ≠ a → (t.slots[c]).map Slot.plate = (s.slots[c]).map Slot.plate) ∧
      DockedAt a id t := by
  intro t
  have charges (u : State) (slots : u.slots = s.slots.set a (some (y.filled id n)))
      (device : DockedAt a id u) (enters : t = enterCharging a u) :
      (t.slots[a]).map Slot.plate = some (y.filled id n).plate ∧
        (∀ c : SlotAddr, c ≠ a → (t.slots[c]).map Slot.plate = (s.slots[c]).map Slot.plate) ∧
        DockedAt a id t := by
    have charging : Charging u (enterCharging a u) := (Charging.refl u).enterCharging
    rw [enters]
    refine ⟨(charging.plate a).trans ?_, fun c other => (charging.plate c).trans ?_, ?_⟩
    · rw [slots, get_set_same]
      rfl
    · rw [slots, get_set_other _ _ _ _ other]
    · exact (dockedAt_congr (enterCharging_devices a u)).mpr device
  cases found : s.device? id with
  | none =>
    have few := room.resolve_left fun there => there found
    let d : Device := { id := id, kind := kind, state := .docked, slot := some a, level := n, assignment := none, clearState := .none }
    have outcome : t = enterCharging a (occupySlot a id kind n { s with devices := s.devices ++ [d] }) := by
      unfold t probeOutcome
      rw [found]
      exact if_pos few
    rw [occupySlot_eq (s := { s with devices := s.devices ++ [d] }) slot answered] at outcome
    have added : ({ s with devices := s.devices ++ [d] } : State).device? id = some d := by
      unfold State.device? at found ⊢
      rw [List.find?_append, found, Option.none_or]
      exact List.find?_cons_of_pos (decide_eq_true rfl)
    refine charges _ rfl (.modDevice (f := fun d => { d with kind := kind, level := n }) ?_ fun _ => ⟨rfl, rfl, rfl⟩) outcome
    exact ⟨d, added, rfl, rfl⟩
  | some d =>
    by_cases out : d.state = .out
    · obtain ⟨slots, f, docked, devices⟩ := returnDevice_devices d a n s
      have own := device?_id found
      have outcome : t = enterCharging a (requestClear a id (occupySlot a id kind n (returnDevice d a n s))) := by
        unfold t probeOutcome
        rw [found]
        dsimp only
        rw [out]
      have there : (returnDevice d a n s).slots[a] = some y := by rw [slots]; exact slot
      rw [occupySlot_eq there answered, requestClear_asked (by rw [State.modDevice_slots, setSlot_get]; rfl)] at outcome
      refine charges _ ?_ ?_ outcome
      · exact congrArg (fun v : Vector (Option Slot) 256 => v.set a (some (y.filled id n))) slots
      · have returned : DockedAt a id (returnDevice d a n s) :=
          (dockedAt_congr (devices.trans (by rw [own]; rfl))).mpr (dockedAt_modDevice found docked)
        have occupied : DockedAt a id (((returnDevice d a n s).setSlot a (some (y.filled id n))).modDevice id
            fun d => { d with kind := kind, level := n }) :=
          .modDevice (s := (returnDevice d a n s).setSlot a _) returned fun _ => ⟨rfl, rfl, rfl⟩
        exact occupied.modDevice fun _ => ⟨rfl, rfl, rfl⟩
    · have outcome : t = enterCharging a (occupySlot a id kind n (s.modDevice id fun e => { e with state := .docked, slot := some a })) := by
        unfold t probeOutcome
        rw [found]
        dsimp only
        split
        · next was => exact absurd was out
        · rfl
      rw [occupySlot_eq (s := s.modDevice id _) slot answered] at outcome
      refine charges _ rfl ?_ outcome
      exact .modDevice (dockedAt_modDevice found fun _ => ⟨rfl, rfl, rfl⟩) fun _ => ⟨rfl, rfl, rfl⟩

theorem emptySlot_initial {reason : EmptyReason} {a : SlotAddr} {s : State} {x : Slot} (slot : s.slots[a] = some x)
    (full : x.occupancy ≠ .empty) : (emptySlot reason a s).slots[a] = some .initial := by
  unfold emptySlot
  rw [slot]
  dsimp only
  rw [if_neg full]
  exact setSlot_get ..

/-- A device has a record exactly when its id is in the table. -/
theorem device?_eq_none {s : State} {id : DeviceId} : s.device? id = none ↔ id ∉ s.devices.map Device.id := by
  unfold State.device?
  rw [List.find?_eq_none, List.mem_map]
  simp only [decide_eq_true_eq]
  exact ⟨fun absent ⟨d, mem, same⟩ => absent d mem same, fun absent d mem same => absent ⟨d, mem, same⟩⟩

theorem device?_none_congr {s t : State} (ids : t.devices.map Device.id = s.devices.map Device.id) (id : DeviceId) :
    t.device? id = none ↔ s.device? id = none := by
  rw [device?_eq_none, device?_eq_none, ids]

/-! ## The completed PROBE -/

section
variable {a : SlotAddr} {x : Slot} {id : DeviceId} {kind level fault : Byte} {s : State}

/-- The state a PROBE's answer is judged in: the bus free, the slot's timeouts 0. -/
def probed (a : SlotAddr) (x : Slot) (s : State) : State := (freeBus s).setSlot a (some { x with timeouts := 0 })

theorem exec_probed (answered : Answered (.probe a) (probeAnswer id kind level fault) s) (slot : s.slots[a] = some x) :
    exec .exchangeComplete s = .next (probeComplete a (probeAnswer id kind level fault) (probed a x s)) := by
  have timed : setTimeouts a 0 (freeBus s) = probed a x s := modSlot_eq (s := freeBus s) slot _
  rw [exec_answered answered, ← timed]
  rfl

/-- The answer brings a fault flag, id 0 or an unknown kind (R124 step 1). -/
theorem probeComplete_faulty (faulty : fault = 1 ∨ id = 0 ∨ 1 < kind.toNat) (s : State) :
    probeComplete a (probeAnswer id kind level fault) s = enterFault a .device (s.modSlot a fun x => { x with deviceId := none }) := by
  unfold probeComplete
  rw [probeAnswer_id, probeAnswer_kind, probeAnswer_fault]
  dsimp only
  by_cases large : 1 < kind.toNat
  · rw [probeKind_none large]
  · rw [probeKind_some (Nat.le_of_not_lt large)]
    refine if_pos ?_
    rcases faulty with rfl | zero | large'
    · exact .inl rfl
    · exact .inr zero
    · exact absurd large' large

/-- The answer brings a device (R124 steps 2 and 3). -/
theorem probeComplete_device (clear : fault = 0) (nonzero : id ≠ 0) (small : kind.toNat ≤ 1) (s : State) :
    probeComplete a (probeAnswer id kind level fault) s =
      probeOutcome a id (if kind = 0 then .receiver else .mic) (min 100 level.toNat)
        (match otherSlotOf a id s with | some b => emptySlot .stale b s | none => s) := by
  unfold probeComplete
  rw [probeAnswer_id, probeAnswer_kind, probeAnswer_fault, probeAnswer_level, probeKind_some small]
  refine if_neg ?_
  rintro (flag | zero)
  · rw [clear] at flag
    cases flag
  · exact nonzero zero

theorem otherSlotOf_none (alone : ∀ b : SlotAddr, b ≠ a → (s.slots[b]).bind Slot.deviceId ≠ some id) : otherSlotOf a id s = none := by
  unfold otherSlotOf
  rw [List.find?_eq_none]
  intro b _
  simpa using alone b

theorem otherSlotOf_some {b : SlotAddr} (other : b ≠ a) (named : (s.slots[b]).bind Slot.deviceId = some id)
    (only : ∀ c : SlotAddr, c ≠ a → c ≠ b → (s.slots[c]).bind Slot.deviceId ≠ some id) : otherSlotOf a id s = some b := by
  unfold otherSlotOf
  cases found : (List.finRange 256).find? fun b => decide (b ≠ a) && decide ((s.slots[b].bind Slot.deviceId) = some id) with
  | none =>
    refine absurd ?_ (List.find?_eq_none.mp found b (List.mem_finRange b))
    rw [Bool.and_eq_true, decide_eq_true_eq, decide_eq_true_eq]
    exact ⟨other, named⟩
  | some c =>
    have meant := List.find?_some found
    rw [Bool.and_eq_true, decide_eq_true_eq, decide_eq_true_eq] at meant
    by_contra wrong
    exact only c meant.1 (fun same => wrong (congrArg some same)) meant.2

/-- A slot that named nothing else of the device: the outcome alone (R124 step 3). -/
theorem probed_alone (answered : Answered (.probe a) (probeAnswer id kind level fault) s) (slot : s.slots[a] = some x) (clear : fault = 0)
    (nonzero : id ≠ 0) (small : kind.toNat ≤ 1) (alone : ∀ b : SlotAddr, b ≠ a → (s.slots[b]).bind Slot.deviceId ≠ some id) :
    exec .exchangeComplete s =
      .next (probeOutcome a id (if kind = 0 then .receiver else .mic) (min 100 level.toNat) (probed a x s)) := by
  rw [exec_probed answered slot, probeComplete_device clear nonzero small, otherSlotOf_none (s := probed a x s)]
  intro b other
  rw [show (probed a x s).slots[b] = s.slots[b] from get_set_other _ _ _ _ other]
  exact alone b other

/-- The state of a probed slot that has faulted. -/
theorem probed_faulted (windows : WindowsSound s) (slot : s.slots[a] = some x) (idle : x.phase = .none)
    (only : ∀ (q : Fin 6) (e : Exchange), e ∈ s.bus.queues[q] → e.slot? = some a → e = .probe a) (cause : FaultCause) :
    let gone : State := { s with bus := { s.bus with
      inFlight := none, queues := s.bus.queues.set 2 ((s.bus.queues[(2 : Fin 6)]).filter (fun e => e ≠ .probe a)) } }
    let t := { gone with
      slots := s.slots.set a (some { x with occupancy := .fault, faultCause := some cause, deviceId := none, timeouts := 0 }) }
    enterFault a cause ((probed a x s).modSlot a fun x => { x with deviceId := none }) =
      match cause with | .timeout => reported 17 a.val 1 t | .device => reported 17 a.val 2 t | .fleetFull => t := by
  intro gone t
  have there : (probed a x s).slots[a] = some { x with timeouts := 0 } := setSlot_get ..
  let y : Slot := { x with timeouts := 0, deviceId := none }
  let u := (freeBus s).setSlot a (some y)
  have unnamed : (probed a x s).modSlot a (fun x => { x with deviceId := none }) = u := by
    rw [modSlot_eq there, probed, setSlot_setSlot]
  have own : u.slots[a] = some y := setSlot_get ..
  let z : Slot := { y with occupancy := .fault, faultCause := some cause }
  have isSome : ((freeBus s).slots[a]).isSome := by rw [show (freeBus s).slots[a] = some x from slot]; rfl
  have sound : WindowsSound ((freeBus s).setSlot a (some z)) := ((freeBus_records s).slotWritten (by rw [isSome]; rfl)).windows windows
  have marked := markFault_reported own cause
  unfold enterFault
  rw [unnamed, marked]
  have discards (v : State) (records : Records ((freeBus s).setSlot a (some z)) v) (slots : v.slots[a] = some z)
      (queues : v.bus.queues = s.bus.queues) := endCharging_discardSlot_probing (records.windows sound) slots idle fun q e mem => only q e (by
        rwa [queues] at mem)
  have written : u.setSlot a (some z) = (freeBus s).setSlot a (some z) := setSlot_setSlot ..
  dsimp only
  rw [written]
  cases cause with
  | timeout | device =>
    dsimp only
    rw [discards (reported 17 a.val _ ((freeBus s).setSlot a (some z)))]
    · simp only [reported_eq]
      rfl
    · rw [reported_eq]
      exact (Records.refl _).of_eq rfl rfl rfl rfl rfl fun _ => ⟨rfl, rfl⟩
    · rw [reported_eq]
      exact setSlot_get ..
    · rw [reported_eq]
      rfl
  | fleetFull =>
    dsimp only
    rw [discards ((freeBus s).setSlot a (some z)) (.refl _) (setSlot_get ..) rfl]
    rfl

/-- A slot that named the device before is emptied, and the answered slot OCCUPIED by it (R124 step 2). -/
theorem probed_stale (answered : Answered (.probe a) (probeAnswer id kind level fault) s) (slot : s.slots[a] = some x) (clear : fault = 0)
    (nonzero : id ≠ 0) (small : kind.toNat ≤ 1) {b : SlotAddr} (other : b ≠ a) {y : Slot} (there : s.slots[b] = some y)
    (named : y.deviceId = some id) (full : y.occupancy ≠ .empty)
    (only : ∀ c : SlotAddr, c ≠ a → c ≠ b → (s.slots[c]).bind Slot.deviceId ≠ some id)
    (room : s.device? id ≠ none ∨ s.devices.length < 384) :
    ∃ t, exec .exchangeComplete s = .next t ∧ (t.slots[b]).map Slot.occupancy = some .empty ∧ (t.slots[b]).bind Slot.deviceId = none ∧
      (t.slots[a]).map Slot.occupancy = some .occupied ∧ namedAt t a = some id ∧ DockedAt a id t := by
  have away {c : SlotAddr} (apart : c ≠ a) : (probed a x s).slots[c] = s.slots[c] := get_set_other _ _ _ _ apart
  have found : otherSlotOf a id (probed a x s) = some b := by
    refine otherSlotOf_some other ?_ fun c first second => ?_
    · rw [away other, there]
      exact named
    · rw [away first]
      exact only c first second
  have emptied := emptySlot_emptied .stale b (probed a x s)
  have initial : (emptySlot .stale b (probed a x s)).slots[b] = some .initial := emptySlot_initial ((away other).trans there) full
  have own := emptied.other a (Ne.symm other)
  rw [show (probed a x s).slots[a] = some { x with timeouts := 0 } from setSlot_get ..] at own
  obtain ⟨z, record, plate⟩ := Option.map_eq_some_iff.mp own
  simp only [Slot.plate, Plate.mk.injEq] at plate
  obtain ⟨-, -, -, timeouts, -⟩ := plate
  have known : (emptySlot .stale b (probed a x s)).device? id ≠ none ∨ (emptySlot .stale b (probed a x s)).devices.length < 384 := by
    have length := congrArg List.length emptied.ids
    rw [List.length_map, List.length_map] at length
    refine room.imp (fun present absent => present ?_) fun few => length ▸ few
    exact (device?_none_congr emptied.ids id).mp absent
  obtain ⟨filled, others, docked⟩ := probeOutcome_fills (kind := if kind = 0 then .receiver else .mic) (n := min 100 level.toNat)
    record timeouts known
  refine ⟨_, ?_, ?_, ?_, ?_, ?_, docked⟩
  · rw [exec_probed answered slot, probeComplete_device clear nonzero small, found]
  · have last := congrArg (Option.map Plate.occupancy) (others b other)
    rw [initial] at last
    rw [Option.map_map] at last
    exact last
  · have last := congrArg (fun p => p.bind Plate.deviceId) (others b other)
    rw [initial] at last
    rw [Option.bind_map] at last
    exact last
  · have last := congrArg (Option.map Plate.occupancy) filled
    rw [Option.map_map] at last
    exact last
  · have last := congrArg (fun p => p.bind Plate.deviceId) filled
    rw [Option.bind_map] at last
    exact last

/-- A returned device (R161). -/
theorem probed_returned (devices : DevicesSound s) {d : Device} (found : s.device? id = some d)
    (out : d.state = .out) {asg : Assignment} (assigned : d.assignment = some asg) (k : DeviceKind) (n : Nat) :
    let g := s.groups[asg.group]
    let closes : Prop := g.state = .closing ∧ g.outCount ≤ 1
    let fits : Prop := (s.bus.queues[(4 : Fin 6)]).length < 64
    let docked := { d with kind := k, state := .docked, slot := some a, level := n, assignment := none,
                           clearState := if fits then .queued else .owed }
    let left := if closes then { g with state := .free, channel := none, outCount := 0 } else { g with outCount := g.outCount - 1 }
    let channels := Vector.ofFn (fun c : ChannelId => if closes ∧ g.channel = some c then (s.channels[c]).fewer else s.channels[c])
    let back := asked 4 [.clear a id] (reported 21 a.val id { (freeBus s).vacated asg.roster with
      slots := s.slots.set a (some (x.filled id n)), devices := s.devices.map (fun e => if e.id = id then docked else e),
      groups := s.groups.set asg.group left, channels := channels })
    probeOutcome a id k n (probed a x s) = enterCharging a (if closes then
      reported 23 asg.group.val (BitVec.ofNat 32 ((g.channel.map Fin.val).getD 0)) back else back) := by
  intro g closes fits docked left channels back
  have own := device?_id found
  subst own
  have there : (probed a x s).slots[a] = some { x with timeouts := 0 } := setSlot_get ..
  obtain ⟨slots, -⟩ := returnDevice_devices d a n (probed a x s)
  have at_slot : (returnDevice d a n (probed a x s)).slots[a] = some { x with timeouts := 0 } := by rw [slots]; exact there
  have outcome : probeOutcome a d.id k n (probed a x s) =
      enterCharging a (requestClear a d.id (occupySlot a d.id k n (returnDevice d a n (probed a x s)))) := by
    unfold probeOutcome
    rw [show (probed a x s).device? d.id = some d from found]
    dsimp only
    rw [out]
  have filled : (returnDevice d a n (probed a x s)).setSlot a (some (Slot.filled d.id n { x with timeouts := 0 })) =
      { returnDevice d a n (probed a x s) with slots := s.slots.set a (some (x.filled d.id n)) } := by
    refine congrArg (fun v => { returnDevice d a n (probed a x s) with slots := v }) ?_
    rw [slots]
    exact Vector.set_set ..
  rw [outcome, occupySlot_eq at_slot rfl, requestClear_asked (by rw [State.modDevice_slots, setSlot_get]; rfl), filled]
  refine congrArg (enterCharging a) ?_
  have records : ((s.devices.map fun e => if e.id = d.id then e.back a n else e).map fun e =>
      if e.id = d.id then { e with kind := k, level := n } else e).map (fun e =>
        if e.id = d.id then { e with clearState := if (s.bus.queues[(4 : Fin 6)]).length < 64 then ClearState.queued else .owed } else e) =
      s.devices.map fun e => if e.id = d.id then docked else e := by
    rw [List.map_map, List.map_map]
    refine List.map_congr_left fun e mem => ?_
    by_cases same : e.id = d.id
    · obtain rfl := eq_of_id_eq devices mem ((device?_eq_some devices).mp found).1 same
      simp only [Function.comp_apply, if_true, Device.back]
      rfl
    · simp only [Function.comp_apply, same, if_false]
  rw [returnDevice_eq (s := probed a x s) assigned rfl]
  unfold back
  rw [← records]
  have closed : (probed a x s).groups[asg.group] = g := rfl
  unfold State.returned left channels
  rw [closed]
  dsimp only
  by_cases empty : g.state = .closing ∧ g.outCount ≤ 1
  · rw [if_pos empty, if_pos empty, if_pos (show closes from empty)]
    simp only [reported_eq]
    rfl
  · rw [if_neg empty, if_neg empty, if_neg (show ¬closes from empty)]
    simp only [reported_eq]
    rfl

theorem probed_written (l : List Device) (y : Option Slot) : ({ probed a x s with devices := l } : State).setSlot a y =
    { freeBus s with slots := s.slots.set a y, devices := l } :=
  congrArg (fun v => { freeBus s with slots := v, devices := l }) (Vector.set_set ..)

/-- A device that has no record yet, with room for one (R145). -/
theorem probed_new (unknown : s.device? id = none) (few : s.devices.length < 384) (k : DeviceKind) (n : Nat) :
    let d : Device := { id := id, kind := k, state := .docked, slot := some a, level := n, assignment := none, clearState := .none }
    probeOutcome a id k n (probed a x s) =
      enterCharging a { freeBus s with slots := s.slots.set a (some (x.filled id n)), devices := s.devices ++ [d] } := by
  intro d
  have outcome : probeOutcome a id k n (probed a x s) =
      enterCharging a (occupySlot a id k n { probed a x s with devices := s.devices ++ [d] }) := by
    unfold probeOutcome
    rw [show (probed a x s).device? id = none from unknown]
    exact if_pos few
  have there : ({ probed a x s with devices := s.devices ++ [d] } : State).slots[a] = some { x with timeouts := 0 } := setSlot_get ..
  have devices : (s.devices ++ [d]).map (fun e => if e.id = id then { e with kind := k, level := n } else e) = s.devices ++ [d] := by
    rw [List.map_append]
    congr 1
    · refine (List.map_congr_left fun e mem => if_neg fun same => ?_).trans (List.map_id' _)
      exact device?_eq_none.mp unknown (List.mem_map.mpr ⟨e, mem, same⟩)
    · exact congrArg (fun e => [e]) (if_pos rfl)
  rw [outcome, occupySlot_eq there rfl]
  refine congrArg (enterCharging a) ?_
  conv_rhs => rw [← devices]
  exact congrArg (fun u : State => u.modDevice id fun e => { e with kind := k, level := n }) (probed_written ..)

/-- A device that has a record and is not OUT (R124 step 3). -/
theorem probed_known (devices : DevicesSound s) {d : Device} (found : s.device? id = some d) (inside : d.state ≠ .out) (k : DeviceKind) (n : Nat) :
    let docked := { d with kind := k, state := .docked, slot := some a, level := n }
    probeOutcome a id k n (probed a x s) = enterCharging a { freeBus s with
      slots := s.slots.set a (some (x.filled id n)), devices := s.devices.map (fun e => if e.id = id then docked else e) } := by
  intro docked
  have own := device?_id found
  subst own
  have outcome : probeOutcome a d.id k n (probed a x s) =
      enterCharging a (occupySlot a d.id k n ((probed a x s).modDevice d.id fun e => { e with state := .docked, slot := some a })) := by
    unfold probeOutcome
    rw [show (probed a x s).device? d.id = some d from found]
    dsimp only
    split
    · next out => exact absurd out inside
    · rfl
  have there : ((probed a x s).modDevice d.id fun e => { e with state := .docked, slot := some a }).slots[a] = some { x with timeouts := 0 } :=
    setSlot_get ..
  have records : (s.devices.map fun e => if e.id = d.id then { e with state := .docked, slot := some a } else e).map (fun e =>
      if e.id = d.id then { e with kind := k, level := n } else e) = s.devices.map fun e => if e.id = d.id then docked else e := by
    rw [List.map_map]
    refine List.map_congr_left fun e mem => ?_
    by_cases same : e.id = d.id
    · obtain rfl := eq_of_id_eq devices mem ((device?_eq_some devices).mp found).1 same
      simp only [Function.comp_apply, if_true]
      rfl
    · simp only [Function.comp_apply, same, if_false]
  rw [outcome, occupySlot_eq there rfl, ← records]
  refine congrArg (enterCharging a) ?_
  exact congrArg (fun u : State => u.modDevice d.id fun e => { e with kind := k, level := n }) (probed_written ..)

end

/-- Settles O52: the answer's fault, the stale slot, and the outcome by the device's record, each by its own lemma. -/
theorem probeIsJudged : Obligations.ProbeIsJudged := by
  intro a x id kind level fault s windows devices answered slot probing idle only free gone faulted k n here
  refine ⟨fun faulty => ?_, fun clear nonzero small => ⟨fun b other y there named full alone room => ?_, fun alone => ?_⟩⟩
  · rw [exec_probed answered slot, probeComplete_faulty faulty, probed_faulted windows slot idle only]
  · obtain ⟨t, runs, empty, unnamed, occupied, named, docked⟩ := probed_stale answered slot clear nonzero small other there named full alone room
    refine ⟨t, runs, empty, unnamed, occupied, named, fun d _ => ?_⟩
    obtain ⟨e, found, state, place⟩ := docked
    rw [found]
    exact ⟨congrArg some state, place⟩
  · have runs := probed_alone answered slot clear nonzero small alone
    refine ⟨fun unknown few => ?_, fun unknown crowded => ?_, fun d found inside => ?_, fun d found out asg assigned => ?_⟩
    · rw [runs, probed_new unknown few]
      rfl
    · have full : probeOutcome a id k n (probed a x s) = reported 24 a.val id
          (enterFault a .fleetFull ((probed a x s).modSlot a fun x => { x with deviceId := none })) := by
        unfold probeOutcome
        rw [show (probed a x s).device? id = none from unknown]
        dsimp only
        rw [if_neg (show ¬(probed a x s).devices.length < deviceCapacity from Nat.not_lt.mpr crowded), raise_eq_reported, BitVec.ofNat_toNat,
          BitVec.setWidth_eq]
        rfl
      rw [runs]
      refine congrArg Host.Outcome.next (full.trans ?_)
      rw [probed_faulted windows slot idle only]
    · rw [runs, probed_known devices found inside]
      rfl
    · rw [runs, probed_returned devices found out assigned]
      rfl

end Sys2Proof.Machine
end

section
/-! PROOF. RACK_REMOVE in a state whose admission queue holds a slot twice (R122, R134, R139). -/

namespace Sys2Proof.Machine

/-- A slot of the counterexample: OCCUPIED and WAITING, its device unknown. -/
def waitingTwice : Slot := { Slot.initial with occupancy := .occupied, level := 60, phase := .waiting, pollTimer := some 2 }

/-- Rack 0 with four slots, slot 0 twice in its admission queue, and room in its budget. -/
def rackTwice : RackWindow :=
  { base := 0, size := 4, settle := 4, rackState := .online, scanMisses := 0, scanTimer := true, budget := 2000, committed := 0,
    sessions := [], shedPart := [], micPart := [], receiverPart := [0, 0] }

/-- The part after its reset but for rack 0. WindowsSound lets the slot stand twice in the queue; AccountsSound does not. -/
def queuedTwice : State :=
  { State.reset with
    racks := State.reset.racks.set 0 (some rackTwice),
    slots := Vector.ofFn fun a : SlotAddr => if a = 0 then some waitingTwice else if a.val < 4 then some .initial else none }

theorem queuedTwice_serves : ServesNow queuedTwice := by unfold ServesNow; decide +kernel
theorem queuedTwice_windows : WindowsSound queuedTwice := by unfold WindowsSound; decide +kernel
theorem queuedTwice_devices : DevicesSound queuedTwice := by unfold DevicesSound; decide +kernel
theorem queuedTwice_rack : queuedTwice.racks[(0 : RackId)] = some rackTwice := by decide +kernel
theorem queuedTwice_unreserved : ∀ a : SlotAddr, (queuedTwice.slots[a]).bind Slot.reservation = none := by decide +kernel

/-- The SET_CHARGE queue after a command. -/
def chargesAfter (o : Host.Outcome State Fault Refusal) : List Exchange :=
  match o with
  | .next t => t.bus.queues[(3 : Fin 6)]
  | _ => []

/-- The emptying of slot 0 ends its charging, and the attempt that follows admits its second place in the queue: a SET_CHARGE of the
removed window's slot joins the queue behind the discarding of its exchanges. -/
theorem queuedTwice_removed : chargesAfter (exec (.rackRemove 0 (le8 0)) queuedTwice) = [.setCharge 0 .bulk] := by decide +kernel

/-- Refutes O49: no premise says that the account is sound, and in an admission queue that holds a slot twice the removal's attempt at
admission asks for a SET_CHARGE of that slot, which stays in its class queue when the window is gone. -/
theorem not_rackDefineAndRemove : ¬ Obligations.RackDefineAndRemove := by
  intro claim
  obtain ⟨-, -, -, removes⟩ := claim 0 queuedTwice queuedTwice_serves queuedTwice_windows queuedTwice_devices
  obtain ⟨-, removed⟩ := removes 0 rackTwice queuedTwice_rack
  obtain ⟨t, runs, -, -, queues, -⟩ := removed
    (fun ⟨a, _, x, slot, reserved⟩ => reserved (by
      have none_reserved := queuedTwice_unreserved a
      rwa [Option.mem_def.mp slot] at none_reserved))
    (fun _ mem => by cases mem)
  have left : t.bus.queues[(3 : Fin 6)] = [.setCharge 0 .bulk] := by
    have after := queuedTwice_removed
    rw [show exec (.rackRemove 0 (le8 0)) queuedTwice = .next t from runs] at after
    exact after
  have none_left : t.bus.queues[(3 : Fin 6)] = [] := queues 3
  rw [left] at none_left
  cases none_left

end Sys2Proof.Machine
end

section
/-! PROOF. An operation's choice of its next slot (R153), and its completion (R158). -/

namespace Sys2Proof.Machine

/-! ## The operation of a group -/

section
variable {s : State} {o : IssueOperation}

theorem op?_of_mem (issues : IssuesSound s) (mem : o ∈ s.ops) : s.op? o.group = some o := by
  obtain ⟨-, nodup, -⟩ := issues
  unfold State.op?
  cases found : s.ops.find? fun p => p.group = o.group with
  | none => exact absurd (decide_eq_true rfl) (List.find?_eq_none.mp found o mem)
  | some p =>
    have same := of_decide_eq_true (List.find?_some (p := fun p : IssueOperation => decide (p.group = o.group)) found)
    exact congrArg some (List.inj_on_of_nodup_map nodup (List.mem_of_find?_eq_some found) mem same)

/-- A change of a group's operation is a change of the one operation it has. -/
theorem modOp_eq (issues : IssuesSound s) (mem : o ∈ s.ops) (f : IssueOperation → IssueOperation) :
    s.modOp o.group f = { s with ops := s.ops.map fun q => if q.group = o.group then f o else q } := by
  obtain ⟨-, nodup, -⟩ := issues
  refine congrArg (fun l => { s with ops := l }) (List.map_congr_left fun q there => ?_)
  by_cases same : q.group = o.group
  · rw [if_pos same, if_pos same, List.inj_on_of_nodup_map nodup there mem same]
  · rw [if_neg same, if_neg same]

theorem nextOrComplete_cancelled (found : s.op? o.group = some o) (cancelled : o.cancel = true) :
    nextOrComplete o.group s = completed o s := by
  unfold nextOrComplete
  rw [found]
  dsimp only
  rw [if_pos cancelled, completeOp_eq found]

theorem nextOrComplete_running (found : s.op? o.group = some o) (runs : o.cancel = false) : nextOrComplete o.group s =
    match bestSlot o s with | some a => reserveSlot o.group o a s | none => completed o s := by
  unfold nextOrComplete
  rw [found]
  dsimp only
  rw [runs, if_neg nofun]
  unfold chooseNext
  rw [found]
  dsimp only
  cases bestSlot o s with
  | none => exact completeOp_eq found
  | some a => rfl

/-! ## The best slot (R153) -/

theorem eligible_iff (a : SlotAddr) : eligible o s a = true ↔ Choosable o s a := by
  unfold eligible Choosable
  cases s.slots[a] with
  | none => simp
  | some x => cases found : x.deviceId.bind s.device? <;> simp [found]

theorem bestSlot_none (nothing : ∀ a, ¬Choosable o s a) : bestSlot o s = none := by
  unfold bestSlot
  rw [List.filter_eq_nil_iff.mpr fun a _ eligible => nothing a ((eligible_iff a).mp eligible)]
  rfl

theorem better_mem (best : Option SlotAddr) (a : SlotAddr) : better s best a = some a ∨ better s best a = best := by
  unfold better
  cases best with
  | none => exact .inl rfl
  | some b =>
    dsimp only
    split
    · exact .inl rfl
    · exact .inr rfl

theorem foldl_better_mem {l : List SlotAddr} {best : Option SlotAddr} {b : SlotAddr} (found : l.foldl (better s) best = some b) :
    best = some b ∨ b ∈ l := by
  induction l generalizing best with
  | nil => exact .inl found
  | cons a l ih =>
    rcases ih found with here | later
    · rcases better_mem (s := s) best a with taken | kept
      · rw [taken] at here
        exact .inr (Option.some.inj here ▸ List.mem_cons_self)
      · exact .inl (kept ▸ here)
    · exact .inr (List.mem_cons_of_mem a later)

/-- No later slot is better than the best. -/
theorem foldl_better_stays {l : List SlotAddr} {a : SlotAddr} (none_better : ∀ b ∈ l, levelAt s b ≤ levelAt s a) :
    l.foldl (better s) (some a) = some a := by
  induction l with
  | nil => rfl
  | cons b l ih =>
    have worse : better s (some a) b = some a := if_neg (Nat.not_lt.mpr (none_better b List.mem_cons_self))
    rw [List.foldl_cons, worse]
    exact ih fun c mem => none_better c (List.mem_cons_of_mem b mem)

theorem levelAt_of {a : SlotAddr} {x : Slot} (slot : s.slots[a] = some x) : levelAt s a = x.level := by
  rw [levelAt, slot]
  rfl

theorem bestSlot_chosen {a : SlotAddr} (chosen : Chosen o s a) : bestSlot o s = some a := by
  obtain ⟨choosable, best⟩ := chosen
  obtain ⟨x, slot, -⟩ := id choosable
  have mem : a ∈ (List.finRange 256).filter (eligible o s) := List.mem_filter.mpr ⟨List.mem_finRange a, (eligible_iff a).mpr choosable⟩
  have ordered : ((List.finRange 256).filter (eligible o s)).Pairwise (· < ·) := List.Pairwise.filter _ (List.pairwise_lt_finRange 256)
  have beaten (b : SlotAddr) (there : b ∈ (List.finRange 256).filter (eligible o s)) (other : b ≠ a) :
      levelAt s b < levelAt s a ∨ (levelAt s b = levelAt s a ∧ a < b) := by
    have rival := (eligible_iff b).mp (List.mem_filter.mp there).2
    obtain ⟨y, at_b, -⟩ := id rival
    rw [levelAt_of at_b, levelAt_of slot]
    exact best b rival other x slot y at_b
  unfold bestSlot
  obtain ⟨before, after, cut⟩ := List.append_of_mem mem
  rw [cut] at ordered beaten ⊢
  obtain ⟨-, latter, across⟩ := List.pairwise_append.mp ordered
  have taken : better s (before.foldl (better s) none) a = some a := by
    cases first : before.foldl (better s) none with
    | none => rfl
    | some b =>
      have there : b ∈ before := (foldl_better_mem first).resolve_left nofun
      have earlier : b < a := across b there a List.mem_cons_self
      refine if_pos ?_
      exact (beaten b (List.mem_append_left _ there) (ne_of_lt earlier)).resolve_right fun tie => lt_asymm earlier tie.2
  rw [List.foldl_append, List.foldl_cons, taken]
  refine foldl_better_stays fun b there => ?_
  have later : a < b := (List.pairwise_cons.mp latter).1 b there
  rcases beaten b (List.mem_append_right _ (List.mem_cons_of_mem a there)) (ne_of_gt later) with less | ⟨same, -⟩
  · exact le_of_lt less
  · exact le_of_eq same

end

/-! ## A reservation (R140, R153) -/

section
variable {s : State} {r : RackId} {w : RackWindow} {a : SlotAddr} {x : Slot}

/-- The window when a slot leaves charging in its phase. -/
def RackWindow.left (w : RackWindow) (a : SlotAddr) : ChargePhase → RackWindow
  | .waiting => w.withoutWaiting a
  | .bulk => w.withoutSession a 450
  | .top => w.withoutSession a 120
  | _ => w

theorem RackWindow.left_base (w : RackWindow) (a : SlotAddr) (p : ChargePhase) : (w.left a p).base = w.base ∧ (w.left a p).size = w.size := by
  cases p <;> simp only [RackWindow.left, RackWindow.withoutWaiting, RackWindow.withoutSession, and_self]

theorem setRack_own (rack : s.racks[r] = some w) : s.setRack r (some w) = s := by rw [State.setRack, set_own rack]

theorem leaveCharging_eq (h : Stands s r w a x) :
    leaveCharging a s = (s.setRack r (some (w.left a x.phase))).setSlot a (some x.uncharged) := by
  unfold leaveCharging
  rw [h.slot, Option.map_some, Option.getD_some]
  cases phase : x.phase with
  | none | full =>
    dsimp only [RackWindow.left]
    rw [setRack_own h.rack, modSlot_eq h.slot]
  | waiting | bulk | top =>
    dsimp only
    rw [h.modRackOf, setRack_modSlot h.slot]
    rfl

/-- An attempt at admission does not look at the issue operations. -/
theorem requestSetCharge_ops (b : SlotAddr) (m : ChargeMode) (l : List IssueOperation) (s : State) :
    requestSetCharge b m { s with ops := l } = { requestSetCharge b m s with ops := l } := by
  unfold requestSetCharge request
  rw [show (Exchange.setCharge b m).allowed { s with ops := l } = (Exchange.setCharge b m).allowed s from rfl,
    show (Exchange.setCharge b m).merged { s with ops := l } = (Exchange.setCharge b m).merged s from rfl,
    show ({ s with ops := l } : State).bus = s.bus from rfl]
  split_ifs <;> rfl

theorem attemptLoop_ops (n : Nat) (r : RackId) (l : List IssueOperation) (s : State) :
    attemptLoop n r { s with ops := l } = { attemptLoop n r s with ops := l } := by
  induction n generalizing s with
  | zero => rfl
  | succ n ih =>
    unfold attemptLoop
    rw [show ({ s with ops := l } : State).racks = s.racks from rfl]
    cases s.racks[r] with
    | none => rfl
    | some w =>
      dsimp only
      cases w.admission with
      | nil => rfl
      | cons a rest =>
        dsimp only
        rw [show headDraw a { s with ops := l } = headDraw a s from rfl]
        split_ifs
        · rw [← ih]
          refine congrArg (attemptLoop n r) ?_
          exact requestSetCharge_ops a _ l ((s.modRack r _).modSlot a _)
        · rfl

theorem attempt_ops (r : RackId) (l : List IssueOperation) (s : State) : attempt r { s with ops := l } = { attempt r s with ops := l } :=
  attemptLoop_ops ..

/-- The chosen slot's record. -/
def Slot.reserved (x : Slot) (handle : Nat) : Slot := { x.uncharged with reservation := some handle }

/-- The state in which the chosen slot's rack looks at its queue (R140). -/
def State.reserving (s : State) (r : RackId) (w : RackWindow) (a : SlotAddr) (x : Slot) (handle : Nat) : State :=
  dropChargeExchanges a ((s.setRack r (some (w.left a x.phase))).setSlot a (some (x.reserved handle)))

theorem reserveSlot_eq {o : IssueOperation} (h : Stands s r w a x) (occupied : x.occupancy = .occupied) (issues : IssuesSound s)
    (mem : o ∈ s.ops) {c : ChannelId} (channel : (s.groups[o.group].channel).getD 0 = c) :
    reserveSlot o.group o a s = asked 1 [.tune a c o.group o.roster] (attempt r { s.reserving r w a x (handleOf o.group) with
      ops := s.ops.map fun q => if q.group = o.group then { o with candidate := some { slot := a, stage := .tune, tunedChannel := c } } else q }) := by
  let y : Slot := { x with reservation := some (handleOf o.group) }
  have marked : s.modSlot a (fun x => { x with reservation := some (handleOf o.group) }) = s.setSlot a (some y) := modSlot_eq h.slot _
  have stands : Stands (s.setSlot a (some y)) r w a y := h.writeSlot rfl rfl
  have leaves : leaveCharging a (s.setSlot a (some y)) = (s.setRack r (some (w.left a x.phase))).setSlot a (some (x.reserved (handleOf o.group))) := by
    rw [leaveCharging_eq stands, ← setSlot_setRack, setSlot_setSlot]
    rfl
  obtain ⟨base, size⟩ := w.left_base a x.phase
  have later : Stands (s.reserving r w a x (handleOf o.group)) r (w.left a x.phase) a (x.reserved (handleOf o.group)) :=
    h.write base size rfl rfl
  have ends : endByReservation a (s.setSlot a (some y)) = attempt r (s.reserving r w a x (handleOf o.group)) := by
    unfold endByReservation
    rw [leaves]
    exact later.attemptFor
  have charging : Charging (s.reserving r w a x (handleOf o.group)) (attempt r (s.reserving r w a x (handleOf o.group))) := (Charging.refl _).attempt
  unfold reserveSlot
  rw [channel, marked, ends]
  have ops : (attempt r (s.reserving r w a x (handleOf o.group))).ops = s.ops := charging.ops_eq
  have changed := modOp_eq (s := attempt r (s.reserving r w a x (handleOf o.group))) (o := o) (charging.minor.issues (issues.congr rfl fun _ => ⟨rfl, rfl⟩))
    (by rw [ops]; exact mem) fun p => { p with candidate := some { slot := a, stage := .tune, tunedChannel := c } }
  dsimp only
  rw [changed, ops]
  refine Eq.trans ?_ (congrArg (asked 1 _) (attempt_ops r _ (s.reserving r w a x (handleOf o.group))).symm)
  refine ask_eq_asked (e := .tune a c o.group o.roster) ?_ rfl
  have plate := charging.plate a
  rw [later.slot] at plate
  refine decide_eq_true ?_
  have occupancy := congrArg (Option.map Plate.occupancy) plate
  rw [Option.map_map] at occupancy
  exact occupancy.trans (congrArg some occupied)

end

end Sys2Proof.Machine
end

section
/-! PROOF. A candidate's TUNE and RELEASE: their answers, their timeouts, and what discards them (R155 to R157). -/

namespace Sys2Proof.Machine

/-! ## The operation with a candidate -/

/-- The group found by a test that only its operation meets. -/
theorem find?_group {p : IssueOperation → Bool} {l : List IssueOperation} {o : IssueOperation} (mem : o ∈ l) (own : p o = true)
    (only : ∀ q ∈ l, p q = true → q.group = o.group) : (l.find? p).map IssueOperation.group = some o.group := by
  cases found : l.find? p with
  | none => exact absurd own (List.find?_eq_none.mp found o mem)
  | some q => exact congrArg some (only q (List.mem_of_find?_eq_some found) (List.find?_some found))

/-- Operation o is under way with candidate c, the only one at its slot, whose record is x. -/
structure Candidacy (o : IssueOperation) (c : Candidate) (x : Slot) (s : State) : Prop where
  issues : IssuesSound s
  mem : o ∈ s.ops
  candidate : o.candidate = some c
  slot : s.slots[c.slot] = some x
  alone : ∀ p ∈ s.ops, p.group ≠ o.group → p.candidate.map Candidate.slot ≠ some c.slot

/-- The operation's record changed, among the others. -/
def State.opChanged (s : State) (o p : IssueOperation) : List IssueOperation := s.ops.map fun q => if q.group = o.group then p else q

/-- The operation without its failed candidate. -/
def IssueOperation.lost (o : IssueOperation) (a : SlotAddr) : IssueOperation :=
  { o with candidate := none, tried := if a ∈ o.tried then o.tried else o.tried ++ [a] }

/-- The state when a candidate has failed, before the operation goes on (R157). -/
def State.failed (s : State) (o : IssueOperation) (a : SlotAddr) (x : Slot) : State :=
  { s with slots := s.slots.set a (some { x with reservation := none }), ops := s.opChanged o (o.lost a) }

namespace Candidacy

section
variable {o : IssueOperation} {c : Candidate} {x y : Slot} {s t : State}

theorem congr (h : Candidacy o c x s) (slot : t.slots[c.slot] = some y) (ops : t.ops = s.ops) (groups : t.groups = s.groups) :
    Candidacy o c y t where
  issues := h.issues.congr (by rw [ops]) fun g => by rw [groups]; exact ⟨rfl, rfl⟩
  mem := ops ▸ h.mem
  candidate := h.candidate
  slot := slot
  alone := ops ▸ h.alone

theorem op? (h : Candidacy o c x s) : s.op? o.group = some o := op?_of_mem h.issues h.mem

theorem candidateGroup (h : Candidacy o c x s) {l : List Stage} (stage : c.stage ∈ l) : Machine.candidateGroup c.slot l s = some o.group := by
  unfold Machine.candidateGroup
  refine find?_group h.mem ?_ fun p mem found => ?_
  · rw [h.candidate]
    exact decide_eq_true ⟨rfl, stage⟩
  · by_contra other
    refine h.alone p mem other ?_
    cases candidate : p.candidate with
    | none => rw [candidate] at found; cases found
    | some k =>
      rw [candidate] at found
      exact congrArg some (of_decide_eq_true found).1

theorem failAt (h : Candidacy o c x s) {l : List Stage} (stage : c.stage ∈ l) (emptying : Bool) :
    Machine.failAt c.slot l emptying s = nextOrComplete o.group
      (if emptying = false ∧ x.occupancy = .occupied then handBack c.slot (s.failed o c.slot x) else s.failed o c.slot x) := by
  have freed : (s.modSlot c.slot fun x => { x with reservation := none }) = s.setSlot c.slot (some { x with reservation := none }) :=
    modSlot_eq h.slot _
  have changed : (s.modSlot c.slot fun x => { x with reservation := none }).modOp o.group (fun o => o.lost c.slot) = s.failed o c.slot x := by
    rw [freed]
    exact modOp_eq (s := s.setSlot c.slot _) (o := o) (h.issues.congr rfl fun _ => ⟨rfl, rfl⟩) h.mem _
  have at_slot : (s.failed o c.slot x).slots[c.slot] = some { x with reservation := none } := get_set_same ..
  unfold Machine.failAt
  rw [h.candidateGroup stage]
  change (fun u : State => nextOrComplete o.group (if emptying = false ∧ decide ((u.slots[c.slot].map Slot.occupancy) = some .occupied) = true then
    handBack c.slot u else u)) ((s.modSlot c.slot fun x => { x with reservation := none }).modOp o.group fun o => o.lost c.slot) = _
  rw [changed]
  dsimp only
  rw [at_slot, Option.map_some]
  simp only [Option.some.injEq, decide_eq_true_eq]

end

end Candidacy

/-! ## A timeout of the TUNE or the RELEASE (R155 to R157) -/

/-- The exchange that a candidate waits for. -/
def Candidate.waitsFor (c : Candidate) (e : Exchange) : Prop :=
  (∃ d h k, c.stage = .tune ∧ e = .tune c.slot d h k) ∨ (c.stage = .release ∧ e = .release c.slot)

theorem Candidate.waitsFor.named {c : Candidate} {e : Exchange} (waits : c.waitsFor e) : e.slot? = some c.slot ∧ e.queue = 1 := by
  rcases waits with ⟨d, h, k, -, rfl⟩ | ⟨-, rfl⟩ <;> exact ⟨rfl, rfl⟩

section
variable {o : IssueOperation} {c : Candidate} {x : Slot} {s : State}

/-- A timeout and a discarding of the exchange that the candidate waits for fail it. -/
theorem Candidacy.delivered (h : Candidacy o c x s) {e : Exchange} (waits : c.waitsFor e) (emptying : Bool) :
    deliverDiscarded emptying e s = nextOrComplete o.group
      (if emptying = false ∧ x.occupancy = .occupied then handBack c.slot (s.failed o c.slot x) else s.failed o c.slot x) := by
  rcases waits with ⟨d, g, k, stage, rfl⟩ | ⟨stage, rfl⟩
  · exact h.failAt (l := [.tune]) (by rw [stage]; exact List.mem_cons_self) emptying
  · exact h.failAt (l := [.release]) (by rw [stage]; exact List.mem_cons_self) emptying

theorem deliverTimeout_eq {e : Exchange} (waits : c.waitsFor e) (s : State) : deliverTimeout e s = deliverDiscarded false e s := by
  rcases waits with ⟨d, g, k, -, rfl⟩ | ⟨-, rfl⟩ <;> rfl

theorem probeAgain_eq {e : Exchange} (waits : c.waitsFor e) (s : State) : probeAgain e s = s := by
  rcases waits with ⟨d, g, k, -, rfl⟩ | ⟨-, rfl⟩ <;> rfl

/-- A raise and the failure of a candidate touch different parts. -/
theorem failed_reported (k : EventId) (n : Nat) (d : BitVec 32) (s : State) (o : IssueOperation) (a : SlotAddr) (x : Slot) :
    (reported k n d s).failed o a x = reported k n d (s.failed o a x) := by
  unfold State.failed State.opChanged
  simp only [reported_eq]
  rfl

theorem candidate_timesOut (h : Candidacy o c x s) (occupied : x.occupancy = .occupied) {e : Exchange} (unanswered : Unanswered e s)
    (first : x.timeouts = 0) (waits : c.waitsFor e) : exec .exchangeTimeout s = .next (nextOrComplete o.group (enterCharging c.slot (told c.slot .off
      (reported 16 c.slot.val (BitVec.ofNat 32 (kindCode e)) { s with
        bus := { s.bus with inFlight := none }, slots := s.slots.set c.slot (some { x with timeouts := 1, reservation := none }),
        ops := s.opChanged o (o.lost c.slot) })))) := by
  let u : State := { s with bus := { s.bus with inFlight := none }, slots := s.slots.set c.slot (some { x with timeouts := 1 }) }
  have at_slot : u.slots[c.slot] = some { x with timeouts := 1 } := get_set_same ..
  have there : Candidacy o c { x with timeouts := 1 } (reported 16 c.slot.val (BitVec.ofNat 32 (kindCode e)) u) :=
    h.congr (by rw [reported_eq]; exact at_slot) (by rw [reported_eq]) (by rw [reported_eq])
  have missed : (reported 16 c.slot.val (BitVec.ofNat 32 (kindCode e)) u).failed o c.slot { x with timeouts := 1 } =
      reported 16 c.slot.val (BitVec.ofNat 32 (kindCode e)) { s with
        bus := { s.bus with inFlight := none }, slots := s.slots.set c.slot (some { x with timeouts := 1, reservation := none }),
        ops := s.opChanged o (o.lost c.slot) } := by
    rw [failed_reported]
    exact congrArg (fun v => reported 16 c.slot.val (BitVec.ofNat 32 (kindCode e)) { s with
      bus := { s.bus with inFlight := none }, slots := v, ops := s.opChanged o (o.lost c.slot) }) (Vector.set_set ..)
  rw [exec_unanswered unanswered waits.named.1, slotTimeout_first h.slot first, probeAgain_eq waits, deliverTimeout_eq waits,
    there.delivered waits, if_pos ⟨rfl, occupied⟩, missed]
  refine congrArg (fun u => Host.Outcome.next (nextOrComplete o.group (enterCharging c.slot u))) (requestSetCharge_told ?_ .off)
  rw [reported_eq]
  exact (congrArg (Option.map Slot.occupancy) (get_set_same ..)).trans (congrArg some occupied)

/-! ## A TUNE answered (R155) -/

/-- The candidate's RELEASE is requested, and its device owes no CLEAR (R155). -/
theorem Candidacy.tuneAnswered (h : Candidacy o c x s) (occupied : x.occupancy = .occupied) {id : DeviceId} (named : x.deviceId = some id)
    (stage : c.stage = .tune) : Machine.tuneAnswered c.slot s = asked 1 [.release c.slot] { s with
      ops := s.opChanged o { o with candidate := some { c with stage := .release } },
      devices := s.devices.map (fun d =>
        if d.id = id then { d with clearState := if d.clearState = .owed then .none else d.clearState } else d) } := by
  unfold Machine.tuneAnswered
  rw [h.candidateGroup (by rw [stage]; exact List.mem_cons_self)]
  dsimp only
  let u := s.modDevice id fun d => { d with clearState := if d.clearState = .owed then .none else d.clearState }
  have release := request_eq_asked (e := .release c.slot) (s := u)
    (decide_eq_true ((congrArg (Option.map Slot.occupancy) h.slot).trans (congrArg some occupied))) rfl
  rw [h.slot, Option.bind_some, named]
  dsimp only
  rw [show request (.release c.slot) (s.modDevice id _) = _ from release]
  have changed := modOp_eq (s := asked 1 [.release c.slot] u) (o := o) (h.issues.congr rfl fun _ => ⟨rfl, rfl⟩) h.mem
    fun p => { p with candidate := p.candidate.map fun k => { k with stage := .release } }
  rw [h.candidate] at changed
  by_cases room : (u.bus.queues[(1 : Fin 6)]).length < 64
  · rw [if_pos (show (u.bus.queues[(Exchange.release c.slot).queue]).length < 64 from room)]
    exact changed
  · rw [if_neg (show ¬(u.bus.queues[(Exchange.release c.slot).queue]).length < 64 from room)]
    exact changed

theorem tune_answered (h : Candidacy o c x s) (occupied : x.occupancy = .occupied) {id : DeviceId} (named : x.deviceId = some id)
    (stage : c.stage = .tune) {e : Exchange} {level : Byte} (answered : Answered e [level] s)
    (tunes : ∃ g k, e = .tune c.slot c.tunedChannel g k) :
    let t := heard c.slot x level s
    exec .exchangeComplete s = .next (asked 1 [.release c.slot] { t with
      ops := s.opChanged o { o with candidate := some { c with stage := .release } },
      devices := t.devices.map (fun d =>
        if d.id = id then { d with clearState := if d.clearState = .owed then .none else d.clearState } else d) }) := by
  intro t
  obtain ⟨g, k, rfl⟩ := tunes
  have at_slot : t.slots[c.slot] = some { x with timeouts := 0, level := min 100 level.toNat } := get_set_same ..
  have there : Candidacy o c { x with timeouts := 0, level := min 100 level.toNat } t := h.congr at_slot rfl rfl
  rw [exec_answered answered]
  change Host.Outcome.next (tuneAnswered c.slot (storeLevel c.slot (min 100 level.toNat) (setTimeouts c.slot 0 (freeBus s)))) = _
  rw [storeLevel_heard h.slot]
  change Host.Outcome.next (tuneAnswered c.slot t) = _
  exact congrArg Host.Outcome.next (there.tuneAnswered occupied named stage)

end

end Sys2Proof.Machine
end

section
/-! PROOF. A RELEASE answered: the device is handed out (R156). -/

namespace Sys2Proof.Machine

/-! ## The roster entry of a device handed out (R151) -/

/-- The roster entry BOUND to the device, and its source, when OFF with the air running, called in. -/
def State.seated (roster : Option RosterId) (id : DeviceId) (s : State) : State :=
  { s with
    sources := Vector.ofFn (fun j : SourceId =>
      if decide (roster.map Fin.val = some j.val ∧ s.air.running = true ∧ s.sources[j].state = .off) then s.sources[j].rested .waiting
      else s.sources[j]),
    roster := Vector.ofFn (fun i : RosterId => if roster = some i then .bound id else s.roster[i]) }

theorem seated_none (id : DeviceId) (s : State) : s.seated none id = s := by
  unfold State.seated
  simp only [Option.map_none, reduceCtorEq, false_and, decide_false, Bool.false_eq_true, if_false, ofFn_own]

theorem bindRoster_eq {k : RosterId} {s : State} (empty : s.air.running = true → s.sources[uplinkSource k].state = .off →
    s.sources[uplinkSource k].buffer.chain = []) (id : DeviceId) : bindRoster k id s = s.seated (some k) id := by
  have roster : (Vector.ofFn fun i : RosterId => if some k = some i then RosterEntry.bound id else s.roster[i]) = s.roster.set k (.bound id) := by
    rw [← ofFn_set]
    refine congrArg Vector.ofFn (funext fun i => if_congr ?_ rfl rfl)
    exact Option.some_inj.trans eq_comm
  have same (j : SourceId) : (some k).map Fin.val = some j.val ↔ j = uplinkSource k := by
    rw [Option.map_some, Option.some_inj]
    exact ⟨fun same => Fin.ext same.symm, fun same => (congrArg Fin.val same).symm⟩
  unfold bindRoster sourceWaiting State.seated
  rw [roster]
  simp only [same]
  by_cases called : s.air.running = true ∧ s.sources[uplinkSource k].state = .off
  · have tied (j : SourceId) : decide (j = uplinkSource k ∧ s.air.running = true ∧ s.sources[j].state = .off) = decide (j = uplinkSource k) :=
      decide_eq_decide.mpr ⟨And.left, fun same => ⟨same, called.1, same ▸ called.2⟩⟩
    have sources : (Vector.ofFn fun j : SourceId => if j = uplinkSource k then s.sources[j].rested .waiting else s.sources[j]) =
        s.sources.set (uplinkSource k) (s.sources[uplinkSource k].rested .waiting) := by
      rw [← ofFn_set]
      refine congrArg Vector.ofFn (funext fun j => ?_)
      split
      · next same => rw [same]
      · rfl
    rw [if_pos (show (s.setRoster k (.bound id)).air.running = true from called.1),
      if_pos (show (s.setRoster k (.bound id)).sources[uplinkSource k].state = .off from called.2)]
    simp only [tied, decide_eq_true_eq, sources]
    unfold enterRest returnCells
    rw [show (s.setRoster k (.bound id)).sources[uplinkSource k].buffer.chain = [] from empty called.1 called.2, List.append_nil]
    rfl
  · have tied (j : SourceId) : decide (j = uplinkSource k ∧ s.air.running = true ∧ s.sources[j].state = .off) = false :=
      decide_eq_false fun ⟨same, runs, off⟩ => called ⟨runs, same ▸ off⟩
    simp only [tied, Bool.false_eq_true, if_false, ofFn_own]
    split
    · next runs =>
      rw [if_neg (show ¬(s.setRoster k (.bound id)).sources[uplinkSource k].state = .off from fun off => called ⟨runs, off⟩)]
      rfl
    · rfl

/-! ## The device handed out -/

/-- The roster entry that a device handed out takes: a microphone's. -/
def IssueOperation.seat (o : IssueOperation) : Option RosterId := if o.kind = .mic then o.roster else none

theorem IssueOperation.seat_eq (o : IssueOperation) (i : RosterId) : o.seat = some i ↔ o.kind = .mic ∧ o.roster = some i := by
  unfold IssueOperation.seat
  split
  · next mic => exact (and_iff_right mic).symm
  · next other => exact iff_of_false nofun fun both => other both.1

theorem IssueOperation.seat_map (o : IssueOperation) (n : Nat) :
    o.seat.map Fin.val = some n ↔ o.kind = .mic ∧ o.roster.map Fin.val = some n := by
  unfold IssueOperation.seat
  split
  · next mic => exact (and_iff_right mic).symm
  · next other => exact iff_of_false nofun fun both => other both.1

section
variable {o : IssueOperation} {c : Candidate} {x : Slot} {s : State}

theorem issueDevice_eq (h : Candidacy o c x s) {k : ChannelId} (channel : s.groups[o.group].channel = some k) (id : DeviceId)
    (empty : ∀ j : RosterId, o.seat = some j → s.air.running = true → s.sources[uplinkSource j].state = .off →
      s.sources[uplinkSource j].buffer.chain = []) :
    let p := { o with issued := o.issued + 1, candidate := none, retuned := o.retuned || decide (k ≠ c.tunedChannel) }
    let out := fun d : Device => { d with state := .out, assignment := some { group := o.group, channel := k, roster := o.roster } }
    issueDevice o.group o c.slot id s = State.seated o.seat id { s with
      slots := s.slots.set c.slot (some { x with reservation := none, released := true }), ops := s.opChanged o p,
      groups := s.groups.set o.group { s.groups[o.group] with outCount := s.groups[o.group].outCount + 1 },
      devices := s.devices.map (fun d => if d.id = id then out d else d) } := by
  intro p out
  let u : State := { s with
    slots := s.slots.set c.slot (some { x with reservation := none, released := true }), ops := s.opChanged o p,
    groups := s.groups.set o.group { s.groups[o.group] with outCount := s.groups[o.group].outCount + 1 },
    devices := s.devices.map (fun d => if d.id = id then out d else d) }
  have changed : (s.modDevice id out).modOp o.group (fun q =>
      { q with retuned := q.retuned || decide (k ≠ c.tunedChannel), issued := q.issued + 1, candidate := none }) =
      { s.modDevice id out with ops := s.opChanged o p } :=
    modOp_eq (s := s.modDevice id out) (o := o) (h.issues.congr rfl fun _ => ⟨rfl, rfl⟩) h.mem _
  have slot : (({ s.modDevice id out with ops := s.opChanged o p } : State).setGroup o.group
      { s.groups[o.group] with outCount := s.groups[o.group].outCount + 1 }).slots[c.slot] = some x := h.slot
  have written := modSlot_eq slot fun x => { x with reservation := none, released := true }
  unfold issueDevice
  rw [channel, h.candidate]
  dsimp only [Option.map_some, Option.getD_some]
  rw [changed]
  have seat_mic {j : RosterId} (kind : o.kind = .mic) (roster : o.roster = some j) : o.seat = some j := (if_pos kind).trans roster
  split
  · next k kind roster =>
    rw [seat_mic kind roster]
    refine (congrArg (bindRoster k id) written).trans (bindRoster_eq (s := u) ?_ id)
    exact empty k (seat_mic kind roster)
  · next other =>
    have seat : o.seat = none := by
      unfold IssueOperation.seat
      split
      · next kind =>
        cases roster : o.roster with
        | none => rfl
        | some k => exact absurd roster (other k kind)
      · rfl
    rw [seat, seated_none]
    exact written

theorem opChanged_groups {p : IssueOperation} (s : State) (same : p.group = o.group) :
    (s.opChanged o p).map IssueOperation.group = s.ops.map IssueOperation.group := by
  unfold State.opChanged
  rw [List.map_map]
  refine List.map_congr_left fun q _ => ?_
  rw [Function.comp_apply]
  split
  · next here => exact same.trans here.symm
  · rfl

theorem mem_opChanged {p : IssueOperation} {s : State} (mem : o ∈ s.ops) : p ∈ s.opChanged o p :=
  List.mem_map.mpr ⟨o, mem, if_pos rfl⟩

theorem release_answered (h : Candidacy o c x s) {id : DeviceId} (named : x.deviceId = some id) (stage : c.stage = .release) {level : Byte}
    (answered : Answered (.release c.slot) [level] s) {k : ChannelId} (channel : s.groups[o.group].channel = some k)
    (empty : ∀ j : RosterId, o.seat = some j → s.air.running = true → s.sources[uplinkSource j].state = .off →
      s.sources[uplinkSource j].buffer.chain = []) :
    let t := heard c.slot x level s
    let p := { o with issued := o.issued + 1, candidate := none, retuned := o.retuned || decide (k ≠ c.tunedChannel) }
    let out := fun d : Device => { d with state := .out, assignment := some { group := o.group, channel := k, roster := o.roster } }
    let u := State.seated o.seat id { t with
      slots := s.slots.set c.slot (some { x with timeouts := 0, level := min 100 level.toNat, reservation := none, released := true }),
      ops := s.opChanged o p, groups := s.groups.set o.group { s.groups[o.group] with outCount := s.groups[o.group].outCount + 1 },
      devices := t.devices.map (fun d => if d.id = id then out d else d) }
    exec .exchangeComplete s = .next (if o.count ≤ o.issued + 1 then completed p u else nextOrComplete o.group u) := by
  intro t p out u
  have at_slot : t.slots[c.slot] = some { x with timeouts := 0, level := min 100 level.toNat } := get_set_same ..
  have there : Candidacy o c { x with timeouts := 0, level := min 100 level.toNat } t := h.congr at_slot rfl rfl
  have handed : issueDevice o.group o c.slot id t = u := by
    rw [issueDevice_eq there channel id empty]
    exact congrArg (fun v => State.seated o.seat id { t with
      slots := v, ops := s.opChanged o p, groups := s.groups.set o.group { s.groups[o.group] with outCount := s.groups[o.group].outCount + 1 },
      devices := t.devices.map (fun d => if d.id = id then out d else d) }) (Vector.set_set ..)
  have issues : IssuesSound u := h.issues.congr (opChanged_groups s rfl) fun g => by
    change ((s.groups.set o.group _)[g]).state = _ ∧ ((s.groups.set o.group _)[g]).issueHandle = _
    rw [get_set_cases]
    split
    · next same => subst same; exact ⟨rfl, rfl⟩
    · exact ⟨rfl, rfl⟩
  have found : u.op? o.group = some p := op?_of_mem (o := p) issues (mem_opChanged h.mem)
  rw [exec_answered answered]
  change Host.Outcome.next (releaseAnswered c.slot (storeLevel c.slot (min 100 level.toNat) (setTimeouts c.slot 0 (freeBus s)))) = _
  rw [storeLevel_heard h.slot]
  change Host.Outcome.next (releaseAnswered c.slot t) = _
  unfold releaseAnswered
  rw [there.candidateGroup (by rw [stage]; exact List.mem_cons_self)]
  dsimp only
  rw [there.op?, at_slot, Option.bind_some]
  dsimp only
  rw [named]
  dsimp only
  rw [handed, completeOp_eq found]

end

end Sys2Proof.Machine
end

section
/-! PROOF. A candidate's slot that faults or is found empty (R119, R121, R156, R157), and the statement about candidates. -/

namespace Sys2Proof.Machine

/-! ## A slot out of charging is left alone by the work on others -/

/-- Slot a holds x, and no admission queue has it. -/
def Spared (a : SlotAddr) (x : Option Slot) (s : State) : Prop :=
  s.slots[a] = x ∧ ∀ (r : RackId) (w : RackWindow), s.racks[r] = some w → a ∉ w.admission

namespace Spared

section
variable {a b : SlotAddr} {x : Option Slot} {s : State}

theorem congr {t : State} (h : Spared a x s) (slots : t.slots = s.slots) (racks : t.racks = s.racks) : Spared a x t := by
  unfold Spared
  rwa [slots, racks]

theorem setSlot (h : Spared a x s) (other : b ≠ a) (y : Option Slot) : Spared a x (s.setSlot b y) :=
  ⟨(get_set_other _ _ _ _ (Ne.symm other)).trans h.1, h.2⟩

theorem modSlot (h : Spared a x s) (other : b ≠ a) (f : Slot → Slot) : Spared a x (s.modSlot b f) := h.setSlot other _

theorem modRack (h : Spared a x s) (r : RackId) {f : RackWindow → RackWindow} (fewer : ∀ w, ∀ c ∈ (f w).admission, c ∈ w.admission) :
    Spared a x (s.modRack r f) := by
  refine ⟨h.1, fun q v there mem => ?_⟩
  rw [show (s.modRack r f).racks[q] = if q = r then (s.racks[r]).map f else s.racks[q] from get_set_cases ..] at there
  split at there
  · obtain ⟨w, before, rfl⟩ := Option.map_eq_some_iff.mp there
    exact h.2 r w before (fewer w a mem)
  · exact h.2 q v there mem

theorem modRackOf (h : Spared a x s) {f : RackWindow → RackWindow} (fewer : ∀ w, ∀ c ∈ (f w).admission, c ∈ w.admission) :
    Spared a x (Machine.modRackOf b f s) := by
  unfold Machine.modRackOf
  split
  · exact h.modRack _ fewer
  · exact h

theorem requestSetCharge (h : Spared a x s) (other : b ≠ a) (m : ChargeMode) : Spared a x (Machine.requestSetCharge b m s) := by
  have asked : Spared a x (request (.setCharge b m) s).2 := h.congr (ask_aside (.setCharge b m) s).2.2.1 (ask_aside (.setCharge b m) s).2.1
  unfold Machine.requestSetCharge
  split
  · next eq =>
    rw [eq] at asked
    exact asked.modSlot other _
  · next eq =>
    rw [eq] at asked
    exact asked

end

theorem withoutSession_admission (w : RackWindow) (b : SlotAddr) (n : Nat) : (w.withoutSession b n).admission = w.admission := by
  simp only [RackWindow.admission, RackWindow.withoutSession]

theorem withoutWaiting_fewer (w : RackWindow) (b c : SlotAddr) (mem : c ∈ (w.withoutWaiting b).admission) : c ∈ w.admission := by
  simp only [RackWindow.admission, RackWindow.withoutWaiting, List.mem_append] at mem ⊢
  exact mem.imp (Or.imp List.mem_of_mem_erase List.mem_of_mem_erase) List.mem_of_mem_erase

section
variable {a b : SlotAddr} {x : Option Slot} {s : State}

theorem admitHead (h : Spared a x s) (other : b ≠ a) (r : RackId) : Spared a x (Machine.admitHead r b s) := by
  unfold Machine.admitHead
  refine requestSetCharge (modSlot ?_ other _) other _
  exact h.modRack r fun w c mem => withoutWaiting_fewer w b c mem

theorem attempt (h : Spared a x s) (r : RackId) : Spared a x (Machine.attempt r s) := by
  unfold Machine.attempt
  generalize ((s.racks[r].map (fun w => w.admission.length)).getD 0) = n
  induction n generalizing s with
  | zero => exact h
  | succ n ih =>
    unfold attemptLoop
    split
    · exact h
    · next w rack =>
      split
      · exact h
      · next b rest waiting =>
        have other : b ≠ a := fun same => h.2 r w rack (by rw [waiting, same]; exact List.mem_cons_self)
        split
        · exact ih (h.admitHead other r)
        · exact h

theorem attemptFor (h : Spared a x s) : Spared a x (Machine.attemptFor b s) := by
  unfold Machine.attemptFor
  split
  · exact h.attempt _
  · exact h

theorem leaveCharging (h : Spared a x s) (other : b ≠ a) : Spared a x (Machine.leaveCharging b s) := by
  unfold Machine.leaveCharging
  refine modSlot ?_ other _
  split
  · exact h.modRackOf fun w c mem => withoutWaiting_fewer w b c mem
  · exact h.modRackOf fun w c mem => by rwa [withoutSession_admission] at mem
  · exact h.modRackOf fun w c mem => by rwa [withoutSession_admission] at mem
  · exact h

theorem reserveSlot (h : Spared a x s) (other : b ≠ a) (o : IssueOperation) : Spared a x (Machine.reserveSlot o.group o b s) := by
  unfold Machine.reserveSlot
  have marked := h.modSlot other fun x => { x with reservation := some (handleOf o.group) }
  generalize s.modSlot b (fun x => { x with reservation := some (handleOf o.group) }) = m at marked
  have left : Spared a x (dropChargeExchanges b (Machine.leaveCharging b m)) := (marked.leaveCharging other).congr rfl rfl
  have ended : Spared a x (endByReservation b m) := left.attemptFor
  dsimp only
  generalize endByReservation b m = u at ended
  obtain ⟨-, racks, slots, -⟩ := ask_aside (.tune b ((s.groups[o.group].channel).getD 0) o.group o.roster)
    (u.modOp o.group fun p => { p with candidate := some { slot := b, stage := .tune, tunedChannel := (s.groups[o.group].channel).getD 0 } })
  exact ended.congr slots racks

/-- An operation that goes on spares a slot that it cannot choose. -/
theorem nextOrComplete (h : Spared a x s) {o : IssueOperation} (found : s.op? o.group = some o) (barred : ¬Choosable o s a) :
    Spared a x (Machine.nextOrComplete o.group s) := by
  have completes : Spared a x (completed o s) := by
    unfold completed
    simp only [reported_eq]
    exact h.congr rfl rfl
  cases cancelled : o.cancel with
  | true =>
    rw [nextOrComplete_cancelled found cancelled]
    exact completes
  | false =>
    rw [nextOrComplete_running found cancelled]
    cases best : bestSlot o s with
    | none => exact completes
    | some b =>
      have mem : b ∈ (List.finRange 256).filter (eligible o s) := (foldl_better_mem best).resolve_left nofun
      exact h.reserveSlot (fun same => barred (same ▸ (eligible_iff b).mp (List.mem_filter.mp mem).2)) o

end

end Spared

theorem nextOrComplete_devices (g : GroupId) (s : State) : (nextOrComplete g s).devices = s.devices :=
  (congrArg State.devices (nextOrComplete_offIssue g s) :)

theorem endCharging_idle {a : SlotAddr} {s : State} {x : Slot} (slot : s.slots[a] = some x) (idle : x.phase = .none) : endCharging a s = s := by
  unfold endCharging
  rw [slot, Option.map_some, Option.getD_some, idle]

/-! ## The exchanges of a candidate's slot (R120) -/

/-- The class queues without the exchanges of class 2 that name a slot. -/
def State.queuesWithout (s : State) (a : SlotAddr) : Vector (List Exchange) 6 :=
  s.bus.queues.set 1 ((s.bus.queues[(1 : Fin 6)]).filter fun e => !decide (e.slot? = some a))

section
variable {a : SlotAddr} {s : State}

theorem queuedWhere_slot (unasked : ∀ (q : Fin 6) (e : Exchange), q ≠ 1 → e ∈ s.bus.queues[q] → e.slot? ≠ some a) :
    queuedWhere (fun e => decide (e.slot? = some a)) s = (s.bus.queues[(1 : Fin 6)]).filter fun e => decide (e.slot? = some a) := by
  unfold queuedWhere
  refine flatMap_single fun q other => List.filter_eq_nil_iff.mpr fun e mem named => ?_
  exact unasked q e other mem (of_decide_eq_true named)

/-- A slot with no exchange queued. -/
theorem discardSlot_quiet (unasked : ∀ (q : Fin 6) (e : Exchange), q ≠ 1 → e ∈ s.bus.queues[q] → e.slot? ≠ some a)
    (none_left : (s.bus.queues[(1 : Fin 6)]).filter (fun e => decide (e.slot? = some a)) = []) (b : Bool) : discardSlot a b s = s := by
  unfold discardSlot discardWhere
  rw [queuedWhere_slot unasked, none_left]
  rfl

theorem queuesWithout_quiet (none_left : (s.bus.queues[(1 : Fin 6)]).filter (fun e => decide (e.slot? = some a)) = []) :
    s.queuesWithout a = s.bus.queues := by
  unfold State.queuesWithout
  refine set_own (k := (1 : Fin 6)) ?_
  refine (List.filter_eq_self.mpr fun e mem => ?_).symm
  rw [Bool.not_eq_true', Bool.eq_false_iff]
  exact List.filter_eq_nil_iff.mp none_left e mem

theorem unqueue_at {e : Exchange} {q : Fin 6} (cls : e.queue = q) : unqueue e s = s.setQueue q ((s.bus.queues[q]).erase e) := by
  subst cls
  rfl

/-- A slot whose one queued exchange is its candidate's. -/
theorem discardSlot_single (unasked : ∀ (q : Fin 6) (e : Exchange), q ≠ 1 → e ∈ s.bus.queues[q] → e.slot? ≠ some a) {e : Exchange}
    (cls : e.queue = 1) (single : (s.bus.queues[(1 : Fin 6)]).filter (fun e => decide (e.slot? = some a)) = [e]) (b : Bool) :
    discardSlot a b s = deliverDiscarded b e { s with bus := { s.bus with queues := s.queuesWithout a } } := by
  have erased : (s.bus.queues[(1 : Fin 6)]).erase e = (s.bus.queues[(1 : Fin 6)]).filter fun e => !decide (e.slot? = some a) := by
    rw [← diff_filter, single, List.diff_cons, List.diff_nil]
  unfold discardSlot discardWhere
  rw [queuedWhere_slot unasked, single, forEach_cons, forEach_nil]
  rw [unqueue_at cls, erased]
  rfl

end

/-! ## The candidate's slot in FAULT (R119, R125) -/

section
variable {o : IssueOperation} {c : Candidate} {x : Slot} {s : State}

/-- The second timeout of the exchange that the candidate waits for. -/
theorem candidate_secondTimeout (h : Candidacy o c x s) {e : Exchange} (waits : c.waitsFor e)
    (none_left : (s.bus.queues[(1 : Fin 6)]).filter (fun e => decide (e.slot? = some c.slot)) = [])
    (unasked : ∀ (q : Fin 6) (e : Exchange), q ≠ 1 → e ∈ s.bus.queues[q] → e.slot? ≠ some c.slot) (idle : x.phase = .none)
    (second : x.timeouts ≠ 0) (unanswered : Unanswered e s) :
    exec .exchangeTimeout s = .next (nextOrComplete o.group (reported 17 c.slot.val 1 { s with
      bus := { s.bus with inFlight := none, queues := s.queuesWithout c.slot },
      slots := s.slots.set c.slot (some { x with occupancy := .fault, faultCause := some .timeout, timeouts := 2, reservation := none }),
      ops := s.opChanged o (o.lost c.slot) })) := by
  let y : Slot := { x with timeouts := 2, occupancy := .fault, faultCause := some .timeout }
  let m : State := (freeBus s).setSlot c.slot (some y)
  have twice : ((freeBus s).setSlot c.slot (some { x with timeouts := 2 })).slots[c.slot] = some { x with timeouts := 2 } := setSlot_get ..
  have marked : markFault c.slot .timeout ((freeBus s).setSlot c.slot (some { x with timeouts := 2 })) = reported 17 c.slot.val 1 m := by
    rw [markFault_reported twice]
    dsimp only
    rw [setSlot_setSlot]
  have at_slot : (reported 17 c.slot.val 1 m).slots[c.slot] = some y := by
    rw [reported_eq]
    exact setSlot_get ..
  have queues : (reported 17 c.slot.val 1 m).bus.queues = s.bus.queues := by
    rw [reported_eq]
    rfl
  have faulted : enterFault c.slot .timeout ((freeBus s).setSlot c.slot (some { x with timeouts := 2 })) = reported 17 c.slot.val 1 m := by
    unfold enterFault
    rw [marked, discardSlot_quiet (by rw [queues]; exact unasked) (by rw [queues]; exact none_left), endCharging_idle at_slot idle]
  have there : Candidacy o c y (reported 17 c.slot.val 1 m) := h.congr at_slot (by rw [reported_eq]; rfl) (by rw [reported_eq]; rfl)
  rw [exec_unanswered unanswered waits.named.1, slotTimeout_second h.slot second, deliverTimeout_eq waits, faulted, there.delivered waits,
    if_neg (fun both => by cases both.2), failed_reported, queuesWithout_quiet none_left]
  refine congrArg (fun u => Host.Outcome.next (nextOrComplete o.group (reported 17 c.slot.val 1 u))) ?_
  exact congrArg (fun v => { freeBus s with slots := v, ops := s.opChanged o (o.lost c.slot) }) (Vector.set_set ..)

/-- The operation of a failed candidate goes on without its slot. -/
theorem Candidacy.goesOn (h : Candidacy o c x s) (accounts : ∀ (r : RackId) (w : RackWindow), s.racks[r] = some w → c.slot ∉ w.admission) :
    Spared c.slot (some { x with reservation := none }) (nextOrComplete o.group (s.failed o c.slot x)) := by
  have issues : IssuesSound (s.failed o c.slot x) := h.issues.congr (opChanged_groups s rfl) fun _ => ⟨rfl, rfl⟩
  have found : (s.failed o c.slot x).op? (o.lost c.slot).group = some (o.lost c.slot) := op?_of_mem issues (mem_opChanged h.mem)
  have spared : Spared c.slot (some { x with reservation := none }) (s.failed o c.slot x) := ⟨get_set_same .., accounts⟩
  refine spared.nextOrComplete (o := o.lost c.slot) found fun ⟨_, _, _, _, _, _, _, _, _, _, untried⟩ => untried ?_
  unfold IssueOperation.lost
  dsimp only
  split
  · assumption
  · exact List.mem_append_right _ List.mem_cons_self

theorem unwaiting_of_accounts (sound : AccountsSound s) {a : SlotAddr} (slot : s.slots[a] = some x) (idle : x.phase = .none) (r : RackId)
    (w : RackWindow) (rack : s.racks[r] = some w) : a ∉ w.admission := by
  intro mem
  obtain ⟨-, -, -, each⟩ := sound r w rack
  have waiting := ((each a).2.mp mem).2
  rw [slot, Option.map_some, idle] at waiting
  cases waiting

/-- A POLL's answer with the fault flag discards the TUNE or RELEASE that waits. -/
theorem candidate_polledFault (h : Candidacy o c x s) {e : Exchange} (waits : c.waitsFor e)
    (single : (s.bus.queues[(1 : Fin 6)]).filter (fun e => decide (e.slot? = some c.slot)) = [e])
    (unasked : ∀ (q : Fin 6) (e : Exchange), q ≠ 1 → e ∈ s.bus.queues[q] → e.slot? ≠ some c.slot) (accounts : AccountsSound s)
    (idle : x.phase = .none) {level : Byte} (answered : Answered (.poll c.slot) [level, 1] s) :
    exec .exchangeComplete s = .next (nextOrComplete o.group (reported 17 c.slot.val 2 { heard c.slot x level s with
      bus := { s.bus with inFlight := none, queues := s.queuesWithout c.slot },
      slots := s.slots.set c.slot (some { x with
        occupancy := .fault, faultCause := some .device, timeouts := 0, level := min 100 level.toNat, reservation := none }),
      ops := s.opChanged o (o.lost c.slot) })) := by
  let t := heard c.slot x level s
  let z : Slot := { x with timeouts := 0, level := min 100 level.toNat }
  let y : Slot := { z with occupancy := .fault, faultCause := some .device }
  let m : State := t.setSlot c.slot (some y)
  have at_heard : t.slots[c.slot] = some z := get_set_same ..
  have marked : markFault c.slot .device t = reported 17 c.slot.val 2 m := markFault_reported at_heard .device
  let n : State := { reported 17 c.slot.val 2 m with bus := { t.bus with queues := s.queuesWithout c.slot } }
  have bus : (reported 17 c.slot.val 2 m).bus = t.bus := by rw [reported_eq]; rfl
  have discarded : discardSlot c.slot false (reported 17 c.slot.val 2 m) = deliverDiscarded false e n := by
    have queues : (reported 17 c.slot.val 2 m).bus.queues = s.bus.queues := by rw [bus]; rfl
    rw [discardSlot_single (by rw [queues]; exact unasked) waits.named.2 (by rw [queues]; exact single)]
    unfold n State.queuesWithout
    rw [queues, bus]
  have at_slot : n.slots[c.slot] = some y := by
    unfold n
    rw [reported_eq]
    exact setSlot_get ..
  have there : Candidacy o c y n := h.congr at_slot (by unfold n; rw [reported_eq]; rfl) (by unfold n; rw [reported_eq]; rfl)
  have spared := there.goesOn fun r w rack => unwaiting_of_accounts accounts h.slot idle r w (by
    rw [← rack]
    unfold n
    rw [reported_eq]
    rfl)
  have faulted : enterFault c.slot .device t = nextOrComplete o.group (n.failed o c.slot y) := by
    unfold enterFault
    rw [marked, discarded, there.delivered waits, if_neg (fun both => by cases both.2), endCharging_idle spared.1 idle]
  rw [exec_answered answered]
  change Host.Outcome.next (enterFault c.slot .device (storeLevel c.slot (min 100 level.toNat) (setTimeouts c.slot 0 (freeBus s)))) = _
  rw [storeLevel_heard h.slot]
  change Host.Outcome.next (enterFault c.slot .device t) = _
  rw [faulted]
  refine congrArg (fun u => Host.Outcome.next (nextOrComplete o.group u)) ?_
  have slots : n.slots.set c.slot (some { y with reservation := none }) = s.slots.set c.slot (some { y with reservation := none }) := by
    unfold n
    rw [reported_eq]
    exact (Vector.set_set ..).trans (Vector.set_set ..)
  unfold State.failed
  rw [slots]
  unfold n State.opChanged
  simp only [reported_eq]
  rfl

end

end Sys2Proof.Machine
end

section
/-! PROOF. A candidate's slot that a SCAN finds empty (R121), and the statement about candidates. -/

namespace Sys2Proof.Machine

/-! ## A SCAN that finds one slot empty -/

section
variable {w : RackWindow} {params : List Byte} {s : State}

/-- A position whose answer agrees with its slot record is left alone. -/
theorem scanPosition_agrees {b : SlotAddr} (settled : (s.slots[b]).map Slot.occupancy ≠ some .probing)
    (agrees : occupiedAt params (b.val - w.base) = decide ((s.slots[b]).map Slot.occupancy ≠ some .empty)) : scanPosition w params b s = s := by
  cases slot : s.slots[b] with
  | none => exact scanPosition_undefined slot
  | some x =>
    rw [slot, Option.map_some] at settled agrees
    cases occupancy : x.occupancy with
    | empty =>
      rw [occupancy] at agrees
      rw [scanPosition_away slot (agrees.trans (decide_eq_false fun full => full rfl))]
      unfold emptySlot
      rw [slot]
      exact if_pos occupancy
    | probing => exact absurd (congrArg some occupancy) settled
    | occupied | fault =>
      rw [occupancy] at agrees
      exact scanPosition_known slot (agrees.trans (decide_eq_true nofun)) (by simp [occupancy])

theorem forEach_agrees {l : List SlotAddr} (each : ∀ b ∈ l, (s.slots[b]).map Slot.occupancy ≠ some .probing ∧
    occupiedAt params (b.val - w.base) = decide ((s.slots[b]).map Slot.occupancy ≠ some .empty)) :
    forEach l (scanPosition w params) s = s := by
  induction l with
  | nil => rfl
  | cons b l ih =>
    obtain ⟨settled, agrees⟩ := each b List.mem_cons_self
    rw [forEach_cons, scanPosition_agrees settled agrees]
    exact ih fun c mem => each c (List.mem_cons_of_mem b mem)

/-- One slot of the window is found empty, and every other as its record has it. -/
theorem forEach_oneGone {a : SlotAddr} {x : Slot} (holds : w.holds a = true) (slot : s.slots[a] = some x)
    (away : occupiedAt params (a.val - w.base) = false) (each : ∀ b : SlotAddr, w.holds b = true → b ≠ a →
      (s.slots[b]).map Slot.occupancy ≠ some .probing ∧
        occupiedAt params (b.val - w.base) = decide ((s.slots[b]).map Slot.occupancy ≠ some .empty)) :
    forEach w.addresses (scanPosition w params) s = emptySlot .removed a s := by
  obtain ⟨before, after, cut⟩ := List.append_of_mem (mem_addresses.mpr holds)
  have nodup := addresses_nodup w
  have held (b : SlotAddr) (mem : b ∈ before ++ a :: after) : w.holds b = true := mem_addresses.mp (cut ▸ mem)
  rw [cut] at nodup ⊢
  obtain ⟨-, latter, apart⟩ := List.nodup_append.mp nodup
  rw [forEach_append, forEach_agrees fun b mem => each b (held b (List.mem_append_left _ mem)) (apart b mem a List.mem_cons_self),
    forEach_cons, scanPosition_away slot away]
  refine forEach_agrees fun b mem => ?_
  have other : b ≠ a := fun same => (List.nodup_cons.mp latter).1 (same ▸ mem)
  have same : ((emptySlot .removed a s).slots[b]).map Slot.occupancy = (s.slots[b]).map Slot.occupancy :=
    occupancy_of_plate ((emptySlot_emptied .removed a s).other b other) id
  rw [same]
  exact each b (held b (List.mem_append_right _ (List.mem_cons_of_mem a mem))) other

end

section
variable {o : IssueOperation} {c : Candidate} {x : Slot} {s : State}

/-- A candidate's slot that is emptied with its exchange queued and its device DOCKED (R121). -/
theorem candidate_emptied (h : Candidacy o c x s) (occupied : x.occupancy = .occupied) {id : DeviceId} (named : x.deviceId = some id)
    {e : Exchange} (waits : c.waitsFor e) (single : (s.bus.queues[(1 : Fin 6)]).filter (fun e => decide (e.slot? = some c.slot)) = [e])
    (unasked : ∀ (q : Fin 6) (e : Exchange), q ≠ 1 → e ∈ s.bus.queues[q] → e.slot? ≠ some c.slot)
    (accounts : ∀ (r : RackId) (w : RackWindow), s.racks[r] = some w → c.slot ∉ w.admission) (idle : x.phase = .none) {d : Device}
    (found : s.device? id = some d) (docked : d.state = .docked) :
    let v := nextOrComplete o.group (State.failed { s with bus := { s.bus with queues := s.queuesWithout c.slot } } o c.slot x)
    emptySlot .removed c.slot s = reported 20 c.slot.val id { v with
      slots := v.slots.set c.slot (some .initial),
      devices := v.devices.map (fun d => if d.id = id then { d with state := .unseen, slot := none } else d) } := by
  intro v
  have own := device?_id found
  subst own
  let u : State := { s with bus := { s.bus with queues := s.queuesWithout c.slot } }
  have there : Candidacy o c x u := h.congr h.slot rfl rfl
  obtain ⟨at_slot, -⟩ : Spared c.slot (some { x with reservation := none }) v := there.goesOn accounts
  have discarded : discardSlot c.slot true s = v := by
    rw [discardSlot_single unasked waits.named.2 single, there.delivered waits, if_neg (fun both => by cases both.1)]
  have devices : v.devices = s.devices := nextOrComplete_devices ..
  have record : v.device? d.id = some d := by
    unfold State.device? at found ⊢
    rwa [devices]
  have full : x.occupancy ≠ .empty := by
    rw [occupied]
    exact nofun
  have emptied : emptiedDevice .removed c.slot v = raise .unissuedRemoval c.slot.val d.id.toNat (v.modDevice d.id Device.unseen) := by
    unfold emptiedDevice
    rw [at_slot, Option.bind_some]
    dsimp only
    rw [named, Option.bind_some, record]
    dsimp only
    rw [docked]
  have free : emptiedReservation c.slot v = v := by
    unfold emptiedReservation
    rw [at_slot]
    exact if_neg nofun
  unfold emptySlot
  rw [h.slot]
  dsimp only
  rw [if_neg full, discarded, endCharging_idle at_slot idle, free, emptied, raise_eq_reported, BitVec.ofNat_toNat, BitVec.setWidth_eq]
  simp only [reported_eq]
  rfl

theorem candidate_scanned (devices : DevicesSound s) (h : Candidacy o c x s) (occupied : x.occupancy = .occupied) {id : DeviceId}
    (named : x.deviceId = some id) {e : Exchange} {r : RackId} {w : RackWindow} {flags : BitVec 32} (waits : c.waitsFor e)
    (single : (s.bus.queues[(1 : Fin 6)]).filter (fun e => decide (e.slot? = some c.slot)) = [e])
    (unasked : ∀ (q : Fin 6) (e : Exchange), q ≠ 1 → e ∈ s.bus.queues[q] → e.slot? ≠ some c.slot) (accounts : AccountsSound s)
    (idle : x.phase = .none) (answered : Answered (.scan r) (le32 flags.toNat) s) (rack : s.racks[r] = some w) (holds : w.holds c.slot = true)
    (positions : ∀ b : SlotAddr, w.holds b = true → (s.slots[b]).map Slot.occupancy ≠ some .probing ∧
      flags.getLsbD (b.val - w.base) = decide (b ≠ c.slot ∧ (s.slots[b]).map Slot.occupancy ≠ some .empty))
    (records : ∀ d ∈ s.devices, d.clearState ≠ .owed ∧ (d.id = id → d.state = .docked)) (known : ∃ d ∈ s.devices, d.id = id) :
    let v := nextOrComplete o.group { s with
      bus := { s.bus with inFlight := none, queues := s.queuesWithout c.slot },
      racks := s.racks.set r (some { w with rackState := .online, scanMisses := 0 }),
      slots := s.slots.set c.slot (some { x with reservation := none }), ops := s.opChanged o (o.lost c.slot) }
    exec .exchangeComplete s = .next (reported 20 c.slot.val id { v with
      slots := v.slots.set c.slot (some .initial),
      devices := v.devices.map (fun d => if d.id = id then { d with state := .unseen, slot := none } else d) }) := by
  intro v
  obtain ⟨d, mem, rfl⟩ := known
  have there : Candidacy o c x (rackHeard r w s) := h.congr h.slot rfl rfl
  have emptied := candidate_emptied (s := rackHeard r w s) there occupied named waits single unasked (fun q v at_q waiting => by
      rw [show (rackHeard r w s).racks[q] = if q = r then some { w with rackState := .online, scanMisses := 0 } else s.racks[q] from
        get_set_cases ..] at at_q
      split at at_q
      · cases at_q
        exact unwaiting_of_accounts accounts h.slot idle r w rack waiting
      · exact unwaiting_of_accounts accounts h.slot idle q v at_q waiting)
    idle (d := d) ((device?_eq_some (s := rackHeard r w s) devices).mpr ⟨mem, rfl⟩) ((records d mem).2 rfl)
  have compared : forEach w.addresses (scanPosition w (le32 flags.toNat)) (rackHeard r w s) = emptySlot .removed c.slot (rackHeard r w s) := by
    refine forEach_oneGone holds h.slot ?_ fun b held other => ?_
    · rw [occupiedAt_le32, (positions _ holds).2]
      exact decide_eq_false fun both => both.1 rfl
    · rw [occupiedAt_le32, (positions b held).2]
      exact ⟨(positions b held).1, decide_eq_decide.mpr (and_iff_right other)⟩
  rw [exec_scanned answered rack, compared, emptied]
  refine congrArg Host.Outcome.next ((forEach_clearOwed_quiet fun b _ e owing => ?_).trans rfl)
  obtain ⟨-, -, -, -, -, found, -, owed⟩ := owing
  have mem := List.mem_of_find?_eq_some found
  rw [reported_eq] at mem
  obtain ⟨f, before, same⟩ := List.mem_map.mp mem
  rw [nextOrComplete_devices] at before
  refine (records f before).1 ?_
  rw [← owed, ← same]
  split <;> rfl

end

/-- Settles O60: the choice and the completion by their equations; each answer, timeout and discarding by what it makes of the candidacy. -/
theorem candidatesAndOutcomes : Obligations.CandidatesAndOutcomes := by
  intro o s windows devices issues mem g others
  have found := op?_of_mem issues mem
  refine ⟨nextOrComplete_cancelled found, fun runs nothing => ?_, fun a x r w c runs chosen slot rack holds channel => ?_,
    fun c x id candidate slot occupied named alone => ?_⟩
  · rw [nextOrComplete_running found runs, bestSlot_none nothing]
  · obtain ⟨y, at_slot, -, -, occupied, -⟩ := id chosen.1
    obtain rfl := Option.some.inj (slot.symm.trans at_slot)
    intro y v keep queues k u
    rw [nextOrComplete_running found runs, bestSlot_chosen chosen]
    dsimp only
    rw [reserveSlot_eq (windows.stands rack holds slot) occupied issues mem (by rw [channel, Option.getD_some])]
    have left : w.left a x.phase = v := by
      unfold v RackWindow.left
      cases x.phase <;> rfl
    refine congrArg (fun v : RackWindow => asked 1 [.tune a c g o.roster] (attempt r { s with
      slots := s.slots.set a (some y), racks := s.racks.set r (some v), bus := { s.bus with queues := queues },
      ops := others { o with candidate := some k } })) left
  · have h : Candidacy o c x s := ⟨issues, mem, candidate, slot, alone⟩
    intro a
    refine ⟨fun e level answered stage tunes => ?_, fun level k answered stage channel => ?_, fun e unanswered first waits => ?_, ?_⟩
    · exact tune_answered h occupied named stage answered tunes
    · intro t p out y called sources roster u empty
      have seated : State.seated o.seat id { t with
          slots := s.slots.set a (some y), ops := others p,
          groups := s.groups.set g { s.groups[g] with outCount := s.groups[g].outCount + 1 },
          devices := t.devices.map (fun d => if d.id = id then out d else d) } = u := by
        have called_eq : (fun j : SourceId => decide (o.seat.map Fin.val = some j.val ∧ s.air.running = true ∧ s.sources[j].state = .off)) =
            called := funext fun j => decide_eq_decide.mpr ((and_congr_left' (o.seat_map j.val)).trans and_assoc)
        have roster_eq : (Vector.ofFn fun i : RosterId => if o.seat = some i then RosterEntry.bound id else s.roster[i]) = roster :=
          congrArg Vector.ofFn (funext fun i => if_congr (o.seat_eq i) rfl rfl)
        refine (congrArg (fun f : SourceId → Bool => ({ u with
          sources := Vector.ofFn fun j : SourceId => if f j then s.sources[j].rested .waiting else s.sources[j],
          roster := Vector.ofFn fun i : RosterId => if o.seat = some i then RosterEntry.bound id else s.roster[i] } : State)) called_eq).trans ?_
        exact congrArg (fun v => ({ u with roster := v } : State)) roster_eq
      rw [← seated]
      refine release_answered h named stage answered channel fun j seat runs off => empty (uplinkSource j) (decide_eq_true ?_)
      obtain ⟨kind, entry⟩ := (o.seat_eq j).mp seat
      exact ⟨kind, by rw [entry]; rfl, runs, off⟩
    · exact candidate_timesOut h occupied unanswered first waits
    · intro failed unasked waits ofSlot bus
      refine ⟨fun e level waiting single quiet accounts idle answered => ?_, fun e waiting none_left quiet idle second unanswered => ?_,
        fun e r w flags waiting single quiet accounts idle answered rack holds positions records known => ?_⟩
      · exact candidate_polledFault h waiting single quiet accounts idle answered
      · exact candidate_secondTimeout h waiting none_left quiet idle second unanswered
      · exact candidate_scanned devices h occupied named waiting single quiet accounts idle answered rack holds positions records known

end Sys2Proof.Machine
end


section
/-! PROOF. The accounts of the windows (R131, R133): what a change of one slot's phase asks of its window. -/

namespace Sys2Proof.Machine

/-! ## Phases and draws -/

/-- The charge phase a slot record holds. -/
def phaseAt (s : State) (a : SlotAddr) : Option ChargePhase := (s.slots[a]).map Slot.phase

/-- The draw of a phase, if there is one. -/
def drawIn : Option ChargePhase → Nat
  | some .bulk => 450
  | some .top => 120
  | _ => 0

theorem drawOf_eq (s : State) (a : SlotAddr) : drawOf s a = drawIn (phaseAt s a) := by
  unfold drawOf drawIn phaseAt
  rcases s.slots[a] with - | x
  · rfl
  · cases x.phase <;> rfl

/-! ## An account -/

/-- A window's account against the phases; the slots in limbo are WAITING and not in the queue yet (R142). -/
structure Account (phase : SlotAddr → Option ChargePhase) (limbo : List SlotAddr) (w : RackWindow) : Prop where
  sessions : w.sessions.Nodup
  admission : w.admission.Nodup
  committed : w.committed = ∑ a : SlotAddr with w.holds a = true, drawIn (phase a)
  session (a : SlotAddr) : a ∈ w.sessions ↔ w.holds a = true ∧ drawIn (phase a) ≠ 0
  waits (a : SlotAddr) : a ∈ w.admission ↔ w.holds a = true ∧ phase a = some .waiting ∧ a ∉ limbo

/-- Every window's account. -/
def Accounts (limbo : List SlotAddr) (s : State) : Prop := ∀ (r : RackId) (w : RackWindow), s.racks[r] = some w → Account (phaseAt s) limbo w

/-- The sum over a list of slots is the sum over the window that they are the drawing slots of. -/
theorem sum_sessions {w : RackWindow} {l : List SlotAddr} {f : SlotAddr → Nat} (nodup : l.Nodup)
    (mem : ∀ a, a ∈ l ↔ w.holds a = true ∧ f a ≠ 0) : (l.map f).sum = ∑ a : SlotAddr with w.holds a = true, f a := by
  rw [← List.sum_toFinset f nodup]
  refine Finset.sum_subset (fun a there => ?_) fun a held absent => ?_
  · exact Finset.mem_filter.mpr ⟨Finset.mem_univ a, ((mem a).mp (List.mem_toFinset.mp there)).1⟩
  · by_contra draws
    exact absent (List.mem_toFinset.mpr ((mem a).mpr ⟨(Finset.mem_filter.mp held).2, draws⟩))

theorem accountsSound_iff (s : State) : AccountsSound s ↔ Accounts [] s := by
  have draws : drawOf s = fun a => drawIn (phaseAt s a) := funext (drawOf_eq s)
  constructor
  · intro sound r w rack
    obtain ⟨sessions, admission, committed, each⟩ := sound r w rack
    rw [draws] at committed each
    refine ⟨sessions, admission, ?_, fun a => (each a).1, fun a => ?_⟩
    · rw [committed]
      exact sum_sessions sessions fun a => (each a).1
    · rw [(each a).2]
      simp only [phaseAt, List.not_mem_nil, not_false_eq_true, and_true]
  · intro accounts r w rack
    obtain ⟨sessions, admission, committed, session, waits⟩ := accounts r w rack
    rw [draws]
    refine ⟨sessions, admission, ?_, fun a => ⟨session a, ?_⟩⟩
    · rw [committed]
      exact (sum_sessions sessions session).symm
    · rw [waits a]
      simp only [phaseAt, List.not_mem_nil, not_false_eq_true, and_true]

/-- One slot of the window takes another phase: its places in the lists and its draw follow. -/
theorem Account.rephase {phase phase' : SlotAddr → Option ChargePhase} {limbo limbo' : List SlotAddr} {w v : RackWindow} {a : SlotAddr}
    (account : Account phase limbo w) (base : v.base = w.base) (size : v.size = w.size) (held : w.holds a = true)
    (others : ∀ b, b ≠ a → phase' b = phase b ∧ (b ∈ limbo' ↔ b ∈ limbo)) (sessions : v.sessions.Nodup) (admission : v.admission.Nodup)
    (committed : v.committed + drawIn (phase a) = w.committed + drawIn (phase' a))
    (session : ∀ b, b ∈ v.sessions ↔ (b ≠ a ∧ b ∈ w.sessions) ∨ (b = a ∧ drawIn (phase' a) ≠ 0))
    (waits : ∀ b, b ∈ v.admission ↔ (b ≠ a ∧ b ∈ w.admission) ∨ (b = a ∧ phase' a = some .waiting ∧ a ∉ limbo')) :
    Account phase' limbo' v where
  sessions := sessions
  admission := admission
  committed := by
    have place : v.holds = w.holds := funext fun b => holds_congr base size b
    have mem : a ∈ Finset.univ.filter fun b : SlotAddr => w.holds b = true := Finset.mem_filter.mpr ⟨Finset.mem_univ a, held⟩
    have before := account.committed
    rw [← Finset.add_sum_erase _ _ mem] at before
    rw [place, ← Finset.add_sum_erase _ _ mem, Finset.sum_congr (g := fun b => drawIn (phase b)) rfl fun b there => by
      rw [(others b (Finset.ne_of_mem_erase there)).1]]
    omega
  session b := by
    rw [session b, holds_congr base size b]
    by_cases own : b = a
    · subst own
      simp only [ne_eq, not_true, false_and, true_and, false_or, held]
    · rw [(others b own).1]
      simp only [ne_eq, own, not_false_eq_true, true_and, false_and, or_false]
      exact account.session b
  waits b := by
    rw [waits b, holds_congr base size b]
    by_cases own : b = a
    · subst own
      simp only [ne_eq, not_true, false_and, true_and, false_or, held]
    · rw [(others b own).1, (others b own).2]
      simp only [ne_eq, own, not_false_eq_true, true_and, false_and, or_false]
      exact account.waits b

/-! ## Accounts of a state -/

section
variable {limbo limbo' : List SlotAddr} {s t : State} {r : RackId} {w v : RackWindow} {a : SlotAddr} {x y : Slot}

theorem phaseAt_set (slots : t.slots = s.slots.set a (some y)) (b : SlotAddr) : phaseAt t b = if b = a then some y.phase else phaseAt s b := by
  unfold phaseAt
  rw [slots, get_set_cases]
  split <;> rfl

theorem Accounts.congr (accounts : Accounts limbo s) (phases : ∀ b, phaseAt t b = phaseAt s b) (racks : ∀ (q : RackId) (u : RackWindow), t.racks[q] = some u →
    ∃ w, s.racks[q] = some w ∧ u.base = w.base ∧ u.size = w.size ∧ u.sessions = w.sessions ∧ u.admission = w.admission ∧
      u.committed = w.committed) : Accounts limbo t := by
  intro q u there
  obtain ⟨w, before, base, size, sessions, admission, committed⟩ := racks q u there
  have same : phaseAt t = phaseAt s := funext phases
  have place : u.holds = w.holds := funext fun b => holds_congr base size b
  obtain ⟨h1, h2, h3, h4, h5⟩ := accounts q w before
  rw [same]
  refine ⟨sessions ▸ h1, admission ▸ h2, ?_, fun b => ?_, fun b => ?_⟩
  · rw [committed, place, h3]
  · rw [sessions, place, h4]
  · rw [admission, place, h5]

theorem Accounts.same (accounts : Accounts limbo s) (phases : ∀ b, phaseAt t b = phaseAt s b) (racks : t.racks = s.racks) :
    Accounts limbo t := accounts.congr phases fun _ u there => ⟨u, racks ▸ there, rfl, rfl, rfl, rfl, rfl⟩

/-- One slot takes another phase, and its window's account follows. -/
theorem Accounts.write (accounts : Accounts limbo s) (stands : Stands s r w a x) (racks : t.racks = s.racks.set r (some v))
    (slots : t.slots = s.slots.set a (some y)) (account : Account (phaseAt t) limbo' v) (others : ∀ b, b ≠ a → (b ∈ limbo' ↔ b ∈ limbo)) :
    Accounts limbo' t := by
  intro q u there
  rw [racks, get_set_cases] at there
  split at there
  · cases there
    exact account
  · next other =>
    have apart : u.holds a = false := by
      cases held : u.holds a with
      | false => rfl
      | true => exact absurd (stands.only q u there held) other
    have away (b : SlotAddr) (held : u.holds b = true) : b ≠ a := fun same => by
      rw [same, apart] at held
      cases held
    have phase (b : SlotAddr) (held : u.holds b = true) : phaseAt t b = phaseAt s b := by
      rw [phaseAt_set slots, if_neg (away b held)]
    obtain ⟨h1, h2, h3, h4, h5⟩ := accounts q u there
    refine ⟨h1, h2, ?_, fun b => ?_, fun b => ?_⟩
    · rw [h3]
      exact Finset.sum_congr rfl fun b mem => by rw [phase b (Finset.mem_filter.mp mem).2]
    · rw [h4 b]
      exact and_congr_right fun held => by rw [phase b held]
    · rw [h5 b]
      exact and_congr_right fun held => by rw [phase b held, others b (away b held)]

end

end Sys2Proof.Machine
end

section
/-! PROOF. The changes of a window's account, one by one (R133, R134, R137 to R140, R142). -/

namespace Sys2Proof.Machine

/-- The phases with one slot's changed. -/
def rephased (phase : SlotAddr → Option ChargePhase) (a : SlotAddr) (p : ChargePhase) : SlotAddr → Option ChargePhase :=
  fun b => if b = a then some p else phase b

theorem rephased_own (phase : SlotAddr → Option ChargePhase) (a : SlotAddr) (p : ChargePhase) : rephased phase a p a = some p := if_pos rfl

theorem rephased_other (phase : SlotAddr → Option ChargePhase) {a b : SlotAddr} (p : ChargePhase) (other : b ≠ a) :
    rephased phase a p b = phase b := if_neg other

/-! ## Lists without a slot -/

theorem mem_withoutWaiting {w : RackWindow} (nodup : w.admission.Nodup) (a b : SlotAddr) :
    b ∈ (w.withoutWaiting a).admission ↔ b ≠ a ∧ b ∈ w.admission := by
  obtain ⟨front, receiver, -⟩ := List.nodup_append.mp nodup
  obtain ⟨shed, mic, -⟩ := List.nodup_append.mp front
  simp only [RackWindow.admission, RackWindow.withoutWaiting, List.mem_append, shed.mem_erase_iff, mic.mem_erase_iff, receiver.mem_erase_iff]
  tauto

theorem nodup_withoutWaiting {w : RackWindow} (nodup : w.admission.Nodup) (a : SlotAddr) : (w.withoutWaiting a).admission.Nodup :=
  nodup.sublist (List.Sublist.append (List.Sublist.append List.erase_sublist List.erase_sublist) List.erase_sublist)

section
variable {phase : SlotAddr → Option ChargePhase} {limbo : List SlotAddr} {w : RackWindow} {a : SlotAddr}

theorem Account.draw_le (account : Account phase limbo w) (held : w.holds a = true) : drawIn (phase a) ≤ w.committed := by
  rw [account.committed]
  exact Finset.single_le_sum (f := fun b => drawIn (phase b)) (fun _ _ => Nat.zero_le _) (Finset.mem_filter.mpr ⟨Finset.mem_univ a, held⟩)

/-- A session ends in a phase with no draw or in limbo. -/
theorem Account.endSession {p : ChargePhase} {limbo' : List SlotAddr} {n : Nat} (account : Account phase limbo w) (held : w.holds a = true)
    (session : phase a = some .bulk ∧ n = 450 ∨ phase a = some .top ∧ n = 120) (idle : drawIn (some p) = 0)
    (limbos : p = .waiting → a ∈ limbo') (others : ∀ b, b ≠ a → (b ∈ limbo' ↔ b ∈ limbo)) :
    Account (rephased phase a p) limbo' (w.withoutSession a n) := by
  have draws : drawIn (phase a) = n := by
    rcases session with ⟨at_a, rfl⟩ | ⟨at_a, rfl⟩ <;> rw [at_a] <;> rfl
  have queued : a ∉ w.admission := fun mem => by
    have waiting := ((account.waits a).mp mem).2.1
    rcases session with ⟨at_a, -⟩ | ⟨at_a, -⟩ <;> rw [at_a] at waiting <;> cases waiting
  have enough := account.draw_le held
  refine account.rephase rfl rfl held (fun b other => ⟨rephased_other phase p other, others b other⟩) (account.sessions.erase a)
    (by rw [Spared.withoutSession_admission]; exact account.admission) ?_ (fun b => ?_) fun b => ?_
  · rw [rephased_own, idle, draws]
    rw [draws] at enough
    change w.committed - n + n = w.committed + 0
    omega
  · rw [rephased_own]
    change b ∈ w.sessions.erase a ↔ _
    simp only [account.sessions.mem_erase_iff, idle, ne_eq, not_true, and_false, or_false]
  · rw [Spared.withoutSession_admission, rephased_own]
    refine ⟨fun mem => .inl ⟨fun same => queued (same ▸ mem), mem⟩, ?_⟩
    rintro (⟨-, mem⟩ | ⟨rfl, waiting, absent⟩)
    · exact mem
    · exact absurd (limbos (Option.some.inj waiting)) absent

/-- A WAITING slot leaves the queue. -/
theorem Account.endWaiting {p : ChargePhase} (account : Account phase limbo w) (held : w.holds a = true) (waiting : phase a = some .waiting)
    (idle : drawIn (some p) = 0) (moved : p ≠ .waiting) : Account (rephased phase a p) limbo (w.withoutWaiting a) := by
  have unseated : a ∉ w.sessions := fun mem => ((account.session a).mp mem).2 (by rw [waiting]; rfl)
  refine account.rephase rfl rfl held (fun b other => ⟨rephased_other phase p other, Iff.rfl⟩) account.sessions
    (nodup_withoutWaiting account.admission a) ?_ (fun b => ?_) fun b => ?_
  · rw [rephased_own, idle, waiting]
    rfl
  · rw [rephased_own, idle]
    change b ∈ w.sessions ↔ _
    simp only [ne_eq, not_true, and_false, or_false]
    exact ⟨fun mem => ⟨fun same => unseated (same ▸ mem), mem⟩, And.right⟩
  · rw [mem_withoutWaiting account.admission, rephased_own, Option.some_inj]
    simp only [moved, false_and, and_false, or_false]

/-- A slot that is in no list takes a phase that is in none. -/
theorem Account.stay {p q : ChargePhase} (account : Account phase limbo w) (held : w.holds a = true) (before : phase a = some q)
    (idle : drawIn (some p) = 0) (moved : p ≠ .waiting) (idle' : drawIn (some q) = 0) (moved' : q ≠ .waiting) :
    Account (rephased phase a p) limbo w := by
  refine account.rephase rfl rfl held (fun b other => ⟨rephased_other phase p other, Iff.rfl⟩) account.sessions account.admission ?_
    (fun b => ?_) fun b => ?_
  · rw [rephased_own, idle, before, idle']
  · rw [rephased_own, idle]
    simp only [ne_eq, not_true, and_false, or_false]
    refine ⟨fun mem => ⟨fun same => ?_, mem⟩, And.right⟩
    have draws := ((account.session b).mp mem).2
    rw [same, before, idle'] at draws
    exact draws rfl
  · rw [rephased_own, Option.some_inj]
    simp only [moved, false_and, and_false, or_false]
    refine ⟨fun mem => ⟨fun same => ?_, mem⟩, And.right⟩
    have waiting := ((account.waits b).mp mem).2.1
    rw [same, before] at waiting
    exact moved' (Option.some.inj waiting)

/-- A slot leaves charging in whatever phase it is. -/
theorem Account.left {p q : ChargePhase} (account : Account phase limbo w) (held : w.holds a = true) (before : phase a = some q)
    (idle : drawIn (some p) = 0) (moved : p ≠ .waiting) : Account (rephased phase a p) limbo (w.left a q) := by
  cases q with
  | none | full => exact account.stay held before idle moved rfl nofun
  | waiting => exact account.endWaiting held before idle moved
  | bulk => exact account.endSession held (.inl ⟨before, rfl⟩) idle (fun same => absurd same moved) fun _ _ => Iff.rfl
  | top => exact account.endSession held (.inr ⟨before, rfl⟩) idle (fun same => absurd same moved) fun _ _ => Iff.rfl

/-- A slot joins the queue at its kind's part (R133). -/
theorem Account.join {q : ChargePhase} (account : Account phase limbo w) (held : w.holds a = true) (before : phase a = some q)
    (idle : drawIn (some q) = 0) (moved : q ≠ .waiting) (here : a ∉ limbo) (mic : Bool) :
    Account (rephased phase a .waiting) limbo (w.joined mic a) := by
  have unqueued : a ∉ w.admission := fun mem => by
    have waiting := ((account.waits a).mp mem).2.1
    rw [before] at waiting
    exact moved (Option.some.inj waiting)
  have unseated : a ∉ w.sessions := fun mem => ((account.session a).mp mem).2 (by rw [before]; exact idle)
  have queue (b : SlotAddr) : b ∈ (w.joined mic a).admission ↔ b ∈ w.admission ∨ b = a := by
    unfold RackWindow.joined
    cases mic <;> simp only [RackWindow.admission, List.mem_append, List.mem_singleton, if_true, if_false, Bool.false_eq_true] <;> tauto
  have nodup : (w.joined mic a).admission.Nodup := by
    have longer : (w.joined mic a).admission.Perm (a :: w.admission) := by
      unfold RackWindow.joined
      cases mic with
      | false =>
        simp only [RackWindow.admission, if_false, Bool.false_eq_true]
        rw [← List.append_assoc]
        exact List.perm_append_singleton ..
      | true =>
        simp only [RackWindow.admission, if_true]
        rw [← List.append_assoc, List.append_assoc _ [a]]
        exact List.perm_middle
    exact longer.nodup_iff.mpr (List.nodup_cons.mpr ⟨unqueued, account.admission⟩)
  have rest : (w.joined mic a).base = w.base ∧ (w.joined mic a).size = w.size ∧ (w.joined mic a).sessions = w.sessions ∧
      (w.joined mic a).committed = w.committed := by
    unfold RackWindow.joined
    split <;> exact ⟨rfl, rfl, rfl, rfl⟩
  obtain ⟨base, size, sessions, committed⟩ := rest
  refine account.rephase base size held (fun b other => ⟨rephased_other phase _ other, Iff.rfl⟩) (sessions ▸ account.sessions) nodup ?_
    (fun b => ?_) fun b => ?_
  · rw [committed, before, idle, rephased_own]
    rfl
  · rw [sessions, rephased_own]
    refine ⟨fun mem => .inl ⟨fun same => unseated (same ▸ mem), mem⟩, ?_⟩
    rintro (⟨-, mem⟩ | ⟨-, draws⟩)
    · exact mem
    · exact absurd rfl draws
  · rw [queue, rephased_own]
    constructor
    · rintro (mem | rfl)
      · exact .inl ⟨fun same => unqueued (same ▸ mem), mem⟩
      · exact .inr ⟨rfl, rfl, here⟩
    · rintro (⟨-, mem⟩ | ⟨same, -⟩)
      · exact .inl mem
      · exact .inr same

/-- The head is admitted (R134). -/
theorem Account.admitted {p : ChargePhase} {n : Nat} (account : Account phase limbo w) (waits : a ∈ w.admission)
    (session : p = .bulk ∧ n = 450 ∨ p = .top ∧ n = 120) :
    Account (rephased phase a p) limbo { w.withoutWaiting a with sessions := w.sessions ++ [a], committed := w.committed + n } := by
  obtain ⟨held, waiting, -⟩ := (account.waits a).mp waits
  have unseated : a ∉ w.sessions := fun mem => ((account.session a).mp mem).2 (by rw [waiting]; rfl)
  have draws : drawIn (some p) = n ∧ n ≠ 0 ∧ p ≠ .waiting := by
    rcases session with ⟨rfl, rfl⟩ | ⟨rfl, rfl⟩ <;> exact ⟨rfl, by decide, nofun⟩
  obtain ⟨draws, positive, moved⟩ := draws
  refine account.rephase rfl rfl held (fun b other => ⟨rephased_other phase p other, Iff.rfl⟩) ?_
    (nodup_withoutWaiting account.admission a) ?_ (fun b => ?_) fun b => ?_
  · exact (List.perm_append_singleton a w.sessions).nodup_iff.mpr (List.nodup_cons.mpr ⟨unseated, account.sessions⟩)
  · rw [rephased_own, draws, waiting]
    rfl
  · rw [rephased_own, draws]
    change b ∈ w.sessions ++ [a] ↔ _
    rw [List.mem_append, List.mem_singleton]
    constructor
    · rintro (mem | rfl)
      · exact .inl ⟨fun same => unseated (same ▸ mem), mem⟩
      · exact .inr ⟨rfl, positive⟩
    · rintro (⟨-, mem⟩ | ⟨same, -⟩)
      · exact .inl mem
      · exact .inr same
  · rw [rephased_own, Option.some_inj]
    simp only [moved, false_and, and_false, or_false]
    exact mem_withoutWaiting account.admission a b

/-- A BULK session passes to TOP (R137). -/
theorem Account.toTop (account : Account phase limbo w) (held : w.holds a = true) (bulk : phase a = some .bulk) :
    Account (rephased phase a .top) limbo { w with committed := w.committed - 330 } := by
  have seated : a ∈ w.sessions := (account.session a).mpr ⟨held, by rw [bulk]; decide⟩
  have unqueued : a ∉ w.admission := fun mem => by
    have waiting := ((account.waits a).mp mem).2.1
    rw [bulk] at waiting
    cases waiting
  have enough := account.draw_le held
  have queue : ({ w with committed := w.committed - 330 } : RackWindow).admission = w.admission := by simp only [RackWindow.admission]
  refine account.rephase rfl rfl held (fun b other => ⟨rephased_other phase _ other, Iff.rfl⟩) account.sessions
    (by rw [queue]; exact account.admission) ?_ (fun b => ?_) fun b => ?_
  · rw [rephased_own, bulk]
    rw [bulk] at enough
    change 450 ≤ w.committed at enough
    change w.committed - 330 + 450 = w.committed + 120
    omega
  · rw [rephased_own]
    change b ∈ w.sessions ↔ _
    by_cases own : b = a
    · subst own
      exact ⟨fun _ => .inr ⟨rfl, by decide⟩, fun _ => seated⟩
    · simp only [ne_eq, own, not_false_eq_true, true_and, false_and, or_false]
  · rw [queue, rephased_own]
    simp only [Option.some.injEq, reduceCtorEq, false_and, and_false, or_false]
    exact ⟨fun mem => ⟨fun same => unqueued (same ▸ mem), mem⟩, And.right⟩

/-- The slots in limbo join the shed part's head, and are in limbo no more (R142). -/
theorem Account.handBack {back : List SlotAddr} (account : Account phase limbo w) (nodup : back.Nodup)
    (members : ∀ b, b ∈ back ↔ b ∈ limbo ∧ w.holds b = true) (waiting : ∀ b ∈ limbo, w.holds b = true → phase b = some .waiting) :
    Account phase [] { w with shedPart := back ++ w.shedPart } := by
  have queue : ({ w with shedPart := back ++ w.shedPart } : RackWindow).admission = back ++ w.admission := by
    simp only [RackWindow.admission, List.append_assoc]
  refine ⟨account.sessions, ?_, account.committed, account.session, fun b => ?_⟩
  · rw [queue]
    refine List.nodup_append.mpr ⟨nodup, account.admission, fun b mem c there same => ?_⟩
    exact ((account.waits c).mp there).2.2 (same ▸ ((members b).mp mem).1)
  · rw [queue, List.mem_append, members, account.waits]
    change _ ↔ w.holds b = true ∧ _
    simp only [List.not_mem_nil, not_false_eq_true, and_true]
    constructor
    · rintro (⟨mem, held⟩ | ⟨held, phase, -⟩)
      · exact ⟨held, waiting b mem held⟩
      · exact ⟨held, phase⟩
    · rintro ⟨held, phase⟩
      by_cases mem : b ∈ limbo
      · exact .inl ⟨mem, held⟩
      · exact .inr ⟨held, phase, mem⟩

end

end Sys2Proof.Machine
end

section
/-! PROOF. The work of the charge controller keeps the accounts, and only a slot that is OCCUPIED and unreserved in a charge phase (R132 to
R140). -/

namespace Sys2Proof.Machine

/-! ## Windows, accounts and phases together -/

/-- The windows are sound, the accounts tell the phases, and a slot in a charge phase is unreserved, and OCCUPIED unless it is the bad one,
which is on its way to FAULT. -/
structure Charged (limbo : List SlotAddr) (bad : Option SlotAddr) (s : State) : Prop where
  windows : WindowsSound s
  accounts : Accounts limbo s
  charges {a : SlotAddr} {x : Slot} : s.slots[a] = some x → x.phase ≠ .none → (x.occupancy = .occupied ∨ bad = some a) ∧ x.reservation = none

theorem phaseAt_of {s : State} {a : SlotAddr} {x : Slot} (slot : s.slots[a] = some x) : phaseAt s a = some x.phase := by
  unfold phaseAt
  rw [slot]
  rfl

/-- A slot's record after the charge controller's work. -/
theorem Charging.slot_after {s t : State} (h : Charging s t) {a : SlotAddr} {x : Slot} (slot : s.slots[a] = some x) :
    ∃ y, t.slots[a] = some y ∧ y.plate = x.plate ∧ y.reservation = x.reservation := by
  have plate := h.plate a
  have reservation := h.reservation a
  rw [slot] at plate reservation
  cases after : t.slots[a] with
  | none => rw [after] at plate; cases plate
  | some y =>
    rw [after] at plate reservation
    exact ⟨y, rfl, Option.some.inj plate, Option.some.inj reservation⟩

theorem Charging.slot_before {s t : State} (h : Charging s t) {a : SlotAddr} {y : Slot} (after : t.slots[a] = some y) :
    ∃ x, s.slots[a] = some x ∧ y.plate = x.plate ∧ y.reservation = x.reservation := by
  cases slot : s.slots[a] with
  | none =>
    have plate := h.plate a
    rw [slot, after] at plate
    cases plate
  | some x =>
    obtain ⟨z, there, plate, reservation⟩ := h.slot_after slot
    rw [after] at there
    cases there
    exact ⟨x, rfl, plate, reservation⟩

theorem plate_occupancy {x y : Slot} (plate : y.plate = x.plate) : y.occupancy = x.occupancy := congrArg Plate.occupancy plate

theorem plate_deviceId {x y : Slot} (plate : y.plate = x.plate) : y.deviceId = x.deviceId := congrArg Plate.deviceId plate

/-- A request for a SET_CHARGE changes no phase. -/
theorem requestSetCharge_phaseAt (a : SlotAddr) (m : ChargeMode) (s : State) (b : SlotAddr) :
    phaseAt (requestSetCharge a m s) b = phaseAt s b := by
  have asked : (request (.setCharge a m) s).2.slots = s.slots := by
    rcases request_cases (.setCharge a m) s with ⟨-, eq⟩ | ⟨-, -, eq⟩ | ⟨-, -, -, eq⟩ | ⟨-, -, -, eq⟩ <;> rw [eq]
    rfl
  unfold requestSetCharge
  split
  · next u eq =>
    rw [eq] at asked
    dsimp only at asked
    cases slot : u.slots[a] with
    | none =>
      rw [State.modSlot, slot]
      unfold phaseAt
      rw [Option.map_none, setSlot_own slot, asked]
    | some x =>
      rw [modSlot_eq slot, phaseAt_set rfl b]
      split
      · next own => rw [own, ← phaseAt_of slot, phaseAt, asked, phaseAt]
      · rw [phaseAt, asked, phaseAt]
  · next u _ eq =>
    rw [eq] at asked
    unfold phaseAt
    rw [show u.slots = s.slots from asked]

namespace Charged

section
variable {limbo limbo' : List SlotAddr} {bad : Option SlotAddr} {s t : State} {r : RackId} {w v : RackWindow} {a : SlotAddr} {x y : Slot}

/-- Work that leaves the phases and the accounts. -/
theorem follow (h : Charged limbo bad s) (charging : Charging s t) (phases : ∀ b, phaseAt t b = phaseAt s b) (racks : t.racks = s.racks) :
    Charged limbo bad t where
  windows := charging.records.windows h.windows
  accounts := h.accounts.same phases racks
  charges {a y} after charges := by
    obtain ⟨x, before, plate, reservation⟩ := charging.slot_before after
    have phase := phases a
    rw [phaseAt_of after, phaseAt_of before] at phase
    rw [plate_occupancy plate, reservation]
    exact h.charges before (Option.some.inj phase ▸ charges)

theorem requestSetCharge (h : Charged limbo bad s) (a : SlotAddr) (m : ChargeMode) : Charged limbo bad (Machine.requestSetCharge a m s) :=
  h.follow (.requestSetCharge (.refl s)) (requestSetCharge_phaseAt a m s) (requestSetCharge_racks a m s)

/-- A slot and its window's account are written together. -/
theorem write (h : Charged limbo bad s) (stands : Stands s r w a x) (place : v.place = w.place)
    (account : Account (rephased (phaseAt s) a y.phase) limbo' v) (others : ∀ b, b ≠ a → (b ∈ limbo' ↔ b ∈ limbo))
    (charges : y.phase ≠ .none → (y.occupancy = .occupied ∨ bad = some a) ∧ y.reservation = none) :
    Charged limbo' bad ((s.setRack r (some v)).setSlot a (some y)) where
  windows := by
    obtain ⟨each, apart, matched, queues⟩ := h.windows
    have holds (b : SlotAddr) : v.holds b = w.holds b := holds_of_place place b
    have window (q : RackId) (u : RackWindow) (there : ((s.setRack r (some v)).setSlot a (some y)).racks[q] = some u) :
        ∃ m, s.racks[q] = some m ∧ u.place = m.place ∧ u.holds = m.holds := by
      rw [show ((s.setRack r (some v)).setSlot a (some y)).racks[q] = if q = r then some v else s.racks[q] from get_set_cases ..] at there
      split at there
      · next own =>
        cases there
        exact ⟨w, own ▸ stands.rack, place, funext holds⟩
      · exact ⟨u, there, rfl, rfl⟩
    have window' (q : RackId) (m : RackWindow) (there : s.racks[q] = some m) :
        ∃ u, ((s.setRack r (some v)).setSlot a (some y)).racks[q] = some u ∧ u.holds = m.holds := by
      rw [show ((s.setRack r (some v)).setSlot a (some y)).racks[q] = if q = r then some v else s.racks[q] from get_set_cases ..]
      split
      · next own =>
        rw [own, stands.rack] at there
        cases there
        exact ⟨v, rfl, funext holds⟩
      · exact ⟨m, there, rfl⟩
    refine ⟨fun q u there => ?_, fun q p u hu m hm b => ?_, fun b => ?_, queues⟩
    · rw [show ((s.setRack r (some v)).setSlot a (some y)).racks[q] = if q = r then some v else s.racks[q] from get_set_cases ..] at there
      split at there
      · cases there
        obtain ⟨size, aligned, within, settle, budget, -⟩ := each r w stands.rack
        rw [show v.base = w.base from congrArg Prod.fst place, show v.size = w.size from congrArg (fun p => p.2.1) place,
          show v.settle = w.settle from congrArg (fun p => p.2.2.1) place, show v.budget = w.budget from congrArg (fun p => p.2.2.2) place]
        refine ⟨size, aligned, within, settle, budget, fun b mem => ?_⟩
        rcases List.mem_append.mp mem with there | there
        · exact ((account.session b).mp there).1
        · exact ((account.waits b).mp there).1
      · exact each q u there
    · obtain ⟨u', hu', -, same⟩ := window q u hu
      obtain ⟨m', hm', -, same'⟩ := window p m hm
      rw [same, same']
      exact apart q p u' hu' m' hm' b
    · have slot : ((s.setRack r (some v)).setSlot a (some y)).slots[b] ≠ none ↔ s.slots[b] ≠ none := by
        rw [show ((s.setRack r (some v)).setSlot a (some y)).slots[b] = if b = a then some y else s.slots[b] from get_set_cases ..]
        split
        · next own => rw [own, stands.slot]; exact iff_of_true nofun nofun
        · exact Iff.rfl
      rw [slot, matched]
      constructor
      · rintro ⟨q, m, there, held⟩
        obtain ⟨u, there', same⟩ := window' q m there
        exact ⟨q, u, there', same ▸ held⟩
      · rintro ⟨q, u, there, held⟩
        obtain ⟨m, there', -, same⟩ := window q u there
        exact ⟨q, m, there', same ▸ held⟩
  accounts := by
    have phases : phaseAt ((s.setRack r (some v)).setSlot a (some y)) = rephased (phaseAt s) a y.phase :=
      funext fun b => phaseAt_set (s := s) (t := (s.setRack r (some v)).setSlot a (some y)) rfl b
    exact h.accounts.write (t := (s.setRack r (some v)).setSlot a (some y)) stands rfl rfl (phases.symm ▸ account) others
  charges {b z} there charging := by
    rw [show ((s.setRack r (some v)).setSlot a (some y)).slots[b] = if b = a then some y else s.slots[b] from get_set_cases ..] at there
    split at there
    · next own =>
      cases there
      subst own
      exact charges charging
    · exact h.charges there charging

/-! ## Admission -/

theorem admitHead (h : Charged limbo bad s) (rack : s.racks[r] = some w) (waits : a ∈ w.admission) :
    Charged limbo bad (Machine.admitHead r a s) := by
  obtain ⟨held, waiting, -⟩ := ((h.accounts r w rack).waits a).mp waits
  obtain ⟨x, stands⟩ := h.windows.stands_rack rack held
  rw [phaseAt_of stands.slot] at waiting
  have phase := Option.some.inj waiting
  have charges := h.charges stands.slot (by rw [phase]; nofun)
  have draw : Machine.headDraw a s = if decide (x.level < s.charge.topLevel) then 450 else 120 := headDraw_of stands
  have isBulk : decide (Machine.headDraw a s = bulkDraw) = decide (x.level < s.charge.topLevel) := by
    rw [draw]
    cases decide (x.level < s.charge.topLevel) <;> rfl
  unfold Machine.admitHead
  dsimp only
  rw [modRack_eq stands.rack, setRack_modSlot stands.slot]
  refine Charged.requestSetCharge ?_ _ _
  rw [isBulk, draw]
  refine h.write stands rfl ?_ (fun _ _ => Iff.rfl) fun _ => charges
  cases decide (x.level < s.charge.topLevel) with
  | true => exact (h.accounts r w rack).admitted waits (.inl ⟨rfl, rfl⟩)
  | false => exact (h.accounts r w rack).admitted waits (.inr ⟨rfl, rfl⟩)

theorem attempt (h : Charged limbo bad s) (r : RackId) : Charged limbo bad (Machine.attempt r s) :=
  attempt_keeps (Charged limbo bad) r (fun _ _ _ _ kept rack waiting _ => kept.admitHead rack (waiting ▸ List.mem_cons_self)) h

theorem attemptFor (h : Charged limbo bad s) (a : SlotAddr) : Charged limbo bad (Machine.attemptFor a s) := by
  unfold Machine.attemptFor
  split
  · exact h.attempt _
  · exact h

/-! ## The ends of charging -/

theorem withoutSession_place (w : RackWindow) (a : SlotAddr) (n : Nat) : (w.withoutSession a n).place = w.place := by
  simp only [RackWindow.withoutSession, RackWindow.place]

theorem left_place (w : RackWindow) (a : SlotAddr) (p : ChargePhase) : (w.left a p).place = w.place := by
  cases p <;> simp only [RackWindow.left, RackWindow.withoutWaiting, RackWindow.withoutSession, RackWindow.place]

theorem leaveCharging (h : Charged limbo bad s) (stands : Stands s r w a x) : Charged limbo bad (Machine.leaveCharging a s) := by
  rw [leaveCharging_eq stands]
  have account := (h.accounts r w stands.rack).left stands.holds (phaseAt_of stands.slot) (p := .none) rfl nofun
  exact h.write stands (left_place w a x.phase) account (fun _ _ => Iff.rfl) fun charges => absurd rfl charges

theorem endCharging (h : Charged limbo bad s) (stands : Stands s r w a x) : Charged limbo bad (Machine.endCharging a s) := by
  have left := h.leaveCharging stands
  unfold Machine.endCharging
  rw [stands.slot, Option.map_some, Option.getD_some]
  dsimp only
  split
  · exact h
  · split
    · exact left.attemptFor a
    · exact left
  · exact left
  · exact left.attemptFor a

/-! ## The entry into charging -/

theorem joined_place (w : RackWindow) (mic : Bool) (a : SlotAddr) : (w.joined mic a).place = w.place := by
  unfold RackWindow.joined
  split <;> rfl

/-- A slot in no list takes a phase in no list. -/
theorem settle (h : Charged limbo bad s) (stands : Stands s r w a x) (before : drawIn (some x.phase) = 0 ∧ x.phase ≠ .waiting)
    (after : drawIn (some y.phase) = 0 ∧ y.phase ≠ .waiting)
    (charges : y.phase ≠ .none → (y.occupancy = .occupied ∨ bad = some a) ∧ y.reservation = none) :
    Charged limbo bad (s.setSlot a (some y)) := by
  have account := (h.accounts r w stands.rack).stay stands.holds (phaseAt_of stands.slot) after.1 after.2 before.1 before.2
  have written := h.write (y := y) stands rfl account (fun _ _ => Iff.rfl) charges
  rwa [setRack_own stands.rack] at written

theorem startWaiting (h : Charged [] bad s) (stands : Stands s r w a x) (before : drawIn (some x.phase) = 0 ∧ x.phase ≠ .waiting)
    (fit : (x.occupancy = .occupied ∨ bad = some a) ∧ x.reservation = none) : Charged [] bad (Machine.startWaiting a s) := by
  rw [startWaiting_eq stands]
  refine Charged.attempt ?_ r
  have account := (h.accounts r w stands.rack).join stands.holds (phaseAt_of stands.slot) before.1 before.2 List.not_mem_nil (x.mic s)
  exact h.write stands (joined_place ..) account (fun _ _ => Iff.rfl) fun _ => fit

theorem enterCharging (h : Charged [] bad s) (slot : s.slots[a] = some x) (idle : x.phase = .none)
    (fit : (x.occupancy = .occupied ∨ bad = some a) ∧ x.reservation = none) : Charged [] bad (Machine.enterCharging a s) := by
  obtain ⟨r, w, stands⟩ := h.windows.stands_slot slot
  have before : drawIn (some x.phase) = 0 ∧ x.phase ≠ .waiting := by
    rw [idle]
    exact ⟨rfl, nofun⟩
  rw [enterCharging_eq stands]
  split
  · have account := (h.accounts r w stands.rack).join stands.holds (phaseAt_of stands.slot) before.1 before.2 List.not_mem_nil (x.mic s)
    exact (h.write (y := { x with phase := .waiting, topCounter := 0, setOwed := false, pollTimer := some s.charge.pollPeriod }) stands
      (joined_place ..) account (fun _ _ => Iff.rfl) fun _ => fit).attempt r
  · exact h.settle stands before ⟨rfl, nofun⟩ fun _ => fit

/-- A slot handed back to charging (R140). -/
theorem handBack (h : Charged [] bad s) (slot : s.slots[a] = some x) (idle : x.phase = .none)
    (fit : (x.occupancy = .occupied ∨ bad = some a) ∧ x.reservation = none) : Charged [] bad (Machine.handBack a s) := by
  have told := h.requestSetCharge a .off
  obtain ⟨y, after, plate, reservation⟩ := (Charging.requestSetCharge (a := a) (m := .off) (.refl s)).slot_after slot
  have phase := requestSetCharge_phaseAt a .off s a
  rw [phaseAt_of after, phaseAt_of slot, Option.some_inj] at phase
  exact told.enterCharging after (phase.trans idle) (by rw [plate_occupancy plate, reservation]; exact fit)

/-! ## An answered POLL -/

theorem told (h : Charged limbo bad s) (occupied : (s.slots[a]).map Slot.occupancy = some .occupied) (m : ChargeMode) :
    Charged limbo bad (Machine.told a m s) := by
  rw [← requestSetCharge_told occupied]
  exact h.requestSetCharge a m

theorem judgePoll (h : Charged [] none s) (a : SlotAddr) : Charged [] none (Machine.judgePoll a s) := by
  cases slot : s.slots[a] with
  | none =>
    unfold Machine.judgePoll
    rw [slot]
    exact h
  | some x =>
    obtain ⟨r, w, stands⟩ := h.windows.stands_slot slot
    have account := h.accounts r w stands.rack
    have phased := phaseAt_of slot
    cases phase : x.phase with
    | none =>
      rw [judgePoll_none stands phase]
      exact h
    | waiting =>
      have fit := h.charges slot (by rw [phase]; nofun)
      rw [judgePoll_waiting stands phase]
      dsimp only
      have judged : Charged [] none (if x.level = 100 then (s.setRack r (some (w.withoutWaiting a))).setSlot a (some { x with phase := .full })
          else s) := by
        split
        · rw [phase] at phased
          exact h.write stands rfl (account.endWaiting stands.holds phased rfl nofun) (fun _ _ => Iff.rfl) fun _ => fit
        · exact h
      split
      · exact judged.attempt r
      · exact judged
    | bulk =>
      obtain ⟨occupied, free⟩ := h.charges slot (by rw [phase]; nofun)
      have occupied := occupied.resolve_right nofun
      rw [judgePoll_bulk stands phase]
      split
      · rw [passToTop_eq stands occupied]
        rw [phase] at phased
        have place : ({ w with committed := w.committed - 330 } : RackWindow).place = w.place := by simp only [RackWindow.place]
        have moved := h.write (y := { x with phase := .top, topCounter := s.charge.topPolls }) stands place
          (account.toTop stands.holds phased) (fun _ _ => Iff.rfl) fun _ => ⟨.inl occupied, free⟩
        refine Charged.attempt (moved.told ?_ _) r
        · rw [setSlot_get]
          exact congrArg some occupied
      · exact h
    | top =>
      obtain ⟨occupied, free⟩ := h.charges slot (by rw [phase]; nofun)
      have occupied := occupied.resolve_right nofun
      have counted : Charged [] none (s.setSlot a (some { x with topCounter := x.topCounter - 1 })) := by
        have charging : Charging s (s.modSlot a fun y => { y with topCounter := x.topCounter - 1 }) :=
          (Charging.refl s).modSlot (fun _ => rfl) fun _ => rfl
        rw [modSlot_eq slot] at charging
        refine h.follow charging (fun b => ?_) rfl
        rw [phaseAt_set rfl b]
        split
        · next own => rw [own, phaseAt_of slot]
        · rfl
      rw [judgePoll_top stands phase]
      dsimp only
      split
      · have stands' : Stands (s.setSlot a (some { x with topCounter := x.topCounter - 1 })) r w a { x with topCounter := x.topCounter - 1 } :=
          stands.writeSlot rfl rfl
        have phased' := (phaseAt_of stands'.slot).trans (congrArg some phase)
        rw [passToFull_eq stands' occupied]
        have account' := (counted.accounts r w stands'.rack).endSession (p := .full) (limbo' := []) stands.holds (.inr ⟨phased', rfl⟩) rfl
          nofun fun _ _ => Iff.rfl
        have moved := counted.write (y := { x with phase := .full, topCounter := 0 }) stands' (withoutSession_place ..) account'
          (fun _ _ => Iff.rfl) fun _ => ⟨.inl occupied, free⟩
        refine Charged.attempt (moved.told ?_ _) r
        · rw [setSlot_get]
          exact congrArg some occupied
      · exact counted
    | full =>
      have fit := h.charges slot (by rw [phase]; nofun)
      rw [judgePoll_full stands phase]
      split
      · exact h.startWaiting stands (by rw [phase]; exact ⟨rfl, nofun⟩) fit
      · exact h

end

end Charged

end Sys2Proof.Machine
end

section
/-! PROOF. The laws of racks, charging and fleet while a command's work is under way: an exchange taken from the bus and not yet settled, a
slot on its way to FAULT, an operation between two candidates. -/

namespace Sys2Proof.Machine

/-! ## What the laws see of a slot -/

/-- A slot's occupancy, name and reservation. -/
def Slot.tag (x : Slot) : Occupancy × Option DeviceId × Option Nat := (x.occupancy, x.deviceId, x.reservation)

/-- The tag at an address. -/
def tagAt (s : State) (a : SlotAddr) : Option (Occupancy × Option DeviceId × Option Nat) := (s.slots[a]).map Slot.tag

/-- The handle that reserves the slot at an address. -/
def reservedAt (s : State) (a : SlotAddr) : Option Nat := (s.slots[a]).bind Slot.reservation

theorem namedAt_of {s : State} {a : SlotAddr} {x : Slot} (slot : s.slots[a] = some x) : namedAt s a = x.deviceId := by
  unfold namedAt
  rw [slot]
  rfl

theorem reservedAt_of {s : State} {a : SlotAddr} {x : Slot} (slot : s.slots[a] = some x) : reservedAt s a = x.reservation := by
  unfold reservedAt
  rw [slot]
  rfl

section
variable {s t : State} {a : SlotAddr}

theorem namedAt_tag (tag : tagAt t a = tagAt s a) : namedAt t a = namedAt s a := by
  have same := congrArg (fun p => Option.bind p fun p => p.2.1) tag
  unfold tagAt at same
  simp only [Option.bind_map] at same
  exact same

theorem reservedAt_tag (tag : tagAt t a = tagAt s a) : reservedAt t a = reservedAt s a := by
  have same := congrArg (fun p => Option.bind p fun p => p.2.2) tag
  unfold tagAt at same
  simp only [Option.bind_map] at same
  exact same

theorem occupancy_tag (tag : tagAt t a = tagAt s a) : (t.slots[a]).map Slot.occupancy = (s.slots[a]).map Slot.occupancy := by
  have same := congrArg (Option.map Prod.fst) tag
  unfold tagAt at same
  rwa [Option.map_map, Option.map_map] at same

end

/-! ## The laws -/

/-- A reserved slot is OCCUPIED, unless it is the bad one; an OCCUPIED slot names a device, an EMPTY or PROBING one none. -/
def Posted (bad : Option SlotAddr) (s : State) : Prop := ∀ (a : SlotAddr) (x : Slot), s.slots[a] = some x →
  (x.reservation ≠ none → x.occupancy = .occupied ∨ bad = some a) ∧ (x.occupancy = .occupied → x.deviceId ≠ none) ∧
    (x.occupancy = .empty ∨ x.occupancy = .probing → x.deviceId = none)

/-- The roster's law; an operation for a MIC that has issued it is between its candidates (R151, R152). -/
structure RosterKept (idle : Option GroupId) (s : State) : Prop where
  bound (k : RosterId) (id : DeviceId) : s.roster[k] = .bound id ↔ ∃ d ∈ s.devices, d.id = id ∧ d.state = .out ∧ d.kind = .mic ∧
    d.assignment.bind Assignment.roster = some k
  out (d : Device) : d ∈ s.devices → d.state = .out → (d.kind = .mic ↔ d.assignment.bind Assignment.roster ≠ none)
  held (k : RosterId) (h : Nat) : s.roster[k] = .held h → ∃ o ∈ s.ops, h = o.group.val + 1 ∧ o.roster = some k ∧ o.issued = 0
  receiver (o : IssueOperation) : o ∈ s.ops → o.kind = .receiver → o.roster = none
  mic (o : IssueOperation) : o ∈ s.ops → o.kind = .mic → o.count = 1 ∧ (idle ≠ some o.group → o.issued = 0) ∧
    (o.issued = 0 → ∃ k : RosterId, o.roster = some k ∧ s.roster[k] = .held (o.group.val + 1))

/-- Operation o has candidate c, whose slot its handle reserves and whose device is DOCKED and of its kind (R153). -/
def Candidate.stands (c : Candidate) (o : IssueOperation) (s : State) : Prop :=
  reservedAt s c.slot = some (o.group.val + 1) ∧ ∃ d ∈ s.devices, namedAt s c.slot = some d.id ∧ d.state = .docked ∧ d.kind = o.kind

/-- Every operation has its candidate, but for the idle one, which has none; and every reserved slot is a candidate's. -/
structure CandidatesKept (idle : Option GroupId) (s : State) : Prop where
  each (o : IssueOperation) : o ∈ s.ops → (idle = some o.group ∧ o.candidate = none) ∨ ∃ c, o.candidate = some c ∧ c.stands o s
  reserved (a : SlotAddr) (h : Nat) : reservedAt s a = some h → ∃ o ∈ s.ops, h = o.group.val + 1 ∧ o.candidate.map Candidate.slot = some a

/-- The slots, the devices, the groups, the roster and the operations. -/
structure Fleet (bad : Option SlotAddr) (idle : Option GroupId) (s : State) : Prop where
  posts : Posted bad s
  names : NamesSound s
  outs : OutCountsSound s
  roster : RosterKept idle s
  candidates : CandidatesKept idle s

/-- An exchange is supported, or goes to the bad slot. -/
def Backed (bad : Option SlotAddr) (e : Exchange) (s : State) : Prop := Supported e s ∨ ∃ a, e.slot? = some a ∧ bad = some a

/-- The exchanges in flight or in hand, and those queued (R116, R153). -/
structure Running (flying : List Exchange) (bad : Option SlotAddr) (s : State) : Prop where
  live (e : Exchange) : e ∈ flying → Backed bad e s
  queued (q : Fin 6) (e : Exchange) : e ∈ s.bus.queues[q] → Backed bad e s
  probes : (flying ++ s.bus.queues[(2 : Fin 6)]).Nodup
  tasks : (flying.filter (fun e => classOf e = 2) ++ s.bus.queues[(1 : Fin 6)]).Perm (s.ops.filterMap taskOf)

/-- All the laws together. -/
structure Held (flying : List Exchange) (bad : Option SlotAddr) (idle : Option GroupId) (s : State) : Prop where
  charged : Charged [] bad s
  table : DevicesSound s
  issues : IssuesSound s
  fleet : Fleet bad idle s
  running : Running flying bad s

/-- The exchange in flight goes to its rack, or, marked by that rack's removal, is no TUNE or RELEASE (R118, R122). -/
def FlightSound (s : State) : Prop := ∀ x ∈ s.bus.inFlight,
  (x.doomed = false → ∃ w, GoesTo x.exchange x.rack w s) ∧ (x.doomed = true → classOf x.exchange ≠ 2)

theorem backed_none {e : Exchange} {s : State} : Backed none e s ↔ Supported e s :=
  ⟨fun backed => backed.resolve_right fun ⟨_, _, other⟩ => absurd other nofun, .inl⟩

theorem dockSound_held {s : State} (sound : DockSound s) : Held (liveInFlight s) none none s where
  charged := by
    refine ⟨sound.windows, (accountsSound_iff s).mp sound.accounts, fun {a x} slot charges => ?_⟩
    obtain ⟨occupied, free⟩ := (sound.slots a x slot).1 charges
    exact ⟨.inl occupied, free⟩
  table := sound.deviceTable
  issues := sound.issues
  fleet := by
    obtain ⟨bound, out, held, each⟩ := sound.roster
    obtain ⟨standing, reserved⟩ := sound.candidates
    refine ⟨fun a x slot => ?_, sound.names, sound.outCounts, ⟨bound, out, fun k n entry => ?_, fun o mem => (each o mem).1,
      fun o mem mic => ?_⟩,
      ⟨fun o mem => ?_, reserved⟩⟩
    · obtain ⟨-, occupied, named, unnamed⟩ := sound.slots a x slot
      exact ⟨fun reserved => .inl (occupied reserved), named, unnamed⟩
    · obtain ⟨o, mem, handle, names⟩ := held k n entry
      refine ⟨o, mem, handle, names, ?_⟩
      cases kind : o.kind with
      | mic => exact ((each o mem).2 kind).2.1
      | receiver =>
        rw [(each o mem).1 kind] at names
        cases names
    · obtain ⟨count, issued, there⟩ := (each o mem).2 mic
      exact ⟨count, fun _ => issued, fun _ => there⟩
    · obtain ⟨c, candidate, stands⟩ := standing o mem
      exact .inr ⟨c, candidate, stands⟩
  running := by
    obtain ⟨live, queued, -, probes, tasks⟩ := sound.exchanges
    exact ⟨fun e mem => .inl (live e mem), fun q e mem => .inl (queued q e mem), probes, tasks⟩

theorem Held.dockSound {s : State} (h : Held (liveInFlight s) none none s) (flight : FlightSound s) : DockSound s := by
  obtain ⟨⟨windows, accounts, charges⟩, table, issues, ⟨posts, names, outs, roster, candidates⟩, running⟩ := h
  refine ⟨⟨windows, table, issues⟩, (accountsSound_iff s).mpr accounts, fun a x slot => ?_, names, outs,
    ⟨roster.bound, roster.out, fun k n entry => ?_, fun o mem => ⟨roster.receiver o mem, fun mic => ?_⟩⟩, ⟨fun o mem => ?_, candidates.reserved⟩,
    fun e mem => backed_none.mp (running.live e mem), fun q e mem => backed_none.mp (running.queued q e mem), flight, running.probes,
    running.tasks⟩
  · obtain ⟨occupied, named, unnamed⟩ := posts a x slot
    refine ⟨fun charging => ?_, fun reserved => (occupied reserved).resolve_right nofun, named, unnamed⟩
    obtain ⟨there, free⟩ := charges slot charging
    exact ⟨there.resolve_right nofun, free⟩
  · obtain ⟨o, mem, handle, names, -⟩ := roster.held k n entry
    exact ⟨o, mem, handle, names⟩
  · obtain ⟨count, issued, there⟩ := roster.mic o mem mic
    exact ⟨count, issued nofun, there (issued nofun)⟩
  · rcases candidates.each o mem with ⟨none, -⟩ | there
    · cases none
    · exact there

/-- What an exchange needs goes over with the windows and the occupancies. -/
theorem Supported.congr {s t : State} {e : Exchange} (supported : Supported e s)
    (racks : ∀ r : RackId, (t.racks[r]).isSome = (s.racks[r]).isSome)
    (occupancy : ∀ a : SlotAddr, (t.slots[a]).map Slot.occupancy = (s.slots[a]).map Slot.occupancy) : Supported e t := by
  cases e with
  | scan r =>
    change t.racks[r] ≠ none
    rw [← Option.isSome_iff_ne_none, racks, Option.isSome_iff_ne_none]
    exact supported
  | probe a => exact (occupancy a).trans supported
  | poll a | setCharge a _ | tune a _ _ _ | release a | clear a _ =>
    intro b mem
    exact (occupancy b).trans (supported b mem)

/-! ## Work that the fleet's laws do not see -/

/-- Tags, devices, groups, operations and roster stay, but for what no law of the fleet speaks of. -/
structure Abiding (s t : State) : Prop where
  tag (a : SlotAddr) : tagAt t a = tagAt s a
  devices : t.devices.map Device.card = s.devices.map Device.card
  groups (g : GroupId) : (t.groups[g]).state = (s.groups[g]).state ∧ (t.groups[g]).outCount = (s.groups[g]).outCount
  ops : t.ops.map IssueOperation.task = s.ops.map IssueOperation.task
  roster : t.roster = s.roster

section
variable {α β : Type}

/-- Two lists with one image: each member has its like in the other. -/
theorem mem_of_map_eq {f : α → β} {l m : List α} (same : m.map f = l.map f) {x : α} (mem : x ∈ m) : ∃ y ∈ l, f y = f x :=
  List.mem_map.mp (same ▸ List.mem_map_of_mem mem)

end

section
variable {d e : Device}

theorem card_id (same : e.card = d.card) : e.id = d.id := (congrArg Device.id same :)
theorem card_kind (same : e.card = d.card) : e.kind = d.kind := (congrArg Device.kind same :)
theorem card_state (same : e.card = d.card) : e.state = d.state := (congrArg Device.state same :)
theorem card_slot (same : e.card = d.card) : e.slot = d.slot := (congrArg Device.slot same :)

theorem card_group (same : e.card = d.card) : e.assignment.map Assignment.group = d.assignment.map Assignment.group := by
  have maps := congrArg (fun d : Device => d.assignment.map Assignment.group) same
  unfold Device.card at maps
  rwa [Option.map_map, Option.map_map] at maps

theorem card_roster (same : e.card = d.card) : e.assignment.bind Assignment.roster = d.assignment.bind Assignment.roster := by
  have maps := congrArg (fun d : Device => d.assignment.bind Assignment.roster) same
  unfold Device.card at maps
  simp only [Option.bind_map] at maps
  exact maps

theorem card_assigned (same : e.card = d.card) : e.assignment ≠ none ↔ d.assignment ≠ none := by
  have maps := card_group same
  rw [not_iff_not]
  constructor <;> intro none <;> rw [none] at maps <;> simpa using maps

end

section
variable {o p : IssueOperation}

theorem task_group (same : p.task = o.task) : p.group = o.group := (congrArg IssueOperation.group same :)
theorem task_kind (same : p.task = o.task) : p.kind = o.kind := (congrArg IssueOperation.kind same :)
theorem task_count (same : p.task = o.task) : p.count = o.count := (congrArg IssueOperation.count same :)
theorem task_issued (same : p.task = o.task) : p.issued = o.issued := (congrArg IssueOperation.issued same :)
theorem task_roster (same : p.task = o.task) : p.roster = o.roster := (congrArg IssueOperation.roster same :)
theorem task_candidate (same : p.task = o.task) : p.candidate = o.candidate := (congrArg IssueOperation.candidate same :)

end

namespace Abiding

section
variable {s t : State} (h : Abiding s t) {bad : Option SlotAddr} {idle : Option GroupId}
include h

theorem symm : Abiding t s :=
  ⟨fun a => (h.tag a).symm, h.devices.symm, fun g => ⟨(h.groups g).1.symm, (h.groups g).2.symm⟩, h.ops.symm, h.roster.symm⟩

theorem device_before {d : Device} (mem : d ∈ t.devices) : ∃ e ∈ s.devices, e.card = d.card := mem_of_map_eq h.devices mem

theorem device_after {d : Device} (mem : d ∈ s.devices) : ∃ e ∈ t.devices, e.card = d.card := mem_of_map_eq h.devices.symm mem

theorem op_before {o : IssueOperation} (mem : o ∈ t.ops) : ∃ p ∈ s.ops, p.task = o.task := mem_of_map_eq h.ops mem

theorem op_after {o : IssueOperation} (mem : o ∈ s.ops) : ∃ p ∈ t.ops, p.task = o.task := mem_of_map_eq h.ops.symm mem

theorem posts (posts : Posted bad s) : Posted bad t := by
  intro a y after
  have tag := h.tag a
  unfold tagAt at tag
  rw [after, Option.map_some] at tag
  cases slot : s.slots[a] with
  | none => rw [slot] at tag; cases tag
  | some x =>
    rw [slot, Option.map_some, Option.some_inj] at tag
    have occupancy : y.occupancy = x.occupancy := congrArg Prod.fst tag
    have name : y.deviceId = x.deviceId := congrArg (fun p => p.2.1) tag
    have reservation : y.reservation = x.reservation := congrArg (fun p => p.2.2) tag
    rw [occupancy, name, reservation]
    exact posts a x slot

theorem names (names : NamesSound s) : NamesSound t := by
  refine ⟨fun d mem => ?_, fun a id named => ?_⟩
  · obtain ⟨e, there, same⟩ := h.device_before mem
    obtain ⟨docked, unseen⟩ := names.1 e there
    rw [← card_state same, ← card_slot same, ← card_id same]
    refine ⟨fun state => ?_, unseen⟩
    obtain ⟨a, slot, named⟩ := docked state
    exact ⟨a, slot, (namedAt_tag (h.tag a)).trans named⟩
  · obtain ⟨d, there, name, seen, slot⟩ := names.2 a id ((namedAt_tag (h.tag a)).symm.trans named)
    obtain ⟨e, mem, same⟩ := h.device_after there
    exact ⟨e, mem, (card_id same).trans name, by rwa [card_state same], (card_slot same).trans slot⟩

theorem outOf (g : GroupId) : Machine.outOf g t = Machine.outOf g s := by
  have count (l : List Device) : (l.filter fun d => decide (d.state = .out ∧ d.assignment.map Assignment.group = some g)).length =
      ((l.map Device.card).filter fun d => decide (d.state = .out ∧ d.assignment.map Assignment.group = some g)).length := by
    rw [List.filter_map, List.length_map]
    refine congrArg List.length (List.filter_congr fun d _ => ?_)
    have group : d.card.assignment.map Assignment.group = d.assignment.map Assignment.group := Option.map_map ..
    simp only [Function.comp_apply, group]
    rfl
  unfold Machine.outOf
  rw [count, h.devices, ← count]

theorem outs (outs : OutCountsSound s) : OutCountsSound t := by
  refine ⟨fun d mem => ?_, fun g => ?_⟩
  · obtain ⟨e, there, same⟩ := h.device_before mem
    rw [← card_state same, ← card_assigned same]
    exact outs.1 e there
  · rw [(h.groups g).1, (h.groups g).2, h.outOf]
    exact outs.2 g

theorem rosterKept (roster : RosterKept idle s) : RosterKept idle t where
  bound k id := by
    rw [h.roster, roster.bound k id]
    constructor
    · rintro ⟨d, mem, name, state, kind, entry⟩
      obtain ⟨e, there, same⟩ := h.device_after mem
      exact ⟨e, there, (card_id same).trans name, (card_state same).trans state, (card_kind same).trans kind, (card_roster same).trans entry⟩
    · rintro ⟨d, mem, name, state, kind, entry⟩
      obtain ⟨e, there, same⟩ := h.device_before mem
      exact ⟨e, there, (card_id same).trans name, (card_state same).trans state, (card_kind same).trans kind, (card_roster same).trans entry⟩
  out d mem := by
    obtain ⟨e, there, same⟩ := h.device_before mem
    rw [← card_state same, ← card_kind same, ← card_roster same]
    exact roster.out e there
  held k n := by
    rw [h.roster]
    intro entry
    obtain ⟨o, mem, handle, names, unissued⟩ := roster.held k n entry
    obtain ⟨p, there, same⟩ := h.op_after mem
    exact ⟨p, there, by rw [task_group same]; exact handle, (task_roster same).trans names, (task_issued same).trans unissued⟩
  receiver o mem := by
    obtain ⟨p, there, same⟩ := h.op_before mem
    rw [← task_kind same, ← task_roster same]
    exact roster.receiver p there
  mic o mem := by
    obtain ⟨p, there, same⟩ := h.op_before mem
    rw [← task_kind same, ← task_roster same, ← task_count same, ← task_issued same, ← task_group same, h.roster]
    exact roster.mic p there

theorem standing {c : Candidate} {o p : IssueOperation} (same : p.task = o.task) (stands : c.stands p s) : c.stands o t := by
  obtain ⟨reserved, d, mem, name, docked, kind⟩ := stands
  obtain ⟨e, there, card⟩ := h.device_after mem
  refine ⟨?_, e, there, ?_, ?_, ?_⟩
  · rw [reservedAt_tag (h.tag _), ← task_group same]
    exact reserved
  · rw [namedAt_tag (h.tag _), card_id card]
    exact name
  · rw [card_state card]
    exact docked
  · rw [card_kind card, ← task_kind same]
    exact kind

theorem candidates (candidates : CandidatesKept idle s) : CandidatesKept idle t where
  each o mem := by
    obtain ⟨p, there, same⟩ := h.op_before mem
    rcases candidates.each p there with ⟨between, none⟩ | ⟨c, candidate, stands⟩
    · exact .inl ⟨by rw [← task_group same]; exact between, (task_candidate same).symm.trans none⟩
    · exact .inr ⟨c, (task_candidate same).symm.trans candidate, h.standing same stands⟩
  reserved a n there := by
    obtain ⟨o, mem, handle, candidate⟩ := candidates.reserved a n ((reservedAt_tag (h.tag a)).symm.trans there)
    obtain ⟨p, after, same⟩ := h.op_after mem
    exact ⟨p, after, by rw [task_group same]; exact handle, by rw [task_candidate same]; exact candidate⟩

theorem fleet (fleet : Fleet bad idle s) : Fleet bad idle t :=
  ⟨h.posts fleet.posts, h.names fleet.names, h.outs fleet.outs, h.rosterKept fleet.roster, h.candidates fleet.candidates⟩

theorem tasks : t.ops.filterMap taskOf = s.ops.filterMap taskOf := by
  have same (l : List IssueOperation) : l.filterMap taskOf = (l.map IssueOperation.task).filterMap taskOf := by
    rw [List.filterMap_map]
    rfl
  rw [same, same s.ops, h.ops]

/-- The slots and the windows still back an exchange. -/
theorem supported (racks : ∀ r : RackId, (t.racks[r]).isSome = (s.racks[r]).isSome) {e : Exchange} (supported : Supported e s) :
    Supported e t := supported.congr racks fun a => occupancy_tag (h.tag a)

theorem backed (racks : ∀ r : RackId, (t.racks[r]).isSome = (s.racks[r]).isSome) {e : Exchange} (backed : Backed bad e s) :
    Backed bad e t := backed.imp_left (h.supported racks)

end

end Abiding

/-- The laws go over when the accounts do, the fleet abides, and the queues but for SET_CHARGE, CLEAR, SCAN and POLL stay. -/
theorem Held.abiding {flying : List Exchange} {bad : Option SlotAddr} {idle : Option GroupId} {s t : State} (h : Held flying bad idle s)
    (abiding : Abiding s t) (charged : Charged [] bad t) (issues : IssuesSound t)
    (racks : ∀ r : RackId, (t.racks[r]).isSome = (s.racks[r]).isSome) (tunes : t.bus.queues[(1 : Fin 6)] = s.bus.queues[(1 : Fin 6)])
    (probes : t.bus.queues[(2 : Fin 6)] = s.bus.queues[(2 : Fin 6)])
    (queued : ∀ (q : Fin 6) (e : Exchange), e ∈ t.bus.queues[q] → e ∈ s.bus.queues[q] ∨ Backed bad e s) : Held flying bad idle t where
  charged := charged
  table := h.table.congr (by
    have ids (l : List Device) : l.map Device.id = (l.map Device.card).map Device.id := by
      rw [List.map_map]
      rfl
    rw [ids, ids s.devices, abiding.devices])
  issues := issues
  fleet := abiding.fleet h.fleet
  running := {
    live := fun e mem => abiding.backed racks (h.running.live e mem)
    queued := fun q e mem => abiding.backed racks ((queued q e mem).elim (h.running.queued q e) id)
    probes := by rw [probes]; exact h.running.probes
    tasks := by rw [tunes, abiding.tasks]; exact h.running.tasks }

end Sys2Proof.Machine
end

section
/-! PROOF. The small operations keep the laws of racks, charging and fleet: charging, what the dock does not see, requests for exchanges. -/

namespace Sys2Proof.Machine

/-! ## Charging -/

theorem tag_of_plate {x y : Slot} (plate : y.plate = x.plate) (reservation : y.reservation = x.reservation) : y.tag = x.tag := by
  unfold Slot.tag
  rw [plate_occupancy plate, plate_deviceId plate, reservation]

/-- What a request asks of the slot's state is what an exchange under way needs. -/
theorem supported_of_allowed {e : Exchange} {s : State} (allowed : e.allowed s = true) (slot : e.slot? ≠ none) : Supported e s := by
  cases e with
  | scan r => exact absurd rfl slot
  | probe a => exact (of_decide_eq_true allowed : (s.slots[a]).map Slot.occupancy = some .probing)
  | poll a | setCharge a _ | tune a _ _ _ | release a | clear a _ =>
    intro b mem
    cases mem
    exact of_decide_eq_true allowed

theorem Charging.abiding {s t : State} (h : Charging s t) : Abiding s t where
  tag a := by
    unfold tagAt
    cases slot : s.slots[a] with
    | none =>
      have plate := h.plate a
      rw [slot, Option.map_none, Option.map_eq_none_iff] at plate
      rw [plate]
    | some x =>
      obtain ⟨y, after, plate, reservation⟩ := h.slot_after slot
      rw [after]
      exact congrArg some (tag_of_plate plate reservation)
  devices := by rw [h.devices_eq]
  groups g := by rw [h.groups_eq]; exact ⟨rfl, rfl⟩
  ops := by rw [h.ops_eq]
  roster := (congrArg State.roster h.rest :)

theorem Charging.racks_isSome {s t : State} (h : Charging s t) (r : RackId) : (t.racks[r]).isSome = (s.racks[r]).isSome := by
  have site := congrArg Option.isSome (h.site r)
  rwa [Option.isSome_map, Option.isSome_map] at site

section
variable {flying : List Exchange} {bad : Option SlotAddr} {idle : Option GroupId} {s t : State} {a : SlotAddr} {x : Slot}

theorem Held.charging (h : Held flying bad idle s) (work : Charging s t) (charged : Charged [] bad t) : Held flying bad idle t := by
  refine h.abiding work.abiding charged (work.records.issues h.issues) work.racks_isSome (work.others 1 (by decide) (by decide))
    (work.others 2 (by decide) (by decide)) fun q e mem => ?_
  rcases work.queued q e with fewer | ⟨cls, allowed⟩
  · exact .inl (List.count_pos_iff.mp ((List.count_pos_iff.mpr mem).trans_le fewer))
  · by_cases slot : e.slot? = none
    · cases e with
      | scan r => exact .inl (work.others q (by rintro rfl; cases cls) (by rintro rfl; cases cls) ▸ mem)
      | _ => cases slot
    · exact .inr (.inl (supported_of_allowed allowed slot))

theorem Held.requestSetCharge (h : Held flying bad idle s) (a : SlotAddr) (m : ChargeMode) :
    Held flying bad idle (Machine.requestSetCharge a m s) :=
  h.charging (.requestSetCharge (.refl s)) (h.charged.requestSetCharge a m)

theorem Held.attempt (h : Held flying bad idle s) (r : RackId) : Held flying bad idle (Machine.attempt r s) :=
  h.charging (.attempt (.refl s)) (h.charged.attempt r)

theorem Held.endCharging (h : Held flying bad idle s) (a : SlotAddr) : Held flying bad idle (Machine.endCharging a s) := by
  cases slot : s.slots[a] with
  | none =>
    unfold Machine.endCharging
    rw [slot]
    exact h
  | some x =>
    obtain ⟨r, w, stands⟩ := h.charged.windows.stands_slot slot
    exact h.charging (.endCharging (.refl s)) (h.charged.endCharging stands)

theorem Held.enterCharging (h : Held flying bad idle s) (slot : s.slots[a] = some x) (idle' : x.phase = .none)
    (fit : (x.occupancy = .occupied ∨ bad = some a) ∧ x.reservation = none) : Held flying bad idle (Machine.enterCharging a s) :=
  h.charging (.enterCharging (.refl s)) (h.charged.enterCharging slot idle' fit)

theorem Held.handBack (h : Held flying bad idle s) (slot : s.slots[a] = some x) (idle' : x.phase = .none)
    (fit : (x.occupancy = .occupied ∨ bad = some a) ∧ x.reservation = none) : Held flying bad idle (Machine.handBack a s) :=
  h.charging (.handBack (.refl s)) (h.charged.handBack slot idle' fit)

theorem Held.judgePoll (h : Held flying none idle s) (a : SlotAddr) : Held flying none idle (Machine.judgePoll a s) :=
  h.charging (.judgePoll (.refl s)) (h.charged.judgePoll a)

/-! ## What the dock does not see -/

/-- Equal docks, part by part. -/
structure Berthed (s t : State) : Prop where
  posts (a : SlotAddr) : (t.slots[a]).map Slot.post = (s.slots[a]).map Slot.post
  yards (r : RackId) : (t.racks[r]).map RackWindow.yard = (s.racks[r]).map RackWindow.yard
  queues : t.bus.queues = s.bus.queues
  flight : t.bus.inFlight.map InFlight.berth = s.bus.inFlight.map InFlight.berth
  devices : t.devices.map Device.card = s.devices.map Device.card
  desks (g : GroupId) : (t.groups[g]).desk = (s.groups[g]).desk
  ops : t.ops.map IssueOperation.task = s.ops.map IssueOperation.task
  roster : t.roster = s.roster

theorem Moored.berthed (h : Moored s t) : Berthed s t where
  posts a := by rw [← dock_slot, ← dock_slot, h]
  yards r := by rw [← dock_rack, ← dock_rack, h]
  queues := (congrArg (fun u => u.bus.queues) h :)
  flight := (congrArg (fun u => u.bus.inFlight) h :)
  devices := (congrArg State.devices h :)
  desks g := by rw [← dock_group, ← dock_group, h]
  ops := (congrArg State.ops h :)
  roster := (congrArg State.roster h :)

theorem Berthed.abiding (h : Berthed s t) : Abiding s t where
  tag a := by
    have tags (o : Option Slot) : o.map Slot.tag = (o.map Slot.post).map Slot.tag := by
      rw [Option.map_map]
      rfl
    unfold tagAt
    rw [tags, h.posts, ← tags]
  devices := h.devices
  groups g := ⟨(congrArg Group.state (h.desks g) :), (congrArg Group.outCount (h.desks g) :)⟩
  ops := h.ops
  roster := h.roster

theorem Berthed.phaseAt (h : Berthed s t) (a : SlotAddr) : Machine.phaseAt t a = Machine.phaseAt s a := by
  have phases (o : Option Slot) : o.map Slot.phase = (o.map Slot.post).map Slot.phase := by
    rw [Option.map_map]
    rfl
  unfold Machine.phaseAt
  rw [phases, h.posts, ← phases]

theorem Berthed.rack_before (h : Berthed s t) {r : RackId} {v : RackWindow} (rack : t.racks[r] = some v) :
    ∃ w, s.racks[r] = some w ∧ v.yard = w.yard := by
  have yards := h.yards r
  rw [rack] at yards
  cases before : s.racks[r] with
  | none => rw [before] at yards; cases yards
  | some w => exact ⟨w, rfl, by rw [before] at yards; exact Option.some.inj yards⟩

theorem Charged.moored (h : Charged [] bad s) (work : Moored s t) : Charged [] bad t where
  windows := by
    rw [← windowsSound_dock, work, windowsSound_dock]
    exact h.windows
  accounts := h.accounts.congr work.berthed.phaseAt fun q u there => by
    obtain ⟨w, before, yard⟩ := work.berthed.rack_before there
    exact ⟨w, before, (congrArg RackWindow.base yard :), (congrArg RackWindow.size yard :), (congrArg RackWindow.sessions yard :),
      (congrArg RackWindow.admission yard :), (congrArg RackWindow.committed yard :)⟩
  charges {a y} after charges := by
    have post := work.berthed.posts a
    rw [after] at post
    cases slot : s.slots[a] with
    | none => rw [slot] at post; cases post
    | some x =>
      rw [slot, Option.map_some, Option.map_some, Option.some_inj] at post
      have occupancy : y.occupancy = x.occupancy := (congrArg Slot.occupancy post :)
      have reservation : y.reservation = x.reservation := (congrArg Slot.reservation post :)
      have phase : y.phase = x.phase := (congrArg Slot.phase post :)
      rw [occupancy, reservation]
      exact h.charges slot (phase ▸ charges)

theorem Held.moored (h : Held flying bad idle s) (work : Moored s t) : Held flying bad idle t := by
  have berthed := work.berthed
  refine h.abiding berthed.abiding (h.charged.moored work) ?_ (fun r => ?_) (by rw [berthed.queues]) (by rw [berthed.queues]) fun q e mem => ?_
  · rw [← issuesSound_dock, work, issuesSound_dock]
    exact h.issues
  · have yard := congrArg Option.isSome (berthed.yards r)
    rwa [Option.isSome_map, Option.isSome_map] at yard
  · rw [berthed.queues] at mem
    exact .inl mem

theorem Held.setClear (h : Held flying bad idle s) (id : DeviceId) (c : ClearState) : Held flying bad idle (Machine.setClear id c s) :=
  h.moored ((Moored.refl s).modDevice fun _ => rfl)

theorem Held.setTimeouts (h : Held flying bad idle s) (a : SlotAddr) (n : Nat) : Held flying bad idle (Machine.setTimeouts a n s) :=
  h.moored ((Moored.refl s).modSlot fun _ => rfl)

theorem Held.storeLevel (h : Held flying bad idle s) (a : SlotAddr) (n : Nat) : Held flying bad idle (Machine.storeLevel a n s) := by
  have slot : Moored s (s.modSlot a fun x => { x with level := n }) := (Moored.refl s).modSlot fun _ => rfl
  unfold Machine.storeLevel
  dsimp only
  split
  · exact h.moored (slot.modDevice fun _ => rfl)
  · exact h.moored slot

theorem Held.raise (h : Held flying bad idle s) {k : EventKind} {o d : Nat} : Held flying bad idle (Machine.raise k o d s) :=
  h.moored (Moored.refl s).raise

/-! ## The class queues -/

/-- The queues alone change. -/
theorem Held.requeue {flying' : List Exchange} {v : Vector (List Exchange) 6} (h : Held flying bad idle s)
    (bounds : ∀ q : Fin 6, (v[q]).length ≤ 64 ∧ ∀ e ∈ v[q], e.queue = q)
    (live : ∀ e ∈ flying', Backed bad e s) (queued : ∀ q : Fin 6, ∀ e ∈ v[q], Backed bad e s) (probes : (flying' ++ v[(2 : Fin 6)]).Nodup)
    (tasks : (flying'.filter (fun e => classOf e = 2) ++ v[(1 : Fin 6)]).Perm (s.ops.filterMap taskOf)) :
    Held flying' bad idle { s with bus := { s.bus with queues := v } } where
  charged := ⟨⟨h.charged.windows.1, h.charged.windows.2.1, h.charged.windows.2.2.1, bounds⟩, h.charged.accounts, h.charged.charges⟩
  table := h.table
  issues := h.issues
  fleet := { posts := h.fleet.posts, names := h.fleet.names, outs := h.fleet.outs, roster := ⟨h.fleet.roster.1, h.fleet.roster.2,
    h.fleet.roster.3, h.fleet.roster.4, h.fleet.roster.5⟩, candidates := ⟨h.fleet.candidates.1, h.fleet.candidates.2⟩ }
  running := ⟨live, queued, probes, tasks⟩

theorem queue_class {e : Exchange} {q : Fin 6} (cls : e.queue = q) : classOf e = q.val + 1 := by
  rw [queue_eq_classOf, cls]

/-- A request for an exchange that is no candidate's (R116). -/
theorem Held.ask (h : Held flying bad idle s) {e : Exchange} (backed : e.allowed s = true → Backed bad e s) (cls : e.queue ≠ 1)
    (single : e.queue = 2 → e ∉ flying ++ s.bus.queues[(2 : Fin 6)]) : Held flying bad idle (Machine.ask e s) := by
  unfold Machine.ask
  rcases request_cases e s with ⟨-, eq⟩ | ⟨-, -, eq⟩ | ⟨-, -, -, eq⟩ | ⟨allowed, -, room, eq⟩ <;> rw [eq]
  · exact h
  · exact h
  · exact h
  · have cases (q : Fin 6) : (s.bus.queues.set e.queue (s.bus.queues[e.queue] ++ [e]))[q] =
        if q = e.queue then s.bus.queues[e.queue] ++ [e] else s.bus.queues[q] := get_set_cases ..
    have bounds := h.charged.windows.2.2.2
    refine h.requeue (fun q => ?_) h.running.live (fun q f mem => ?_) ?_ ?_
    · rw [cases]
      split
      · next own =>
        refine ⟨by rw [List.length_append]; exact room, fun f mem => ?_⟩
        rcases List.mem_append.mp mem with there | here
        · exact ((bounds e.queue).2 f there).trans own.symm
        · rw [List.mem_singleton.mp here]
          exact own.symm
      · exact bounds q
    · rw [cases] at mem
      split at mem
      · rcases List.mem_append.mp mem with there | here
        · exact h.running.queued _ f there
        · rw [List.mem_singleton.mp here]
          exact backed allowed
      · exact h.running.queued q f mem
    · rw [cases]
      split
      · next own =>
        have queue : s.bus.queues[e.queue] = s.bus.queues[(2 : Fin 6)] := by simp only [← own]
        rw [queue, ← List.append_assoc]
        exact (List.perm_append_singleton e _).nodup_iff.mpr (List.nodup_cons.mpr ⟨single own.symm, h.running.probes⟩)
      · exact h.running.probes
    · rw [cases, if_neg (Ne.symm cls)]
      exact h.running.tasks

theorem Held.askSlot (h : Held flying bad idle s) {e : Exchange} (slot : e.slot? ≠ none) (cls : e.queue ≠ 1)
    (single : e.queue = 2 → e ∉ flying ++ s.bus.queues[(2 : Fin 6)]) : Held flying bad idle (Machine.ask e s) :=
  h.ask (fun allowed => .inl (supported_of_allowed allowed slot)) cls single

theorem Held.requestClear (h : Held flying bad idle s) (a : SlotAddr) (id : DeviceId) :
    Held flying bad idle (Machine.requestClear a id s) := by
  have asked : Held flying bad idle (request (.clear a id) s).2 := h.askSlot (e := .clear a id) nofun nofun nofun
  unfold Machine.requestClear
  split
  · next eq =>
    rw [eq] at asked
    exact asked.setClear id .queued
  · next eq =>
    rw [eq] at asked
    exact asked.setClear id .owed

theorem Held.clearOwed (h : Held flying bad idle s) (a : SlotAddr) : Held flying bad idle (Machine.clearOwed a s) := by
  unfold Machine.clearOwed
  (repeat' split)
  · exact h
  · exact h
  · exact h.requestClear ..
  · exact h

theorem Held.forEach {α : Type} {f : α → State → State} (each : ∀ (x : α) (u : State), Held flying bad idle u → Held flying bad idle (f x u))
    (l : List α) (h : Held flying bad idle s) : Held flying bad idle (Machine.forEach l f s) :=
  forEach_keeps (Held flying bad idle) f (fun x _ => each x _) l s h

/-- Exchanges that are no candidate's leave the queues, the CLEARs among them owed (R120). -/
theorem Held.without (h : Held flying bad idle s) {p : Exchange → Bool} (spared : ∀ e ∈ s.bus.queues[(1 : Fin 6)], p e = false) :
    Held flying bad idle (s.without p) := by
  have filtered (q : Fin 6) : (s.bus.queues.map fun l => l.filter fun e => !p e)[q] = (s.bus.queues[q]).filter fun e => !p e := map_get ..
  have bounds := h.charged.windows.2.2.2
  have queues : Held flying bad idle { s with bus := { s.bus with queues := s.bus.queues.map fun l => l.filter fun e => !p e } } := by
    refine h.requeue (fun q => ?_) h.running.live (fun q e mem => ?_) ?_ ?_
    · rw [filtered]
      exact ⟨(List.length_filter_le ..).trans (bounds q).1, fun e mem => (bounds q).2 e (List.mem_of_mem_filter mem)⟩
    · rw [filtered] at mem
      exact h.running.queued q e (List.mem_of_mem_filter mem)
    · rw [filtered]
      exact h.running.probes.sublist (List.Sublist.append_left List.filter_sublist _)
    · have kept : (s.bus.queues[(1 : Fin 6)]).filter (fun e => !p e) = s.bus.queues[(1 : Fin 6)] :=
        List.filter_eq_self.mpr fun e mem => by rw [spared e mem]; rfl
      rw [filtered, kept]
      exact h.running.tasks
  refine queues.moored (Moored.devicesMapped (.refl _) fun d => ?_)
  split <;> rfl

/-- An exchange in hand that no candidate waits for is settled. -/
theorem Held.land {e : Exchange} (h : Held [e] bad idle s) (cls : classOf e ≠ 2) : Held [] bad idle s where
  charged := h.charged
  table := h.table
  issues := h.issues
  fleet := h.fleet
  running := {
    live := fun e mem => absurd mem List.not_mem_nil
    queued := h.running.queued
    probes := (List.nodup_cons.mp h.running.probes).2
    tasks := by
      have tasks := h.running.tasks
      rw [List.filter_cons_of_neg (by simpa using cls)] at tasks
      exact tasks }

end

end Sys2Proof.Machine
end

section
/-! PROOF. An operation between its candidates keeps the laws: a candidate fails, the operation completes, the next slot is reserved (R153,
R157, R158). -/

namespace Sys2Proof.Machine

/-! ## One slot record written -/

section
variable {limbo : List SlotAddr} {bad bad' : Option SlotAddr} {s t : State} {a : SlotAddr} {x y : Slot}

theorem namedAt_set (slots : t.slots = s.slots.set a (some y)) (b : SlotAddr) : namedAt t b = if b = a then y.deviceId else namedAt s b := by
  unfold namedAt
  rw [slots, get_set_cases]
  split <;> rfl

theorem reservedAt_set (slots : t.slots = s.slots.set a (some y)) (b : SlotAddr) :
    reservedAt t b = if b = a then y.reservation else reservedAt s b := by
  unfold reservedAt
  rw [slots, get_set_cases]
  split <;> rfl

theorem occupancyAt_set (slots : t.slots = s.slots.set a (some y)) (b : SlotAddr) :
    (t.slots[b]).map Slot.occupancy = if b = a then some y.occupancy else (s.slots[b]).map Slot.occupancy := by
  rw [slots, get_set_cases]
  split <;> rfl

theorem namedAt_kept (slots : t.slots = s.slots.set a (some y)) (slot : s.slots[a] = some x) (name : y.deviceId = x.deviceId)
    (b : SlotAddr) : namedAt t b = namedAt s b := by
  rw [namedAt_set slots]
  split
  · next own => rw [own, namedAt_of slot, name]
  · rfl

theorem occupancyAt_kept (slots : t.slots = s.slots.set a (some y)) (slot : s.slots[a] = some x) (occupancy : y.occupancy = x.occupancy)
    (b : SlotAddr) : (t.slots[b]).map Slot.occupancy = (s.slots[b]).map Slot.occupancy := by
  rw [occupancyAt_set slots]
  split
  · next own => rw [own, slot, occupancy]; rfl
  · rfl

theorem Posted.write (posts : Posted bad s) (slots : t.slots = s.slots.set a (some y))
    (fit : (y.reservation ≠ none → y.occupancy = .occupied ∨ bad = some a) ∧ (y.occupancy = .occupied → y.deviceId ≠ none) ∧
      (y.occupancy = .empty ∨ y.occupancy = .probing → y.deviceId = none)) : Posted bad t := by
  intro b z there
  rw [slots, get_set_cases] at there
  split at there
  · next own =>
    cases there
    rw [own]
    exact fit
  · exact posts b z there

theorem NamesSound.congr (names : NamesSound s) (named : ∀ b, namedAt t b = namedAt s b) (devices : t.devices = s.devices) : NamesSound t := by
  unfold NamesSound
  simp only [named, devices]
  exact names

theorem Charged.congr (h : Charged limbo bad s) (racks : t.racks = s.racks) (slots : t.slots = s.slots)
    (queues : t.bus.queues = s.bus.queues) : Charged limbo bad t where
  windows := by
    have windows := h.windows
    unfold WindowsSound at windows ⊢
    rw [racks, slots, queues]
    exact windows
  accounts := h.accounts.same (fun b => by unfold phaseAt; rw [slots]) racks
  charges {a x} slot := h.charges (slots ▸ slot)

/-- A slot's record changes, but not its phase. -/
theorem Charged.rewrite (h : Charged limbo bad s) (slot : s.slots[a] = some x) (phase : y.phase = x.phase)
    (suspect : ∀ b, b ≠ a → bad = some b → bad' = some b)
    (charges : y.phase ≠ .none → (y.occupancy = .occupied ∨ bad' = some a) ∧ y.reservation = none) :
    Charged limbo bad' (s.setSlot a (some y)) where
  windows := (Records.slotWritten (.refl s) (by rw [slot]; rfl)).windows h.windows
  accounts := h.accounts.same (fun b => by
    rw [phaseAt_set (s := s) rfl b]
    split
    · next own => rw [own, phaseAt_of slot, phase]
    · rfl) rfl
  charges {b z} there charging := by
    rw [show (s.setSlot a (some y)).slots[b] = if b = a then some y else s.slots[b] from get_set_cases ..] at there
    split at there
    · next own =>
      cases there
      subst own
      exact charges charging
    · next other =>
      obtain ⟨fit, free⟩ := h.charges there charging
      exact ⟨fit.imp_right (suspect b other), free⟩

end

/-! ## One operation's record changed -/

section
variable {s t : State} {o p : IssueOperation}

theorem opChanged_split (issues : IssuesSound s) (mem : o ∈ s.ops) (p : IssueOperation) :
    ∃ l m, s.ops = l ++ o :: m ∧ s.opChanged o p = l ++ p :: m ∧ s.ops.filter (fun q => q.group ≠ o.group) = l ++ m := by
  obtain ⟨l, m, split⟩ := List.append_of_mem mem
  have nodup := issues.2.1
  rw [split, List.map_append, List.map_cons] at nodup
  obtain ⟨-, later, apart⟩ := List.nodup_append.mp nodup
  have front (q : IssueOperation) (there : q ∈ l) : q.group ≠ o.group :=
    apart q.group (List.mem_map_of_mem there) o.group List.mem_cons_self
  have back (q : IssueOperation) (there : q ∈ m) : q.group ≠ o.group := fun same =>
    (List.nodup_cons.mp later).1 (same ▸ List.mem_map_of_mem there)
  refine ⟨l, m, split, ?_, ?_⟩
  · unfold State.opChanged
    rw [split, List.map_append, List.map_cons, if_pos rfl]
    congr 1
    · exact (List.map_congr_left fun q there => if_neg (front q there)).trans (List.map_id' l)
    · exact congrArg _ ((List.map_congr_left fun q there => if_neg (back q there)).trans (List.map_id' m))
  · rw [split, List.filter_append, List.filter_cons_of_neg (by simp), List.filter_eq_self.mpr fun q there => decide_eq_true (front q there),
      List.filter_eq_self.mpr fun q there => decide_eq_true (back q there)]

/-- The operations after the change: the changed one, and those of other groups. -/
theorem mem_opChanged_iff (mem : o ∈ s.ops) {q : IssueOperation} :
    q ∈ s.opChanged o p ↔ q = p ∨ (q ∈ s.ops ∧ q.group ≠ o.group) := by
  unfold State.opChanged
  rw [List.mem_map]
  constructor
  · rintro ⟨q', there, rfl⟩
    split
    · exact .inl rfl
    · next other => exact .inr ⟨there, other⟩
  · rintro (rfl | ⟨there, other⟩)
    · exact ⟨o, mem, if_pos rfl⟩
    · exact ⟨q, there, if_neg other⟩

theorem op_unique (issues : IssuesSound s) (mem : o ∈ s.ops) (there : p ∈ s.ops) (same : p.group = o.group) : p = o :=
  List.inj_on_of_nodup_map issues.2.1 there mem same

/-- What the operations wait for, before and after one of them has changed or gone. -/
theorem tasks_split (issues : IssuesSound s) (mem : o ∈ s.ops) (p : IssueOperation) :
    ∃ rest : List Exchange, (s.ops.filterMap taskOf).Perm ((taskOf o).toList ++ rest) ∧
      ((s.opChanged o p).filterMap taskOf).Perm ((taskOf p).toList ++ rest) ∧
      (s.ops.filter (fun q => q.group ≠ o.group)).filterMap taskOf = rest := by
  obtain ⟨l, m, split, changed, gone⟩ := opChanged_split issues mem p
  have first (q : IssueOperation) : ((l ++ q :: m).filterMap taskOf).Perm ((taskOf q).toList ++ (l ++ m).filterMap taskOf) := by
    rw [List.filterMap_append, List.filterMap_append]
    cases task : taskOf q with
    | none => rw [List.filterMap_cons_none task]; exact .refl _
    | some e =>
      rw [List.filterMap_cons_some task]
      exact List.perm_middle
  exact ⟨(l ++ m).filterMap taskOf, split ▸ first o, changed ▸ first p, by rw [gone]⟩

/-- The roster's law does not see the candidate, nor what has been tried. -/
theorem RosterKept.change {idle idle' : Option GroupId} (roster : RosterKept idle s) (issues : IssuesSound s) (mem : o ∈ s.ops)
    (same : p.group = o.group ∧ p.kind = o.kind ∧ p.count = o.count ∧ p.roster = o.roster ∧ p.issued = o.issued)
    (unissued : ∀ q ∈ s.ops, q.kind = .mic → idle' ≠ some q.group → q.issued = 0) (devices : t.devices = s.devices)
    (ops : t.ops = s.opChanged o p) (entries : t.roster = s.roster) : RosterKept idle' t := by
  obtain ⟨group, kind, count, entry, issued⟩ := same
  refine ⟨fun k id => ?_, fun d there => ?_, fun k n held => ?_, fun q there receiver => ?_, fun q there mic => ?_⟩
  · rw [entries, devices]
    exact roster.bound k id
  · exact roster.out d (devices ▸ there)
  · obtain ⟨q, there, handle, names, none⟩ := roster.held k n (entries ▸ held)
    rw [ops]
    by_cases own : q.group = o.group
    · obtain rfl := op_unique issues mem there own
      exact ⟨p, (mem_opChanged_iff mem).mpr (.inl rfl), by rw [group]; exact handle, entry.trans names, issued.trans none⟩
    · exact ⟨q, (mem_opChanged_iff mem).mpr (.inr ⟨there, own⟩), handle, names, none⟩
  · rw [ops] at there
    rcases (mem_opChanged_iff mem).mp there with rfl | ⟨there, -⟩
    · rw [entry]
      exact roster.receiver o mem (kind ▸ receiver)
    · exact roster.receiver q there receiver
  · rw [ops] at there
    rw [entries]
    rcases (mem_opChanged_iff mem).mp there with rfl | ⟨there, -⟩
    · rw [count, issued, entry, group]
      obtain ⟨one, -, held⟩ := roster.mic o mem (kind ▸ mic)
      exact ⟨one, unissued o mem (kind ▸ mic), held⟩
    · obtain ⟨one, -, held⟩ := roster.mic q there mic
      exact ⟨one, unissued q there mic, held⟩

end

/-! ## A candidate fails (R157) -/

theorem tunes_cons {e : Exchange} (cls : classOf e = 2) (l : List Exchange) :
    (e :: l).filter (fun e => classOf e = 2) = e :: l.filter fun e => classOf e = 2 := List.filter_cons_of_pos (decide_eq_true cls)

/-- The exchange that an operation waits for is a TUNE or a RELEASE of its candidate's slot. -/
theorem taskOf_class {o : IssueOperation} {e : Exchange} (task : taskOf o = some e) :
    ∃ c, o.candidate = some c ∧ c.waitsFor e ∧ e.slot? = some c.slot ∧ classOf e = 2 := by
  unfold taskOf at task
  obtain ⟨c, candidate, rfl⟩ := Option.map_eq_some_iff.mp task
  refine ⟨c, candidate, ?_⟩
  cases stage : c.stage with
  | tune => exact ⟨.inl ⟨_, _, _, stage, rfl⟩, rfl, rfl⟩
  | release => exact ⟨.inr ⟨stage, rfl⟩, rfl, rfl⟩

section
variable {flying : List Exchange} {bad : Option SlotAddr} {idle : Option GroupId} {s : State} {o : IssueOperation} {c : Candidate} {x : Slot}
  {e : Exchange}

/-- What the laws say of an operation with a candidate: its slot is reserved, in no charge phase, and no other operation's. -/
theorem Held.candidacy (h : Held flying bad idle s) (mem : o ∈ s.ops) (candidate : o.candidate = some c) :
    ∃ x, Candidacy o c x s ∧ x.reservation = some (o.group.val + 1) ∧ x.phase = .none ∧ (x.occupancy = .occupied ∨ bad = some c.slot) := by
  have standing (p : IssueOperation) (there : p ∈ s.ops) (k : Candidate) (its : p.candidate = some k) : k.stands p s := by
    rcases h.fleet.candidates.each p there with ⟨-, none⟩ | ⟨j, same, stands⟩
    · rw [none] at its
      cases its
    · rw [same] at its
      cases its
      exact stands
  obtain ⟨reserved, -⟩ := standing o mem c candidate
  cases slot : s.slots[c.slot] with
  | none =>
    unfold reservedAt at reserved
    rw [slot] at reserved
    cases reserved
  | some x =>
    rw [reservedAt_of slot] at reserved
    refine ⟨x, ⟨h.issues, mem, candidate, slot, fun p there other same => ?_⟩, reserved, ?_, ?_⟩
    · obtain ⟨k, its, at_slot⟩ := Option.map_eq_some_iff.mp same
      obtain ⟨also, -⟩ := standing p there k its
      rw [at_slot, reservedAt_of slot, reserved, Option.some_inj] at also
      exact other (Fin.ext (by omega))
    · by_contra charging
      have free := (h.charged.charges slot charging).2
      rw [reserved] at free
      cases free
    · exact (h.fleet.posts c.slot x slot).1 (by rw [reserved]; nofun)

/-- A failed candidate's exchange is settled, and its operation is idle. -/
theorem Held.failed (h : Held (e :: flying) bad none s) (mem : o ∈ s.ops) (candidate : o.candidate = some c)
    (slot : s.slots[c.slot] = some x) (task : taskOf o = some e) : Held flying bad (some o.group) (s.failed o c.slot x) := by
  obtain ⟨z, own, reserved, idle, fit⟩ := h.candidacy mem candidate
  obtain rfl : z = x := Option.some.inj (own.slot.symm.trans slot)
  let y : Slot := { z with reservation := none }
  have slots : (s.failed o c.slot z).slots = s.slots.set c.slot (some y) := rfl
  have named := namedAt_kept slots slot rfl
  have occupancy := occupancyAt_kept slots slot rfl
  have others (b : SlotAddr) (other : b ≠ c.slot) : reservedAt (s.failed o c.slot z) b = reservedAt s b := by
    rw [reservedAt_set slots, if_neg other]
  obtain ⟨rest, before, after, -⟩ := tasks_split h.issues mem (o.lost c.slot)
  obtain ⟨-, -, -, -, cls⟩ := taskOf_class task
  have backed {f : Exchange} (backed : Backed bad f s) : Backed bad f (s.failed o c.slot z) :=
    backed.imp_left fun supported => supported.congr (fun _ => rfl) occupancy
  exact {
    charged := (h.charged.rewrite (y := y) slot rfl (fun _ _ suspect => suspect) fun charging => absurd idle charging).congr rfl rfl rfl
    table := h.table.congr rfl
    issues := h.issues.congr (opChanged_groups s rfl) fun _ => ⟨rfl, rfl⟩
    fleet := {
      posts := by
        obtain ⟨-, occupied, unnamed⟩ := h.fleet.posts c.slot z slot
        exact h.fleet.posts.write slots ⟨fun reserved => absurd rfl reserved, occupied, unnamed⟩
      names := h.fleet.names.congr named rfl
      outs := h.fleet.outs
      roster := h.fleet.roster.change h.issues mem (p := o.lost c.slot) ⟨rfl, rfl, rfl, rfl, rfl⟩
        (fun q there mic _ => (h.fleet.roster.mic q there mic).2.1 nofun) rfl rfl rfl
      candidates := {
        each := fun q there => by
          rcases (mem_opChanged_iff mem).mp there with rfl | ⟨there, other⟩
          · exact .inl ⟨rfl, rfl⟩
          · obtain ⟨k, its, at_slot, d, known, name, docked, kind⟩ := (h.fleet.candidates.each q there).resolve_left fun both => by cases both.1
            refine .inr ⟨k, its, ?_, d, known, (named _).trans name, docked, kind⟩
            rw [others k.slot fun same => own.alone q there other (by rw [its, Option.map_some, same])]
            exact at_slot
        reserved := fun b n there => by
          by_cases same : b = c.slot
          · rw [same, reservedAt_set slots, if_pos rfl] at there
            cases there
          · obtain ⟨q, known, handle, at_slot⟩ := h.fleet.candidates.reserved b n ((others b same).symm.trans there)
            refine ⟨q, (mem_opChanged_iff mem).mpr (.inr ⟨known, fun group => ?_⟩), handle, at_slot⟩
            obtain rfl := op_unique h.issues mem known group
            rw [candidate, Option.map_some, Option.some_inj] at at_slot
            exact same at_slot.symm } }
    running := {
      live := fun f there => backed (h.running.live f (List.mem_cons_of_mem e there))
      queued := fun q f there => backed (h.running.queued q f there)
      probes := (List.nodup_cons.mp h.running.probes).2
      tasks := by
        have tasks := h.running.tasks
        rw [tunes_cons cls, List.cons_append] at tasks
        have settled := tasks.trans before
        rw [task] at settled
        exact ((List.perm_cons e).mp settled).trans after.symm } }

/-! ## An operation completes (R158) -/

theorem Moored.reported {s t : State} (h : Moored s t) {k : EventId} {n : Nat} {d : BitVec 32} : Moored s (Machine.reported k n d t) := by
  rw [reported_eq]
  exact h.aside rfl

/-- The idle operation completes. -/
theorem Held.completed (h : Held flying bad (some o.group) s) (mem : o ∈ s.ops) (without : o.candidate = none) :
    Held flying bad none (completed o s) := by
  let last : LastIssue := { issued := o.issued, count := o.count, retuned := o.retuned, cancelled := o.cancel }
  let n : Group := { s.groups[o.group] with issueHandle := none, lastIssue := some last }
  let entries : Vector RosterEntry 12 := match (if o.kind = .mic ∧ o.issued = 0 then o.roster else none) with
    | some k => s.roster.set k .free
    | none => s.roster
  let u : State := { s with roster := entries, groups := s.groups.set o.group n, ops := s.ops.filter fun p => p.group ≠ o.group }
  have entry (k : RosterId) : u.roster[k] = if o.kind = .mic ∧ o.issued = 0 ∧ o.roster = some k then .free else s.roster[k] := by
    unfold u entries
    dsimp only
    by_cases freed : o.kind = .mic ∧ o.issued = 0
    · rw [if_pos freed]
      cases named : o.roster with
      | none => simp
      | some j =>
        simp only [get_set_cases, freed, true_and, Option.some_inj, eq_comm]
    · rw [if_neg freed, if_neg fun all => freed ⟨all.1, all.2.1⟩]
  have own (k : RosterId) (freed : o.kind = .mic ∧ o.issued = 0 ∧ o.roster = some k) : s.roster[k] = .held (o.group.val + 1) := by
    obtain ⟨mic, unissued, names⟩ := freed
    obtain ⟨j, same, held⟩ := (h.fleet.roster.mic o mem mic).2.2 unissued
    rw [names] at same
    cases same
    exact held
  have kept (q : IssueOperation) : q ∈ u.ops ↔ q ∈ s.ops ∧ q.group ≠ o.group := by
    unfold u
    rw [List.mem_filter, decide_eq_true_eq]
  have desk (g : GroupId) : (u.groups[g]).state = (s.groups[g]).state ∧ (u.groups[g]).outCount = (s.groups[g]).outCount := by
    rw [show u.groups[g] = if g = o.group then n else s.groups[g] from get_set_cases ..]
    split
    · next own => rw [own]; exact ⟨rfl, rfl⟩
    · exact ⟨rfl, rfl⟩
  have done : Held flying bad none u := {
    charged := h.charged.congr rfl rfl rfl
    table := h.table.congr rfl
    issues := by
      have sound := ((Minor.refl s).completeOp (g := o.group)).issues h.issues
      rw [completeOp_eq (op?_of_mem h.issues mem)] at sound
      unfold Machine.completed at sound
      rw [reported_eq] at sound
      exact sound.congr rfl fun _ => ⟨rfl, rfl⟩
    fleet := {
      posts := h.fleet.posts
      names := h.fleet.names.congr (fun _ => rfl) rfl
      outs := ⟨h.fleet.outs.1, fun g => by rw [(desk g).1, (desk g).2]; exact h.fleet.outs.2 g⟩
      roster := {
        bound := fun k id => by
          rw [entry, ← h.fleet.roster.bound k id]
          split
          · next freed =>
            rw [own k freed]
            exact iff_of_false nofun nofun
          · exact Iff.rfl
        out := h.fleet.roster.out
        held := fun k m there => by
          rw [entry] at there
          split at there
          · cases there
          · next unfreed =>
            obtain ⟨q, known, handle, names, unissued⟩ := h.fleet.roster.held k m there
            refine ⟨q, (kept q).mpr ⟨known, fun same => unfreed ?_⟩, handle, names, unissued⟩
            obtain rfl := op_unique h.issues mem known same
            refine ⟨?_, unissued, names⟩
            cases kind : q.kind with
            | mic => rfl
            | receiver => rw [h.fleet.roster.receiver q mem kind] at names; cases names
        receiver := fun q there => h.fleet.roster.receiver q ((kept q).mp there).1
        mic := fun q there mic => by
          obtain ⟨there, other⟩ := (kept q).mp there
          obtain ⟨count, unissued, held⟩ := h.fleet.roster.mic q there mic
          have unissued := unissued fun same => other (Option.some.inj same).symm
          obtain ⟨k, names, held⟩ := held unissued
          refine ⟨count, fun _ => unissued, fun _ => ⟨k, names, ?_⟩⟩
          rw [entry, if_neg fun freed => ?_]
          · exact held
          · have both := (own k freed).symm.trans held
            injection both with both
            exact other (Fin.ext (by omega)) }
      candidates := {
        each := fun q there => by
          obtain ⟨there, other⟩ := (kept q).mp there
          rcases h.fleet.candidates.each q there with ⟨same, -⟩ | standing
          · exact absurd (Option.some.inj same).symm other
          · exact .inr standing
        reserved := fun a k there => by
          obtain ⟨q, known, handle, at_slot⟩ := h.fleet.candidates.reserved a k there
          refine ⟨q, (kept q).mpr ⟨known, fun same => ?_⟩, handle, at_slot⟩
          rw [op_unique h.issues mem known same, without] at at_slot
          cases at_slot } }
    running := {
      live := h.running.live
      queued := h.running.queued
      probes := h.running.probes
      tasks := by
        obtain ⟨rest, before, -, gone⟩ := tasks_split h.issues mem o
        have tasks := h.running.tasks.trans before
        rw [taskOf, without] at tasks
        rw [show u.ops.filterMap taskOf = rest from gone]
        exact tasks } }
  exact done.moored (Moored.refl u).reported

end

end Sys2Proof.Machine
end

section
/-! PROOF. A reservation keeps the laws, and an operation that goes on leaves the slots it has tried alone (R140, R153, R156, R157). -/

namespace Sys2Proof.Machine

section
variable {flying : List Exchange} {bad : Option SlotAddr} {idle : Option GroupId} {s : State} {o : IssueOperation} {c : ChannelId}
  {a : SlotAddr} {x : Slot} {r : RackId} {w : RackWindow} {e : Exchange}

/-! ## The reservation (R140, R153) -/

/-- No TUNE or RELEASE is queued or in hand for a slot that is no candidate's. -/
theorem Held.untuned (h : Held flying bad idle s) (free : reservedAt s a = none) {f : Exchange}
    (mem : f ∈ flying.filter (fun e => classOf e = 2) ++ s.bus.queues[(1 : Fin 6)]) : f.slot? ≠ some a := by
  intro named
  obtain ⟨p, there, task⟩ := List.mem_filterMap.mp (h.running.tasks.mem_iff.mp mem)
  obtain ⟨k, candidate, -, slot, -⟩ := taskOf_class task
  obtain ⟨y, candidacy, reserved, -⟩ := h.candidacy there candidate
  rw [slot, Option.some_inj] at named
  rw [← named, reservedAt_of candidacy.slot, reserved] at free
  cases free

/-- The operation with a new candidate. -/
def IssueOperation.choosing (o : IssueOperation) (a : SlotAddr) (c : ChannelId) : IssueOperation :=
  { o with candidate := some { slot := a, stage := .tune, tunedChannel := c } }

/-- The chosen slot is reserved, and its TUNE is in hand. -/
theorem Held.reserving (h : Held flying bad (some o.group) s) (mem : o ∈ s.ops) (without : o.candidate = none)
    (unissued : o.kind = .mic → o.issued = 0) (chosen : Choosable o s a) (stands : Stands s r w a x)
    (c : ChannelId) : Held (.tune a c o.group o.roster :: flying) bad none
      { s.reserving r w a x (handleOf o.group) with ops := s.opChanged o (o.choosing a c) } := by
  obtain ⟨y, slot, d, known, occupied, free, docked, kind, -⟩ := chosen
  obtain rfl : x = y := Option.some.inj (stands.slot.symm.trans slot)
  obtain ⟨id, name, found⟩ := Option.bind_eq_some_iff.mp known
  obtain ⟨there, same⟩ := (device?_eq_some h.table).mp found
  let z := x.reserved (handleOf o.group)
  let v : State := { (s.setRack r (some (w.left a x.phase))).setSlot a (some z) with ops := s.opChanged o (o.choosing a c) }
  have slots : v.slots = s.slots.set a (some z) := rfl
  have racks (q : RackId) : (v.racks[q]).isSome = (s.racks[q]).isSome := by
    rw [show v.racks[q] = if q = r then some (w.left a x.phase) else s.racks[q] from get_set_cases ..]
    split
    · next own => rw [own, stands.rack]; rfl
    · rfl
  have named := namedAt_kept slots stands.slot rfl
  have occupancy := occupancyAt_kept slots stands.slot rfl
  have others (b : SlotAddr) (other : b ≠ a) : reservedAt v b = reservedAt s b := by rw [reservedAt_set slots, if_neg other]
  obtain ⟨rest, before, after, -⟩ := tasks_split h.issues mem (o.choosing a c)
  have backed {f : Exchange} (backed : Backed bad f s) : Backed bad f v :=
    backed.imp_left fun supported => supported.congr racks occupancy
  have account := (h.charged.accounts r w stands.rack).left stands.holds (phaseAt_of stands.slot) (p := .none) rfl nofun
  have held : Held (.tune a c o.group o.roster :: flying) bad none v := {
    charged := (h.charged.write (y := z) stands (Charged.left_place w a x.phase) account (fun _ _ => Iff.rfl) fun charging =>
      absurd rfl charging).congr rfl rfl rfl
    table := h.table.congr rfl
    issues := h.issues.congr (opChanged_groups s rfl) fun _ => ⟨rfl, rfl⟩
    fleet := {
      posts := by
        obtain ⟨-, names, unnamed⟩ := h.fleet.posts a x stands.slot
        exact h.fleet.posts.write slots ⟨fun _ => .inl occupied, names, unnamed⟩
      names := h.fleet.names.congr named rfl
      outs := h.fleet.outs
      roster := h.fleet.roster.change h.issues mem (p := o.choosing a c) ⟨rfl, rfl, rfl, rfl, rfl⟩ (fun q there mic _ => by
        by_cases own : q.group = o.group
        · obtain rfl := op_unique h.issues mem there own
          exact unissued mic
        · exact (h.fleet.roster.mic q there mic).2.1 fun same => own (Option.some.inj same).symm) rfl rfl rfl
      candidates := {
        each := fun q there' => by
          rcases (mem_opChanged_iff mem).mp there' with rfl | ⟨there', other⟩
          · refine .inr ⟨_, rfl, ?_, d, there, ?_, docked, kind⟩
            · rw [reservedAt_set slots]
              exact if_pos rfl
            · rw [named, namedAt_of stands.slot, name, same]
          · obtain ⟨k, its, at_slot, standing⟩ := (h.fleet.candidates.each q there').resolve_left fun both =>
              other (Option.some.inj both.1).symm
            refine .inr ⟨k, its, ?_, ?_⟩
            · rw [others k.slot fun same => ?_]
              · exact at_slot
              · rw [same, reservedAt_of stands.slot, free] at at_slot
                cases at_slot
            · obtain ⟨d, known, name, rest⟩ := standing
              exact ⟨d, known, (named _).trans name, rest⟩
        reserved := fun b n at_slot => by
          by_cases own : b = a
          · subst own
            rw [reservedAt_set slots, if_pos rfl] at at_slot
            exact ⟨o.choosing b c, (mem_opChanged_iff mem).mpr (.inl rfl), (Option.some.inj at_slot).symm, rfl⟩
          · obtain ⟨q, known, handle, standing⟩ := h.fleet.candidates.reserved b n ((others b own).symm.trans at_slot)
            refine ⟨q, (mem_opChanged_iff mem).mpr (.inr ⟨known, fun group => ?_⟩), handle, standing⟩
            rw [op_unique h.issues mem known group, without] at standing
            cases standing } }
    running := {
      live := fun f there => by
        rcases List.mem_cons.mp there with rfl | there
        · refine .inl fun b at_slot => ?_
          cases at_slot
          rw [occupancy, stands.slot]
          exact congrArg some occupied
        · exact backed (h.running.live f there)
      queued := fun q f there => backed (h.running.queued q f there)
      probes := by
        refine List.nodup_cons.mpr ⟨fun there => ?_, h.running.probes⟩
        rcases List.mem_append.mp there with there | there
        · have tune : Exchange.tune a c o.group o.roster ∈ flying.filter fun e => classOf e = 2 := List.mem_filter.mpr ⟨there, rfl⟩
          exact h.untuned ((reservedAt_of stands.slot).trans free) (List.mem_append_left _ tune) rfl
        · have cls := (h.charged.windows.2.2.2 2).2 _ there
          cases cls
      tasks := by
        have tasks := h.running.tasks.trans before
        rw [taskOf, without] at tasks
        rw [tunes_cons rfl, List.cons_append]
        exact ((List.perm_cons _).mpr tasks).trans after.symm } }
  refine held.charging (.dropChargeExchanges (.refl v)) ?_
  exact held.charged.follow (.dropChargeExchanges (.refl v)) (fun _ => rfl) rfl

/-- The TUNE or RELEASE in hand joins its queue, which has room. -/
theorem Held.queueTask (h : Held (e :: flying) bad idle s) (cls : classOf e = 2) : Held flying bad idle (asked 1 [e] s) := by
  have queue : e.queue = 1 := by
    have both := queue_eq_classOf e
    exact Fin.ext (by rw [cls] at both; exact (Nat.succ.inj both).symm)
  have tasks := h.running.tasks
  rw [tunes_cons cls] at tasks
  have room : (s.bus.queues[(1 : Fin 6)]).length < 64 := by
    have size := tasks.length_eq
    have few := (List.length_filterMap_le taskOf s.ops).trans h.issues.1
    rw [List.cons_append, List.length_cons, List.length_append] at size
    omega
  have longer : asked 1 [e] s = { s with bus := { s.bus with queues := s.bus.queues.set (1 : Fin 6) (s.bus.queues[(1 : Fin 6)] ++ [e]) } } := by
    unfold asked
    dsimp only
    rw [List.take_of_length_le (by rw [List.length_singleton]; omega)]
  have cases (q : Fin 6) : (s.bus.queues.set (1 : Fin 6) (s.bus.queues[(1 : Fin 6)] ++ [e]))[q] =
      if q = 1 then s.bus.queues[(1 : Fin 6)] ++ [e] else s.bus.queues[q] := get_set_cases ..
  rw [longer]
  refine h.requeue (fun q => ?_) (fun f there => h.running.live f (List.mem_cons_of_mem e there)) (fun q f there => ?_) ?_ ?_
  · rw [cases]
    split
    · next own =>
      refine ⟨by rw [List.length_append]; exact room, fun f there => ?_⟩
      rw [own]
      rcases List.mem_append.mp there with there | there
      · exact (h.charged.windows.2.2.2 1).2 f there
      · rw [List.mem_singleton.mp there]
        exact queue
    · exact h.charged.windows.2.2.2 q
  · rw [cases] at there
    split at there
    · rcases List.mem_append.mp there with there | there
      · exact h.running.queued 1 f there
      · exact h.running.live f (List.mem_cons.mpr (.inl (List.mem_singleton.mp there)))
    · exact h.running.queued q f there
  · rw [cases, if_neg (by decide)]
    exact (List.nodup_cons.mp h.running.probes).2
  · rw [cases, if_pos rfl]
    refine List.Perm.trans ?_ tasks
    rw [← List.append_assoc]
    exact List.perm_append_singleton ..

theorem Held.reserveSlot (h : Held flying bad (some o.group) s) (mem : o ∈ s.ops) (without : o.candidate = none)
    (unissued : o.kind = .mic → o.issued = 0) (chosen : Choosable o s a) :
    Held flying bad none (Machine.reserveSlot o.group o a s) := by
  have choosable := chosen
  obtain ⟨x, slot, -, -, occupied, -⟩ := chosen
  obtain ⟨r, w, stands⟩ := h.charged.windows.stands_slot slot
  rw [reserveSlot_eq stands occupied h.issues mem rfl]
  exact ((h.reserving mem without unissued choosable stands _).attempt r).queueTask rfl

theorem bestSlot_choosable (best : bestSlot o s = some a) : Choosable o s a := by
  rcases foldl_better_mem best with none | mem
  · cases none
  · exact (eligible_iff a).mp (List.mem_filter.mp mem).2

/-- The idle operation goes on: it completes, or its next candidate's slot is reserved. -/
theorem Held.nextOrComplete (h : Held flying bad (some o.group) s) (mem : o ∈ s.ops) (without : o.candidate = none)
    (unissued : o.kind = .mic → o.issued = 0) :
    Held flying bad none (Machine.nextOrComplete o.group s) := by
  have found := op?_of_mem h.issues mem
  cases cancelled : o.cancel with
  | true =>
    rw [nextOrComplete_cancelled found cancelled]
    exact h.completed mem without
  | false =>
    rw [nextOrComplete_running found cancelled]
    cases best : bestSlot o s with
    | none => exact h.completed mem without
    | some a => exact h.reserveSlot mem without unissued (bestSlot_choosable best)

/-! ## The candidate's exchange comes to an end without success (R157) -/

/-- The exchange that a candidate waits for, in hand, fails it. -/
theorem Held.candidateFails (h : Held (e :: flying) bad none s) (mem : o ∈ s.ops) (task : taskOf o = some e)
    (emptying : Bool) : Held flying bad none (deliverDiscarded emptying e s) := by
  obtain ⟨k, candidate, waits, -, -⟩ := taskOf_class task
  obtain ⟨x, candidacy, reserved, idle, -⟩ := h.candidacy mem candidate
  have failed := h.failed mem candidate candidacy.slot task
  have there : o.lost k.slot ∈ (s.failed o k.slot x).ops := mem_opChanged mem
  have unissued (mic : o.kind = .mic) : o.issued = 0 := (h.fleet.roster.mic o mem mic).2.1 nofun
  rw [candidacy.delivered waits]
  split
  · next both =>
    have slot : (s.failed o k.slot x).slots[k.slot] = some { x with reservation := none } := get_set_same ..
    have back := failed.handBack slot idle ⟨.inl both.2, rfl⟩
    have work : Charging (s.failed o k.slot x) (Machine.handBack k.slot (s.failed o k.slot x)) := .handBack (.refl _)
    exact back.nextOrComplete (o := o.lost k.slot) (by rw [work.ops_eq]; exact there) rfl unissued
  · exact failed.nextOrComplete (o := o.lost k.slot) there rfl unissued

end

end Sys2Proof.Machine
end

section
/-! PROOF. The exchanges that name a slot: the work on other slots adds none (R116, R134, R140). -/

namespace Sys2Proof.Machine

/-! ## No more exchanges of a slot -/

/-- No exchange that names slot a stands in its queue more often than n says. -/
def Fewer (a : SlotAddr) (n : Fin 6 → Exchange → Nat) (s : State) : Prop :=
  ∀ (q : Fin 6) (f : Exchange), f.slot? = some a → (s.bus.queues[q]).count f ≤ n q f

namespace Fewer

section
variable {a b : SlotAddr} {n : Fin 6 → Exchange → Nat} {s t : State} {x : Option Slot}

theorem congr (h : Fewer a n s) (queues : t.bus.queues = s.bus.queues) : Fewer a n t := by
  unfold Fewer
  rwa [queues]

theorem request (h : Fewer a n s) {e : Exchange} (other : e.slot? ≠ some a) : Fewer a n (Machine.request e s).2 := by
  rcases request_cases e s with ⟨-, eq⟩ | ⟨-, -, eq⟩ | ⟨-, -, -, eq⟩ | ⟨-, -, -, eq⟩ <;> rw [eq]
  · exact h
  · exact h
  · exact h
  · intro q f named
    have apart : e ≠ f := fun same => other (same ▸ named)
    rw [show (s.setQueue e.queue (s.bus.queues[e.queue] ++ [e])).bus.queues[q] =
      if q = e.queue then s.bus.queues[e.queue] ++ [e] else s.bus.queues[q] from get_set_cases ..]
    split
    · next own =>
      rw [List.count_append, List.count_singleton, if_neg (by simpa using apart), own]
      exact h e.queue f named
    · exact h q f named

theorem requestSetCharge (h : Fewer a n s) (other : b ≠ a) (m : ChargeMode) : Fewer a n (Machine.requestSetCharge b m s) := by
  have asked := h.request (e := .setCharge b m) fun same => other (Option.some.inj same)
  unfold Machine.requestSetCharge
  split
  · next eq =>
    rw [eq] at asked
    exact asked.congr rfl
  · next eq =>
    rw [eq] at asked
    exact asked

theorem dropChargeExchanges (h : Fewer a n s) (b : SlotAddr) : Fewer a n (Machine.dropChargeExchanges b s) := by
  intro j f named
  have few := h j f named
  have queue : (Machine.dropChargeExchanges b s).bus.queues[j] = if j = 5 then (s.bus.queues[(5 : Fin 6)]).filter (fun e => e.slot? ≠ some b)
      else if j = 3 then (s.bus.queues[(3 : Fin 6)]).filter (fun e => e.slot? ≠ some b) else s.bus.queues[j] :=
    (get_set_cases ..).trans (if_congr Iff.rfl rfl (get_set_cases ..))
  rw [queue]
  split
  · next own =>
    subst own
    exact (List.filter_sublist.count_le f).trans few
  · split
    · next own =>
      subst own
      exact (List.filter_sublist.count_le f).trans few
    · exact few

theorem attempt (spared : Spared a x s) (h : Fewer a n s) (r : RackId) : Fewer a n (Machine.attempt r s) := by
  refine (attempt_keeps (fun t => Spared a x t ∧ Fewer a n t) r (fun t w b rest kept rack waiting _ => ?_) ⟨spared, h⟩).2
  have other : b ≠ a := fun same => kept.1.2 r w rack (by rw [waiting, same]; exact List.mem_cons_self)
  refine ⟨kept.1.admitHead other r, ?_⟩
  unfold admitHead
  refine requestSetCharge ?_ other _
  exact kept.2.congr rfl

theorem attemptFor (spared : Spared a x s) (h : Fewer a n s) : Fewer a n (Machine.attemptFor b s) := by
  unfold Machine.attemptFor
  split
  · exact h.attempt spared _
  · exact h

theorem leaveCharging_bus (b : SlotAddr) (s : State) : (leaveCharging b s).bus = s.bus := by
  have rack (f : RackWindow → RackWindow) : (modRackOf b f s).bus = s.bus := by
    unfold modRackOf
    split <;> rfl
  unfold leaveCharging
  dsimp only
  split
  · exact rack _
  · exact rack _
  · exact rack _
  · rfl

theorem reserveSlot (spared : Spared a x s) (h : Fewer a n s) (other : b ≠ a) (o : IssueOperation) :
    Fewer a n (Machine.reserveSlot o.group o b s) := by
  unfold Machine.reserveSlot
  have marked := spared.modSlot other fun x => { x with reservation := some (handleOf o.group) }
  have few : Fewer a n (s.modSlot b fun x => { x with reservation := some (handleOf o.group) }) := h.congr rfl
  generalize s.modSlot b (fun x => { x with reservation := some (handleOf o.group) }) = m at marked few
  have left : Spared a x (Machine.dropChargeExchanges b (leaveCharging b m)) := (marked.leaveCharging other).congr rfl rfl
  have dropped : Fewer a n (Machine.dropChargeExchanges b (leaveCharging b m)) :=
    (few.congr (by rw [leaveCharging_bus]) : Fewer a n (leaveCharging b m)).dropChargeExchanges b
  have ended : Fewer a n (endByReservation b m) := dropped.attemptFor left
  dsimp only
  generalize endByReservation b m = u at ended
  unfold ask
  refine Fewer.request ?_ fun same => other (Option.some.inj same)
  exact ended.congr rfl

theorem nextOrComplete (spared : Spared a x s) (h : Fewer a n s) {o : IssueOperation} (found : s.op? o.group = some o)
    (barred : ¬Choosable o s a) : Fewer a n (Machine.nextOrComplete o.group s) := by
  have completes : Fewer a n (completed o s) := h.congr (by unfold completed; simp only [reported_eq])
  cases cancelled : o.cancel with
  | true =>
    rw [nextOrComplete_cancelled found cancelled]
    exact completes
  | false =>
    rw [nextOrComplete_running found cancelled]
    cases best : bestSlot o s with
    | none => exact completes
    | some b => exact h.reserveSlot spared (fun same => barred (same ▸ bestSlot_choosable best)) o

end

end Fewer

/-! ## The queued exchanges of a candidate's slot -/

section
variable {flying : List Exchange} {bad : Option SlotAddr} {idle : Option GroupId} {s : State} {o : IssueOperation} {c : Candidate} {e : Exchange}

/-- The one TUNE or RELEASE of a candidate's slot is the one its operation waits for. -/
theorem Held.tuned (h : Held flying bad idle s) (mem : o ∈ s.ops) (candidate : o.candidate = some c) (task : taskOf o = some e) :
    (flying.filter (fun e => classOf e = 2) ++ s.bus.queues[(1 : Fin 6)]).filter (fun f => decide (f.slot? = some c.slot)) = [e] := by
  obtain ⟨_, candidacy, -⟩ := h.candidacy mem candidate
  obtain ⟨l, m, split, -, rest⟩ := opChanged_split h.issues mem o
  have others (p : IssueOperation) (there : p ∈ l ++ m) (f : Exchange) (its : taskOf p = some f) : f.slot? ≠ some c.slot := by
    rw [← rest, List.mem_filter, decide_eq_true_eq] at there
    obtain ⟨k, chosen, -, slot, -⟩ := taskOf_class its
    intro named
    exact candidacy.alone p there.1 there.2 (by rw [chosen, Option.map_some, ← named, slot])
  have away (p : List IssueOperation) (sub : ∀ q ∈ p, q ∈ l ++ m) :
      (p.filterMap taskOf).filter (fun f => decide (f.slot? = some c.slot)) = [] := by
    refine List.filter_eq_nil_iff.mpr fun f there named => ?_
    obtain ⟨q, known, its⟩ := List.mem_filterMap.mp there
    exact others q (sub q known) f its (of_decide_eq_true named)
  have named : e.slot? = some c.slot := by
    obtain ⟨k, same, -, slot, -⟩ := taskOf_class task
    rw [candidate] at same
    cases same
    exact slot
  refine List.perm_singleton.mp ((h.running.tasks.filter _).trans ?_)
  have own : (e :: m.filterMap taskOf).filter (fun f => decide (f.slot? = some c.slot)) = [e] := by
    rw [List.filter_cons_of_pos (p := fun f : Exchange => decide (f.slot? = some c.slot)) (decide_eq_true named),
      away m fun q there => List.mem_append_right _ there]
  rw [split, List.filterMap_append, List.filterMap_cons_some task, List.filter_append, own,
    away l fun q there => List.mem_append_left _ there]
  exact .refl _

/-- A queued TUNE or RELEASE is taken in hand. -/
theorem Held.take (h : Held flying bad idle s) (queued : e ∈ s.bus.queues[(1 : Fin 6)]) (fresh : e ∉ flying) :
    Held (e :: flying) bad idle (unqueue e s) := by
  have bounds := h.charged.windows.2.2.2
  have cls : e.queue = 1 := (bounds 1).2 e queued
  have tunes : classOf e = 2 := queue_class cls
  have cases (q : Fin 6) : (s.bus.queues.set (1 : Fin 6) ((s.bus.queues[(1 : Fin 6)]).erase e))[q] =
      if q = 1 then (s.bus.queues[(1 : Fin 6)]).erase e else s.bus.queues[q] := get_set_cases ..
  rw [unqueue_at cls]
  refine h.requeue (fun q => ?_) (fun f there => ?_) (fun q f there => ?_) ?_ ?_
  · rw [cases]
    split
    · next own =>
      subst own
      exact ⟨List.length_erase_le.trans (bounds 1).1, fun f there => (bounds 1).2 f (List.mem_of_mem_erase there)⟩
    · exact bounds q
  · rcases List.mem_cons.mp there with rfl | there
    · exact h.running.queued 1 f queued
    · exact h.running.live f there
  · rw [cases] at there
    split at there
    · exact h.running.queued 1 f (List.mem_of_mem_erase there)
    · exact h.running.queued q f there
  · rw [cases, if_neg (by decide)]
    refine List.nodup_cons.mpr ⟨fun there => ?_, h.running.probes⟩
    rcases List.mem_append.mp there with there | there
    · exact fresh there
    · have other := (bounds 2).2 e there
      rw [cls] at other
      cases other
  · rw [cases, if_pos rfl, tunes_cons tunes, List.cons_append]
    exact (List.perm_middle.symm.trans ((List.perm_cons_erase queued).symm.append_left _)).trans h.running.tasks

/-- Exchanges that are no TUNE or RELEASE are struck from the queues. -/
theorem Held.struck (h : Held flying bad idle s) {l : List Exchange} (light : ∀ f ∈ l, f.queue ≠ 1) : Held flying bad idle (s.struck l) := by
  have bounds := h.charged.windows.2.2.2
  let v : Vector (List Exchange) 6 := Vector.ofFn fun q : Fin 6 => (s.bus.queues[q]).diff (l.filter fun e => e.queue = q)
  have diff (q : Fin 6) : v[q] = (s.bus.queues[q]).diff (l.filter fun e => e.queue = q) := ofFn_get ..
  have sub (q : Fin 6) : (v[q]).Sublist s.bus.queues[q] := by
    rw [diff]
    exact List.diff_sublist ..
  have queues : Held flying bad idle { s with bus := { s.bus with queues := v } } := by
    refine h.requeue (fun q => ⟨(sub q).length_le.trans (bounds q).1, fun e mem => (bounds q).2 e ((sub q).subset mem)⟩) h.running.live
      (fun q e mem => h.running.queued q e ((sub q).subset mem)) (h.running.probes.sublist ((sub 2).append_left _)) ?_
    have none_left : l.filter (fun e => e.queue = (1 : Fin 6)) = [] :=
      List.filter_eq_nil_iff.mpr fun e mem same => light e mem (of_decide_eq_true same)
    rw [diff, none_left, List.diff_nil]
    exact h.running.tasks
  refine queues.moored (Moored.devicesMapped (.refl _) fun d => ?_)
  split <;> rfl

end

end Sys2Proof.Machine
end

section
/-! PROOF. A slot emptied keeps the laws (R121). -/

namespace Sys2Proof.Machine

/-! ## Devices whose records change, but not what they are while OUT -/

/-- What the laws of groups and roster see of a device is as it was. -/
structure OutAlike (d e : Device) : Prop where
  id : e.id = d.id
  state : e.state = .out ↔ d.state = .out
  kind : d.state = .out → e.kind = d.kind
  assignment : e.assignment = d.assignment

section
variable {idle : Option GroupId} {s t : State} {f : Device → Device}

theorem outOf_map (alike : ∀ d ∈ s.devices, OutAlike d (f d)) (devices : t.devices = s.devices.map f) (g : GroupId) : outOf g t = outOf g s := by
  unfold outOf
  rw [devices, List.filter_map, List.length_map]
  refine congrArg List.length (List.filter_congr fun d mem => ?_)
  have same := alike d mem
  simp only [Function.comp_apply, same.state, same.assignment]

theorem OutCountsSound.map (outs : OutCountsSound s) (alike : ∀ d ∈ s.devices, OutAlike d (f d)) (devices : t.devices = s.devices.map f)
    (groups : ∀ g : GroupId, (t.groups[g]).state = (s.groups[g]).state ∧ (t.groups[g]).outCount = (s.groups[g]).outCount) :
    OutCountsSound t := by
  refine ⟨fun e mem => ?_, fun g => ?_⟩
  · rw [devices] at mem
    obtain ⟨d, there, rfl⟩ := List.mem_map.mp mem
    rw [(alike d there).state, (alike d there).assignment]
    exact outs.1 d there
  · rw [(groups g).1, (groups g).2, outOf_map alike devices]
    exact outs.2 g

theorem RosterKept.map (roster : RosterKept idle s) (alike : ∀ d ∈ s.devices, OutAlike d (f d)) (devices : t.devices = s.devices.map f)
    (ops : t.ops = s.ops) (entries : t.roster = s.roster) : RosterKept idle t where
  bound k id := by
    rw [entries, roster.bound k id, devices]
    constructor
    · rintro ⟨d, mem, name, out, mic, entry⟩
      have same := alike d mem
      exact ⟨f d, List.mem_map_of_mem mem, same.id.trans name, same.state.mpr out, (same.kind out).trans mic, by rw [same.assignment]; exact entry⟩
    · rintro ⟨e, mem, name, out, mic, entry⟩
      obtain ⟨d, there, rfl⟩ := List.mem_map.mp mem
      have same := alike d there
      have was := same.state.mp out
      exact ⟨d, there, same.id.symm.trans name, was, (same.kind was).symm.trans mic, by rw [← same.assignment]; exact entry⟩
  out e mem out := by
    rw [devices] at mem
    obtain ⟨d, there, rfl⟩ := List.mem_map.mp mem
    have same := alike d there
    have was := same.state.mp out
    rw [same.kind was, same.assignment]
    exact roster.out d there was
  held k n held := by
    rw [entries] at held
    rw [ops]
    exact roster.held k n held
  receiver o mem := roster.receiver o (ops ▸ mem)
  mic o mem := by
    rw [entries]
    exact roster.mic o (ops ▸ mem)

end

/-! ## The device of an emptied slot (R121) -/

/-- A device whose slot is emptied: in no slot, and UNSEEN unless it is OUT. -/
def Device.ousted (d : Device) : Device := if d.state = .out then { d with slot := none } else d.unseen

theorem Device.ousted_alike (d : Device) : OutAlike d d.ousted := by
  unfold Device.ousted
  split
  · exact ⟨rfl, Iff.rfl, fun _ => rfl, rfl⟩
  · next inside => exact ⟨rfl, iff_of_false nofun inside, fun out => absurd out inside, rfl⟩

theorem Device.ousted_away (d : Device) : d.ousted.id = d.id ∧ d.ousted.slot = none ∧ d.ousted.state ≠ .docked := by
  unfold Device.ousted
  split
  · next out => exact ⟨rfl, rfl, by rw [out]; nofun⟩
  · exact ⟨rfl, rfl, nofun⟩

/-- The device a name means is ousted. -/
def Device.oustedBy (n : Option DeviceId) (d : Device) : Device := if n = some d.id then d.ousted else d

theorem Device.oustedBy_alike (n : Option DeviceId) (d : Device) : OutAlike d (d.oustedBy n) := by
  unfold Device.oustedBy
  split
  · exact d.ousted_alike
  · exact ⟨rfl, Iff.rfl, fun _ => rfl, rfl⟩

/-- The slot's device is ousted, with a record of its removal or without. -/
theorem emptiedDevice_ousts {s : State} (table : DevicesSound s) (names : NamesSound s) {reason : EmptyReason} (gone : reason ≠ .stale)
    (a : SlotAddr) : emptiedDevice reason a s = { s with devices := s.devices.map (Device.oustedBy (namedAt s a)) } ∨
      ∃ k n d, emptiedDevice reason a s = reported k n d { s with devices := s.devices.map (Device.oustedBy (namedAt s a)) } := by
  have known : (s.slots[a].bind Slot.deviceId).bind s.device? = (namedAt s a).bind s.device? := rfl
  unfold emptiedDevice
  rw [known]
  cases name : namedAt s a with
  | none =>
    refine .inl ?_
    rw [show Device.oustedBy none = id from funext fun d => if_neg nofun, List.map_id]
    rfl
  | some id =>
    obtain ⟨d, mem, rfl, seen, -⟩ := names.2 a id name
    rw [Option.bind_some, (device?_eq_some table).mpr ⟨mem, rfl⟩]
    have ousts (f : Device → Device) (same : d.ousted = f d) :
        s.modDevice d.id f = { s with devices := s.devices.map (Device.oustedBy (some d.id)) } := by
      unfold State.modDevice
      refine congrArg (fun l => { s with devices := l }) (List.map_congr_left fun e there => ?_)
      unfold Device.oustedBy
      by_cases own : e.id = d.id
      · rw [eq_of_id_eq table there mem own, if_pos rfl, if_pos rfl, same]
      · rw [if_neg own, if_neg fun both => own (Option.some.inj both).symm]
    dsimp only
    split
    · next out => exact .inl (ousts _ (if_pos out))
    · next docked =>
      refine .inr ⟨EventKind.unissuedRemoval.num, a.val, BitVec.ofNat 32 d.id.toNat, ?_⟩
      rw [raise_eq_reported, ousts Device.unseen (if_neg (by rw [docked]; nofun))]
    · next docked => exact .inl (ousts Device.unseen (if_neg (by rw [docked]; nofun)))
    · exact absurd rfl gone
    · next unseen => exact absurd unseen seen

/-! ## The emptied slot -/

/-- An exchange that does not name a slot is supported whatever becomes of it. -/
theorem Supported.elsewhere {s t : State} {e : Exchange} {a : SlotAddr} (supported : Supported e s) (away : e.slot? ≠ some a)
    (racks : ∀ r : RackId, (t.racks[r]).isSome = (s.racks[r]).isSome)
    (occupancy : ∀ b : SlotAddr, b ≠ a → (t.slots[b]).map Slot.occupancy = (s.slots[b]).map Slot.occupancy) : Supported e t := by
  cases e with
  | scan r =>
    change t.racks[r] ≠ none
    rw [← Option.isSome_iff_ne_none, racks, Option.isSome_iff_ne_none]
    exact supported
  | probe b => exact (occupancy b fun same => away (congrArg some same)).trans supported
  | poll _ | setCharge _ _ | tune _ _ _ _ | release _ | clear _ _ =>
    intro b mem
    exact (occupancy b fun same => away ((Option.mem_def.mp mem).trans (congrArg some same))).trans (supported b mem)

section
variable {flying : List Exchange} {s : State} {a : SlotAddr} {y : Slot}

/-- No exchange of the slot is queued or in hand. -/
def Unasked (flying : List Exchange) (a : SlotAddr) (s : State) : Prop :=
  (∀ e ∈ flying, e.slot? ≠ some a) ∧ ∀ (q : Fin 6), ∀ e ∈ s.bus.queues[q], e.slot? ≠ some a

/-- A slot that is in no phase, unreserved and unasked names nothing any more; a device it named is not DOCKED. -/
theorem Held.unname (h : Held flying none none s) (slot : s.slots[a] = some y) (idle : y.phase = .none) (free : y.reservation = none)
    (unasked : Unasked flying a s) {z : Slot} (blank : z.occupancy ≠ .occupied ∧ z.deviceId = none ∧ z.phase = .none ∧ z.reservation = none)
    {f : Device → Device} (alike : ∀ d ∈ s.devices, OutAlike d (f d))
    (ousted : ∀ d ∈ s.devices, namedAt s a = some d.id → (f d).state ≠ .docked ∧ ((f d).state = .unseen → (f d).slot = none))
    (kept : ∀ d ∈ s.devices, namedAt s a ≠ some d.id → f d = d) :
    Held flying none none { s with slots := s.slots.set a (some z), devices := s.devices.map f } := by
  obtain ⟨empty, unnamed, still, unheld⟩ := blank
  let u : State := { s with slots := s.slots.set a (some z), devices := s.devices.map f }
  have slots : u.slots = s.slots.set a (some z) := rfl
  have named (b : SlotAddr) (other : b ≠ a) : namedAt u b = namedAt s b := by rw [namedAt_set slots, if_neg other]
  have reserved (b : SlotAddr) (other : b ≠ a) : reservedAt u b = reservedAt s b := by rw [reservedAt_set slots, if_neg other]
  have unreserved : reservedAt s a = none := (reservedAt_of slot).trans free
  have stays (d : Device) (mem : d ∈ s.devices) (away : namedAt s a ≠ some d.id) : d ∈ u.devices :=
    List.mem_map.mpr ⟨d, mem, kept d mem away⟩
  have supported {e : Exchange} (away : e.slot? ≠ some a) (backed : Backed none e s) : Backed none e u :=
    .inl ((backed_none.mp backed).elsewhere away (fun _ => rfl) fun b other => by rw [occupancyAt_set slots, if_neg other])
  exact {
    charged := (h.charged.rewrite (y := z) slot (still.trans idle.symm) (fun _ _ suspect => suspect) fun charging => absurd still charging).congr
      rfl rfl rfl
    table := h.table.congr ((List.map_map ..).trans (List.map_congr_left fun d mem => (alike d mem).id))
    issues := h.issues.congr rfl fun _ => ⟨rfl, rfl⟩
    fleet := {
      posts := h.fleet.posts.write slots ⟨fun reserved => absurd unheld reserved, fun occupied => absurd occupied empty, fun _ => unnamed⟩
      names := by
        refine ⟨fun e mem => ?_, fun b id name => ?_⟩
        · obtain ⟨d, there, rfl⟩ := List.mem_map.mp mem
          by_cases own : namedAt s a = some d.id
          · obtain ⟨undocked, nowhere⟩ := ousted d there own
            exact ⟨fun docked => absurd docked undocked, nowhere⟩
          · rw [kept d there own]
            obtain ⟨docked, unseen⟩ := h.fleet.names.1 d there
            refine ⟨fun state => ?_, unseen⟩
            obtain ⟨b, at_b, name⟩ := docked state
            refine ⟨b, at_b, (named b fun same => own ?_).trans name⟩
            rw [← same, name]
        · by_cases own : b = a
          · rw [own, namedAt_set slots, if_pos rfl, unnamed] at name
            cases name
          · rw [named b own] at name
            obtain ⟨d, there, rfl, seen, at_b⟩ := h.fleet.names.2 b id name
            refine ⟨d, stays d there fun also => own ?_, rfl, seen, at_b⟩
            exact namedAt_inj h.table h.fleet.names name also
      outs := h.fleet.outs.map (t := u) alike rfl fun _ => ⟨rfl, rfl⟩
      roster := h.fleet.roster.map (t := u) alike rfl rfl rfl
      candidates := {
        each := fun o mem => by
          rcases h.fleet.candidates.each o mem with ⟨none, -⟩ | ⟨c, candidate, at_slot, d, there, name, docked, kind⟩
          · cases none
          · have other : c.slot ≠ a := fun same => by
              rw [same, unreserved] at at_slot
              cases at_slot
            refine .inr ⟨c, candidate, (reserved _ other).trans at_slot, d, stays d there fun also => other ?_, (named _ other).trans name,
              docked, kind⟩
            exact namedAt_inj h.table h.fleet.names name also
        reserved := fun b n at_slot => by
          by_cases own : b = a
          · rw [own, reservedAt_set slots, if_pos rfl, unheld] at at_slot
            cases at_slot
          · exact h.fleet.candidates.reserved b n ((reserved b own).symm.trans at_slot) } }
    running := {
      live := fun e mem => supported (unasked.1 e mem) (h.running.live e mem)
      queued := fun q e mem => supported (unasked.2 q e mem) (h.running.queued q e mem)
      probes := h.running.probes
      tasks := h.running.tasks } }

/-- Such a slot becomes EMPTY, and its device is in no slot. -/
theorem Held.vacate (h : Held flying none none s) (slot : s.slots[a] = some y) (idle : y.phase = .none) (free : y.reservation = none)
    (unasked : Unasked flying a s) : Held flying none none
      { s with slots := s.slots.set a (some .initial), devices := s.devices.map (Device.oustedBy (namedAt s a)) } := by
  refine h.unname slot idle free unasked ⟨by decide, rfl, rfl, rfl⟩ (fun d _ => d.oustedBy_alike _) (fun d _ own => ?_) fun d _ away => if_neg away
  obtain ⟨-, nowhere, undocked⟩ := d.ousted_away
  rw [Device.oustedBy, if_pos own]
  exact ⟨undocked, fun _ => nowhere⟩

/-- The end of R121 for a slot that nothing goes to any more. -/
theorem Held.emptied (h : Held flying none none s) (slot : s.slots[a] = some y) (idle : y.phase = .none) (free : y.reservation = none)
    (unasked : Unasked flying a s) {reason : EmptyReason} (gone : reason ≠ .stale) :
    Held flying none none ((emptiedDevice reason a s).setSlot a (some .initial)) := by
  have vacated := h.vacate slot idle free unasked
  rcases emptiedDevice_ousts h.table h.fleet.names gone a with plain | ⟨k, n, d, told⟩
  · rw [plain]
    exact vacated
  · have later : (emptiedDevice reason a s).setSlot a (some .initial) = reported k n d
        { s with slots := s.slots.set a (some .initial), devices := s.devices.map (Device.oustedBy (namedAt s a)) } := by
      rw [told]
      simp only [reported_eq]
      rfl
    rw [later]
    exact vacated.moored (Moored.refl _).reported

end

end Sys2Proof.Machine
end

section
/-! PROOF. The queued exchanges of a slot discarded, and its charging ended (R120, R139): the laws are kept, and nothing goes to the slot. -/

namespace Sys2Proof.Machine

/-- No exchange of the slot is queued. -/
def Unqueued (a : SlotAddr) (s : State) : Prop := ∀ (q : Fin 6), ∀ e ∈ s.bus.queues[q], e.slot? ≠ some a

/-- The exchange names the slot. -/
def slotIs (a : SlotAddr) (e : Exchange) : Bool := decide (e.slot? = some a)

section
variable {flying : List Exchange} {bad : Option SlotAddr} {s : State} {a : SlotAddr} {x : Slot} {n : Fin 6 → Exchange → Nat}

theorem unqueued_of_fewer (few : Fewer a (fun _ _ => 0) s) : Unqueued a s := fun q e mem named =>
  absurd (few q e named) (Nat.not_le.mpr (List.count_pos_iff.mpr mem))

theorem Unqueued.fewer (unqueued : Unqueued a s) : Fewer a (fun _ _ => 0) s := fun q f named =>
  Nat.le_zero.mpr (List.count_eq_zero.mpr fun mem => unqueued q f mem named)

theorem without_unqueued (s : State) (a : SlotAddr) : Unqueued a (s.without (slotIs a)) := by
  intro q e mem named
  rw [show (s.without (slotIs a)).bus.queues[q] = (s.bus.queues[q]).filter fun e => !slotIs a e from map_get ..] at mem
  have kept := (List.mem_filter.mp mem).2
  rw [slotIs, named] at kept
  simp at kept

/-! ## The end of charging -/

/-- A slot in no phase is in no admission queue. -/
theorem Charged.spared (h : Charged [] bad s) (slot : s.slots[a] = some x) (idle : x.phase = .none) : Spared a (some x) s := by
  refine ⟨slot, fun r w rack mem => ?_⟩
  have waiting := (((h.accounts r w rack).waits a).mp mem).2.1
  rw [phaseAt_of slot, idle] at waiting
  cases waiting

/-- The end of a slot's charging leaves it in no phase, and asks for nothing of it. -/
theorem endCharging_ends (h : Charged [] bad s) (slot : s.slots[a] = some x) (few : Fewer a n s) :
    ∃ y, (endCharging a s).slots[a] = some y ∧ y.plate = x.plate ∧ y.reservation = x.reservation ∧ y.phase = .none ∧
      Fewer a n (endCharging a s) := by
  obtain ⟨y, after, plate, reservation⟩ := (Charging.endCharging (a := a) (.refl s)).slot_after slot
  suffices ended : ((endCharging a s).slots[a]).map Slot.phase = some .none ∧ Fewer a n (endCharging a s) by
    rw [after] at ended
    exact ⟨y, after, plate, reservation, Option.some.inj ended.1, ended.2⟩
  obtain ⟨r, w, stands⟩ := h.windows.stands_slot slot
  have left : (leaveCharging a s).slots[a] = some x.uncharged := by rw [leaveCharging_eq stands, setSlot_get]
  have spared := (h.leaveCharging stands).spared left rfl
  have leftFew : Fewer a n (leaveCharging a s) := few.congr (by rw [Fewer.leaveCharging_bus])
  have left' : ((leaveCharging a s).slots[a]).map Slot.phase = some .none := by rw [left]; rfl
  have attempted : ((attemptFor a (leaveCharging a s)).slots[a]).map Slot.phase = some .none ∧ Fewer a n (attemptFor a (leaveCharging a s)) :=
    ⟨by rw [(spared.attemptFor (b := a)).1]; rfl, leftFew.attemptFor spared⟩
  unfold endCharging
  rw [slot, Option.map_some, Option.getD_some]
  dsimp only
  split
  · next idle => exact ⟨by rw [slot, Option.map_some, idle], few⟩
  · split
    · exact attempted
    · exact ⟨left', leftFew⟩
  · exact ⟨left', leftFew⟩
  · exact attempted

/-! ## The discarded exchanges -/

/-- A slot with no TUNE or RELEASE queued: its exchanges are gone. -/
theorem Held.discards_untuned {idle : Option GroupId} (h : Held flying bad idle s)
    (untuned : ∀ e ∈ s.bus.queues[(1 : Fin 6)], e.slot? ≠ some a) (b : Bool) :
    discardSlot a b s = s.without (slotIs a) ∧ Held flying bad idle (s.without (slotIs a)) := by
  refine ⟨discardWhere_eq (fun q e mem => (h.charged.windows.2.2.2 q).2 e mem) (fun e mem named => ?_) b, h.without fun e mem => ?_⟩
  · exact absurd (of_decide_eq_true named) (untuned e mem)
  · exact decide_eq_false (untuned e mem)

/-- The exchanges of class 3 and above that name the slot. -/
def lesser (a : SlotAddr) (s : State) : List Exchange := [2, 3, 4, 5].flatMap fun q : Fin 6 => (s.bus.queues[q]).filter (slotIs a)

theorem queuedWhere_candidate {e : Exchange} (windows : WindowsSound s) (single : (s.bus.queues[(1 : Fin 6)]).filter (slotIs a) = [e]) :
    queuedWhere (slotIs a) s = e :: lesser a s := by
  have scans : (s.bus.queues[(0 : Fin 6)]).filter (slotIs a) = [] := List.filter_eq_nil_iff.mpr fun f mem named => by
    have cls := (windows.2.2.2 0).2 f mem
    have slot := of_decide_eq_true named
    cases f with
    | scan r => cases slot
    | _ => cases cls
  have order : List.finRange 6 = 0 :: 1 :: [2, 3, 4, 5] := by decide
  unfold queuedWhere lesser
  rw [order, List.flatMap_cons, List.flatMap_cons, scans, single, List.nil_append, List.singleton_append]

theorem lesser_class (windows : WindowsSound s) {f : Exchange} (mem : f ∈ lesser a s) : f.queue ≠ 1 := by
  obtain ⟨q, high, there⟩ := List.mem_flatMap.mp mem
  rw [(windows.2.2.2 q).2 f (List.mem_of_mem_filter there)]
  rintro rfl
  simp at high

/-- A queued exchange of class 3 and above that names the slot is among the lesser ones as often as in its queue. -/
theorem count_lesser (windows : WindowsSound s) {q : Fin 6} (other : q ≠ 1) {f : Exchange} (named : f.slot? = some a) :
    (s.bus.queues[q]).count f ≤ ((lesser a s).filter fun e => e.queue = q).count f := by
  by_cases first : q = 0
  · subst first
    refine (List.count_eq_zero.mpr fun mem => ?_).le.trans (Nat.zero_le _)
    have cls := (windows.2.2.2 0).2 f mem
    cases f with
    | scan r => cases named
    | _ => cases cls
  · have high : q ∈ ([2, 3, 4, 5] : List (Fin 6)) := by
      revert other first
      revert q
      decide
    have own : ((s.bus.queues[q]).filter (slotIs a)).count f = (s.bus.queues[q]).count f := List.count_filter (decide_eq_true named)
    have all : ((s.bus.queues[q]).filter (slotIs a)).filter (fun e => e.queue = q) = (s.bus.queues[q]).filter (slotIs a) :=
      List.filter_eq_self.mpr fun e mem => decide_eq_true ((windows.2.2.2 q).2 e (List.mem_of_mem_filter mem))
    have sub : ((s.bus.queues[q]).filter (slotIs a)).Sublist (lesser a s) :=
      List.sublist_flatten_of_mem (List.mem_map_of_mem (f := fun q : Fin 6 => (s.bus.queues[q]).filter (slotIs a)) high)
    rw [← own, ← all]
    exact (sub.filter _).count_le f

/-- The operation of a failed candidate, going on, asks for nothing of the candidate's slot. -/
theorem Candidacy.hushes {o : IssueOperation} {c : Candidate} (h : Candidacy o c x s) (spared : Spared c.slot (some x) s)
    (few : Fewer c.slot n s) : Fewer c.slot n (nextOrComplete o.group (s.failed o c.slot x)) := by
  have issues : IssuesSound (s.failed o c.slot x) := h.issues.congr (opChanged_groups s rfl) fun _ => ⟨rfl, rfl⟩
  have found : (s.failed o c.slot x).op? (o.lost c.slot).group = some (o.lost c.slot) := op?_of_mem issues (mem_opChanged h.mem)
  have after : Spared c.slot (some { x with reservation := none }) (s.failed o c.slot x) := ⟨get_set_same .., spared.2⟩
  refine Fewer.nextOrComplete (o := o.lost c.slot) after (few.congr rfl) found fun ⟨_, _, _, _, _, _, _, _, _, _, untried⟩ => untried ?_
  unfold IssueOperation.lost
  dsimp only
  split
  · assumption
  · exact List.mem_append_right _ List.mem_cons_self

/-- The exchanges of a slot discarded, and its charging ended. -/
theorem Held.cleared (h : Held flying bad none s) (slot : s.slots[a] = some x) (away : ∀ e ∈ flying, e.slot? ≠ some a) {emptying : Bool}
    (leaves : emptying = true ∨ x.occupancy ≠ .occupied) : let t := Machine.endCharging a (discardSlot a emptying s)
    ∃ y, t.slots[a] = some y ∧ y.plate = x.plate ∧ y.reservation = none ∧ y.phase = .none ∧ Unqueued a t ∧ Held flying bad none t := by
  intro t
  cases reserved : x.reservation with
  | none =>
    have untuned (e : Exchange) (mem : e ∈ s.bus.queues[(1 : Fin 6)]) : e.slot? ≠ some a :=
      h.untuned ((reservedAt_of slot).trans reserved) (List.mem_append_right _ mem)
    obtain ⟨discarded, held⟩ := h.discards_untuned untuned emptying
    have unqueued := without_unqueued s a
    unfold t
    rw [discarded]
    obtain ⟨y, after, plate, reservation, phase, few⟩ := endCharging_ends held.charged (s := s.without (slotIs a)) slot unqueued.fewer
    exact ⟨y, after, plate, reservation.trans reserved, phase, unqueued_of_fewer few, held.endCharging a⟩
  | some k =>
    obtain ⟨o, mem, -, at_slot⟩ := h.fleet.candidates.reserved a k ((reservedAt_of slot).trans reserved)
    obtain ⟨c, candidate, rfl⟩ := Option.map_eq_some_iff.mp at_slot
    obtain ⟨z, candidacy, -, idle, -⟩ := h.candidacy mem candidate
    obtain rfl : z = x := Option.some.inj (candidacy.slot.symm.trans slot)
    obtain ⟨e, task⟩ : ∃ e, taskOf o = some e := ⟨_, by unfold taskOf; rw [candidate]; rfl⟩
    have windows := h.charged.windows
    have waits : c.waitsFor e := by
      obtain ⟨k, same, waits, -⟩ := taskOf_class task
      rw [candidate] at same
      cases same
      exact waits
    have single : (s.bus.queues[(1 : Fin 6)]).filter (slotIs c.slot) = [e] := by
      have tuned := h.tuned mem candidate task
      have other : (flying.filter fun e => classOf e = 2).filter (fun f => decide (f.slot? = some c.slot)) = [] :=
        List.filter_eq_nil_iff.mpr fun f there named => away f (List.mem_of_mem_filter there) (of_decide_eq_true named)
      rwa [List.filter_append, other, List.nil_append] at tuned
    have queued : e ∈ s.bus.queues[(1 : Fin 6)] :=
      List.mem_of_mem_filter (p := slotIs c.slot) (by rw [single]; exact List.mem_cons_self)
    let u := unqueue e s
    have taken : Held (e :: flying) bad none u := h.take queued fun there => away e there waits.named.1
    have failed := taken.candidateFails mem task emptying
    have there : Candidacy o c z u := candidacy.congr slot rfl rfl
    have delivered : deliverDiscarded emptying e u = Machine.nextOrComplete o.group (u.failed o c.slot z) := by
      rw [there.delivered waits, if_neg fun both => ?_]
      rcases leaves with yes | no
      · rw [yes] at both
        cases both.1
      · exact no both.2
    have spared := taken.charged.spared (s := u) slot idle
    have after := there.goesOn spared.2
    have few := there.hushes (n := fun q f => (u.bus.queues[q]).count f) spared fun _ _ _ => le_refl _
    rw [← delivered] at after few
    have discarded : discardSlot c.slot emptying s = (deliverDiscarded emptying e u).struck (lesser c.slot s) := by
      change Machine.forEach (queuedWhere (slotIs c.slot) s) _ s = _
      rw [queuedWhere_candidate windows single, forEach_cons]
      exact forEach_discarded fun f mem one => absurd one (lesser_class windows mem)
    have struck := failed.struck (l := lesser c.slot s) fun f mem => lesser_class windows mem
    have at_slot' : ((deliverDiscarded emptying e u).struck (lesser c.slot s)).slots[c.slot] = some { z with reservation := none } := after.1
    unfold t
    rw [discarded, endCharging_idle at_slot' idle]
    refine ⟨_, at_slot', rfl, rfl, idle, fun q f there named => ?_, struck⟩
    have cls := (struck.charged.windows.2.2.2 q).2 f there
    have remains := List.count_pos_iff.mpr there
    rw [show ((deliverDiscarded emptying e u).struck (lesser c.slot s)).bus.queues[q] =
      ((deliverDiscarded emptying e u).bus.queues[q]).diff ((lesser c.slot s).filter fun e => e.queue = q) from ofFn_get .., List.count_diff] at remains
    have bound : ((deliverDiscarded emptying e u).bus.queues[q]).count f ≤ (u.bus.queues[q]).count f := few q f named
    by_cases one : q = 1
    · subst one
      have gone : (u.bus.queues[(1 : Fin 6)]).count f = 0 := by
        have erased : u.bus.queues[(1 : Fin 6)] = (s.bus.queues[(1 : Fin 6)]).erase e := by
          unfold u
          rw [unqueue_at (show e.queue = 1 from (windows.2.2.2 1).2 e queued)]
          exact get_set_same ..
        have own : ((s.bus.queues[(1 : Fin 6)]).filter (slotIs c.slot)).count f = (s.bus.queues[(1 : Fin 6)]).count f :=
          List.count_filter (decide_eq_true named)
        rw [single, List.count_singleton] at own
        rw [erased, List.count_erase, ← own]
        exact Nat.sub_self _
      omega
    · have same : u.bus.queues[q] = s.bus.queues[q] := by
        unfold u
        rw [unqueue_at (show e.queue = 1 from (windows.2.2.2 1).2 e queued)]
        exact get_set_other _ _ _ _ one
      have counted := count_lesser (s := s) windows one named
      rw [same] at bound
      omega

end

end Sys2Proof.Machine
end

section
/-! PROOF. Emptying a slot and faulting it keep the laws (R119, R121, R125, R139). -/

namespace Sys2Proof.Machine

section
variable {flying : List Exchange} {bad : Option SlotAddr} {idle : Option GroupId} {s : State} {a : SlotAddr} {x y : Slot}

/-! ## Emptying (R121) -/

theorem Held.emptySlot (h : Held flying none none s) (away : ∀ e ∈ flying, e.slot? ≠ some a)
    {reason : EmptyReason} (gone : reason ≠ .stale) : Held flying none none (Machine.emptySlot reason a s) := by
  unfold Machine.emptySlot
  split
  · exact h
  · next x slot =>
    split
    · exact h
    · obtain ⟨y, after, -, free, phase, unqueued, held⟩ := h.cleared slot away (.inl rfl)
      have unreserved : emptiedReservation a (Machine.endCharging a (discardSlot a true s)) = Machine.endCharging a (discardSlot a true s) := by
        unfold emptiedReservation
        rw [after, Option.bind_some, free]
        rfl
      rw [unreserved]
      exact held.emptied after phase free ⟨away, unqueued⟩ gone

/-! ## The slot on its way to FAULT -/

/-- The slot marked: the bad slot, until its exchanges are gone and its charging has ended. -/
theorem Held.marked (h : Held flying none none s) (slot : s.slots[a] = some x) (cause : FaultCause) :
    ∃ y, (markFault a cause s).slots[a] = some y ∧ y.occupancy = .fault ∧ y.phase = x.phase ∧ y.reservation = x.reservation ∧
      (markFault a cause s).ops = s.ops ∧ Held flying (some a) none (markFault a cause s) := by
  let z : Slot := { x with occupancy := .fault, faultCause := some cause }
  let u : State := s.setSlot a (some z)
  have slots : u.slots = s.slots.set a (some z) := rfl
  have named := namedAt_kept slots slot rfl
  have reserved (b : SlotAddr) : reservedAt u b = reservedAt s b := by
    rw [reservedAt_set slots]
    split
    · next own => rw [own, reservedAt_of slot]
    · rfl
  have backed {e : Exchange} (backed : Backed none e s) : Backed (some a) e u := by
    by_cases own : e.slot? = some a
    · exact .inr ⟨a, own, rfl⟩
    · exact .inl ((backed_none.mp backed).elsewhere own (fun _ => rfl) fun b other => by rw [occupancyAt_set slots, if_neg other])
  have held : Held flying (some a) none u := {
    charged := h.charged.rewrite slot rfl (fun _ _ none => by cases none) fun charging => ⟨.inr rfl, (h.charged.charges slot charging).2⟩
    table := h.table
    issues := h.issues.congr rfl fun _ => ⟨rfl, rfl⟩
    fleet := {
      posts := by
        intro b v there
        rw [slots, get_set_cases] at there
        split at there
        · next own =>
          cases there
          exact ⟨fun _ => .inr (congrArg some own.symm), nofun, nofun⟩
        · obtain ⟨occupied, rest⟩ := h.fleet.posts b v there
          exact ⟨fun reserved => .inl ((occupied reserved).resolve_right nofun), rest⟩
      names := h.fleet.names.congr named rfl
      outs := h.fleet.outs
      roster := h.fleet.roster.map (t := u) (f := id) (fun d _ => ⟨rfl, Iff.rfl, fun _ => rfl, rfl⟩) (List.map_id _).symm rfl rfl
      candidates := {
        each := fun o mem => by
          rcases h.fleet.candidates.each o mem with ⟨none, -⟩ | ⟨c, candidate, at_slot, d, there, name, rest⟩
          · cases none
          · exact .inr ⟨c, candidate, (reserved _).trans at_slot, d, there, (named _).trans name, rest⟩
        reserved := fun b n at_slot => h.fleet.candidates.reserved b n ((reserved b).symm.trans at_slot) } }
    running := {
      live := fun e mem => backed (h.running.live e mem)
      queued := fun q e mem => backed (h.running.queued q e mem)
      probes := h.running.probes
      tasks := h.running.tasks } }
  have report : markFault a cause s = u ∨ ∃ k n d, markFault a cause s = reported k n d u := by
    unfold markFault
    rw [modSlot_eq slot]
    cases cause
    · exact .inr ⟨EventKind.slotFault.num, a.val, BitVec.ofNat 32 1, raise_eq_reported ..⟩
    · exact .inr ⟨EventKind.slotFault.num, a.val, BitVec.ofNat 32 2, raise_eq_reported ..⟩
    · exact .inl rfl
  rcases report with plain | ⟨k, n, d, told⟩
  · rw [plain]
    exact ⟨z, setSlot_get .., rfl, rfl, rfl, rfl, held⟩
  · rw [told]
    refine ⟨z, ?_, rfl, rfl, rfl, ?_, held.moored (Moored.refl u).reported⟩
    · rw [reported_eq]
      exact setSlot_get ..
    · rw [reported_eq]
      rfl

/-- A slot that is in no phase, unreserved and unasked is bad no more. -/
theorem Held.unmarked (h : Held flying (some a) idle s) (slot : s.slots[a] = some y) (phase : y.phase = .none) (free : y.reservation = none)
    (unasked : Unasked flying a s) : Held flying none idle s where
  charged := by
    refine ⟨h.charged.windows, h.charged.accounts, fun {b x} there charging => ?_⟩
    obtain ⟨fit, unreserved⟩ := h.charged.charges there charging
    refine ⟨.inl (fit.resolve_right fun same => ?_), unreserved⟩
    cases Option.some.inj same
    rw [slot] at there
    cases there
    exact charging phase
  table := h.table
  issues := h.issues
  fleet := {
    posts := fun b x there => by
      obtain ⟨occupied, rest⟩ := h.fleet.posts b x there
      refine ⟨fun reserved => .inl ((occupied reserved).resolve_right fun same => ?_), rest⟩
      cases Option.some.inj same
      rw [slot] at there
      cases there
      exact reserved free
    names := h.fleet.names
    outs := h.fleet.outs
    roster := h.fleet.roster
    candidates := h.fleet.candidates }
  running := {
    live := fun e mem => .inl ((h.running.live e mem).resolve_right fun ⟨b, named, same⟩ => unasked.1 e mem (named.trans same.symm))
    queued := fun q e mem => .inl ((h.running.queued q e mem).resolve_right fun ⟨b, named, same⟩ => unasked.2 q e mem (named.trans same.symm))
    probes := h.running.probes
    tasks := h.running.tasks }

/-- A slot faults with nothing in hand (R119, R124, R125). -/
theorem Held.enterFault (h : Held [] none none s) (slot : s.slots[a] = some x) (cause : FaultCause) :
    Held [] none none (Machine.enterFault a cause s) := by
  obtain ⟨y, marked, fault, -, -, -, held⟩ := h.marked slot cause
  obtain ⟨z, after, -, free, phase, unqueued, cleared⟩ := held.cleared (emptying := false) marked nofun (.inr (by rw [fault]; nofun))
  exact cleared.unmarked after phase free ⟨nofun, unqueued⟩

/-- A candidate's slot faults by the second timeout of the exchange in hand (R119, R157). -/
theorem Held.candidateFaults {o : IssueOperation} {c : Candidate} {e : Exchange} (h : Held [e] none none s) (mem : o ∈ s.ops)
    (candidate : o.candidate = some c) (task : taskOf o = some e) (cause : FaultCause) :
    Held [] none none (deliverTimeout e (Machine.enterFault c.slot cause s)) := by
  obtain ⟨k, same, waits, -, cls⟩ := taskOf_class task
  rw [candidate] at same
  cases same
  obtain ⟨x, candidacy, -, phase, -⟩ := h.candidacy mem candidate
  obtain ⟨y, marked, fault, phases, -, ops, held⟩ := h.marked candidacy.slot cause
  unfold Machine.enterFault
  generalize markFault c.slot cause s = m at marked ops held
  rw [← ops] at mem
  have single := held.tuned mem candidate task
  rw [tunes_cons cls, List.cons_append, List.filter_nil, List.nil_append, List.filter_cons] at single
  have untuned (f : Exchange) (there : f ∈ m.bus.queues[(1 : Fin 6)]) (named : f.slot? = some c.slot) : False := by
    have mem := List.mem_filter (p := fun f : Exchange => decide (f.slot? = some c.slot)) |>.mpr ⟨there, decide_eq_true named⟩
    split at single
    · rw [(List.cons.inj single).2] at mem
      exact List.not_mem_nil mem
    · next other => exact other (decide_eq_true waits.named.1)
  obtain ⟨discarded, cleared⟩ := held.discards_untuned untuned false
  let u := m.without (slotIs c.slot)
  have at_slot : u.slots[c.slot] = some y := marked
  obtain ⟨z, there, -⟩ := cleared.candidacy (s := u) mem candidate
  obtain rfl : z = y := Option.some.inj (there.slot.symm.trans at_slot)
  have idle : z.phase = .none := phases.trans phase
  have failed := cleared.candidateFails (s := u) mem task false
  have delivered : deliverDiscarded false e u = Machine.nextOrComplete o.group (u.failed o c.slot z) := by
    rw [there.delivered waits, if_neg fun both => ?_]
    rw [fault] at both
    cases both.2
  have spared := cleared.charged.spared (s := u) at_slot idle
  have after := there.goesOn spared.2
  have few := there.hushes spared (without_unqueued m c.slot).fewer
  rw [discarded, endCharging_idle at_slot idle, deliverTimeout_eq waits]
  rw [← delivered] at after few
  exact failed.unmarked after.1 idle rfl ⟨nofun, unqueued_of_fewer few⟩

end

end Sys2Proof.Machine
end

section
/-! PROOF. A slot that is probed, and a device that takes its slot, keep the laws (R123, R124, R128, R145). -/

namespace Sys2Proof.Machine

section
variable {flying : List Exchange} {idle : Option GroupId} {s : State} {a : SlotAddr} {x y : Slot} {d : Device}

/-! ## A slot that is probed (R123, R128) -/

/-- Nothing goes to an EMPTY slot, nor to one in FAULT. -/
theorem Held.vacant_unasked (h : Held flying none idle s) (slot : s.slots[a] = some x) (vacant : x.occupancy = .empty ∨ x.occupancy = .fault) :
    Unasked flying a s := by
  have never (e : Exchange) (backed : Backed none e s) : e.slot? ≠ some a := by
    intro named
    have supported := backed_none.mp backed
    have occupancy : (s.slots[a]).map Slot.occupancy = some .probing ∨ (s.slots[a]).map Slot.occupancy = some .occupied := by
      cases e with
      | scan r => cases named
      | probe b => cases named; exact .inl supported
      | poll b | setCharge b _ | tune b _ _ _ | release b | clear b _ => exact .inr (supported a named)
    rw [slot, Option.map_some, Option.some_inj, Option.some_inj] at occupancy
    rcases vacant with empty | fault
    · rw [empty] at occupancy
      rcases occupancy with other | other <;> cases other
    · rw [fault] at occupancy
      rcases occupancy with other | other <;> cases other
  exact ⟨fun e mem => never e (h.running.live e mem), fun q e mem => never e (h.running.queued q e mem)⟩

/-- A slot that is neither OCCUPIED nor bad is in no phase and unreserved. -/
theorem Held.vacant_free (h : Held flying none idle s) (slot : s.slots[a] = some x) (vacant : x.occupancy ≠ .occupied) :
    x.phase = .none ∧ x.reservation = none := by
  constructor
  · by_contra charging
    exact vacant ((h.charged.charges slot charging).1.resolve_right nofun)
  · by_contra reserved
    exact vacant (((h.fleet.posts a x slot).1 reserved).resolve_right nofun)

/-- An EMPTY slot, or one in FAULT, becomes PROBING and names no device; a device it named DOCKED is UNSEEN. -/
theorem Held.reopened (h : Held flying none none s) (slot : s.slots[a] = some x) (vacant : x.occupancy = .empty ∨ x.occupancy = .fault)
    (probing : y.occupancy = .probing) (unnamed : y.deviceId = none) (phase : y.phase = x.phase) (reservation : y.reservation = x.reservation) :
    Held flying none none { s with slots := s.slots.set a (some y), devices := undockedFrom x s } := by
  obtain ⟨idle, free⟩ := h.vacant_free slot (by rcases vacant with vacant | vacant <;> rw [vacant] <;> nofun)
  have at_a : namedAt s a = x.deviceId := namedAt_of slot
  refine h.unname slot idle free (h.vacant_unasked slot vacant)
    ⟨by rw [probing]; nofun, unnamed, phase.trans idle, reservation.trans free⟩ (fun d _ => ?_) (fun d mem own => ?_) fun d _ away => ?_
  · split
    · next undocks => exact ⟨rfl, iff_of_false nofun (by rw [undocks.2]; nofun), fun out => absurd (undocks.2.symm.trans out) nofun, rfl⟩
    · exact ⟨rfl, Iff.rfl, fun _ => rfl, rfl⟩
  · split
    · exact ⟨nofun, fun _ => rfl⟩
    · next stays => exact ⟨fun docked => stays ⟨at_a.symm.trans own, docked⟩, (h.fleet.names.1 d mem).2⟩
  · exact if_neg fun both => away (at_a.trans both.1)

/-- The slot is then probed. -/
theorem Held.askProbe (h : Held flying none idle s) (unasked : Unasked flying a s) : Held flying none idle (Machine.ask (.probe a) s) := by
  refine h.askSlot nofun nofun fun _ mem => ?_
  rcases List.mem_append.mp mem with there | there
  · exact unasked.1 _ there rfl
  · exact unasked.2 2 _ there rfl

theorem Held.clearFault (h : Held flying none none s) (slot : s.slots[a] = some x) (fault : x.occupancy = .fault) :
    Held flying none none (Machine.clearFault a s) := by
  have reopened := h.reopened (y := { x with occupancy := .probing, deviceId := none, faultCause := none, level := 0, timeouts := 0 }) slot
    (.inr fault) rfl rfl rfl rfl
  rw [clearFault_eq h.table slot, ← probe_asked (by rw [get_set_same]; rfl)]
  exact reopened.askProbe (h.vacant_unasked slot (.inr fault))

/-- One position of a completed SCAN (R123). -/
theorem Held.scanPosition (h : Held flying none none s) (away : ∀ e ∈ flying, e.slot? ≠ some a)
    (w : RackWindow) (params : List Byte) : Held flying none none (Machine.scanPosition w params a s) := by
  cases slot : s.slots[a] with
  | none =>
    rw [scanPosition_undefined slot]
    exact h
  | some x =>
    cases there : occupiedAt params (a.val - w.base) with
    | false =>
      rw [scanPosition_away slot there]
      exact h.emptySlot away nofun
    | true =>
      cases occupancy : x.occupancy with
      | empty =>
        rw [scanPosition_new slot there occupancy]
        have unnamed := (h.fleet.posts a x slot).2.2 (.inl occupancy)
        have reopened := h.reopened (y := { x with occupancy := .probing }) slot (.inl occupancy) rfl unnamed rfl rfl
        rw [undockedFrom_none fun d _ both => by rw [unnamed] at both; cases both.1] at reopened
        exact reopened.askProbe (h.vacant_unasked slot (.inl occupancy))
      | probing =>
        rw [scanPosition_probing slot there occupancy]
        split
        · exact h
        · next absent =>
          refine h.askSlot nofun nofun fun _ mem => ?_
          rcases List.mem_append.mp mem with there | there
          · exact away _ there rfl
          · exact absent there
      | occupied =>
        rw [scanPosition_known slot there (.inl occupancy)]
        exact h
      | fault =>
        rw [scanPosition_known slot there (.inr occupancy)]
        exact h

end

end Sys2Proof.Machine
end

section
/-! PROOF. A device takes a probed slot: a new one, an UNSEEN one, one that returns (R124, R145, R149, R161). -/

namespace Sys2Proof.Machine

section
variable {flying : List Exchange} {idle : Option GroupId} {s : State} {a : SlotAddr} {x y : Slot} {d : Device} {asg : Assignment}

/-! ## A device that is in no slot takes one -/

/-- Nothing is queued for a PROBING slot whose PROBE is in hand. -/
theorem Held.probed_unqueued (h : Held [.probe a] none idle s) (slot : s.slots[a] = some x) (probing : x.occupancy = .probing) :
    Unqueued a s := by
  intro q e mem named
  have supported := backed_none.mp (h.running.queued q e mem)
  have occupied : (s.slots[a]).map Slot.occupancy ≠ some .occupied := by
    rw [slot, Option.map_some, probing]
    nofun
  cases e with
  | scan r => cases named
  | probe b =>
    cases named
    obtain rfl : q = 2 := ((h.charged.windows.2.2.2 q).2 _ mem).symm
    exact (List.nodup_cons.mp h.running.probes).1 mem
  | poll b | setCharge b _ | tune b _ _ _ | release b | clear b _ => exact occupied (supported a named)

/-- The slot whose PROBE is in hand is OCCUPIED by a device that was in none. -/
theorem Held.fill (h : Held [.probe a] none none s) (slot : s.slots[a] = some x) (probing : x.occupancy = .probing) (mem : d ∈ s.devices)
    (inside : d.state ≠ .out) (unnamed : ∀ b, namedAt s b ≠ some d.id) (filled : y.occupancy = .occupied ∧ y.deviceId = some d.id)
    (phase : y.phase = .none) (free : y.reservation = none) {f : Device → Device}
    (docks : (f d).id = d.id ∧ (f d).state = .docked ∧ (f d).slot = some a ∧ (f d).assignment = d.assignment) :
    Held [] none none { s with slots := s.slots.set a (some y), devices := s.devices.map fun e => if e.id = d.id then f e else e } := by
  obtain ⟨occupied, name⟩ := filled
  obtain ⟨id, docked, at_a, assignment⟩ := docks
  let g := fun e : Device => if e.id = d.id then f e else e
  let u : State := { s with slots := s.slots.set a (some y), devices := s.devices.map g }
  have slots : u.slots = s.slots.set a (some y) := rfl
  obtain ⟨idle, unheld⟩ := h.vacant_free slot (by rw [probing]; nofun)
  have unqueued := h.probed_unqueued slot probing
  have named (b : SlotAddr) (other : b ≠ a) : namedAt u b = namedAt s b := by rw [namedAt_set slots, if_neg other]
  have reserved (b : SlotAddr) : reservedAt u b = reservedAt s b := by
    rw [reservedAt_set slots, free]
    split
    · next own => rw [own, reservedAt_of slot, unheld]
    · rfl
  have own (e : Device) (there : e ∈ s.devices) (same : e.id = d.id) : e = d := eq_of_id_eq h.table there mem same
  have alike (e : Device) (there : e ∈ s.devices) : OutAlike e (g e) := by
    unfold g
    split
    · next same =>
      rw [own e there same]
      exact ⟨id, iff_of_false (by rw [docked]; nofun) inside, fun out => absurd out inside, assignment⟩
    · exact ⟨rfl, Iff.rfl, fun _ => rfl, rfl⟩
  have stays (e : Device) (there : e ∈ s.devices) (other : e.id ≠ d.id) : e ∈ u.devices := List.mem_map.mpr ⟨e, there, if_neg other⟩
  exact {
    charged := (h.charged.rewrite (y := y) slot (phase.trans idle.symm) (fun _ _ suspect => suspect) fun charging => absurd phase charging).congr
      rfl rfl rfl
    table := h.table.congr ((List.map_map ..).trans (List.map_congr_left fun e there => (alike e there).id))
    issues := h.issues.congr rfl fun _ => ⟨rfl, rfl⟩
    fleet := {
      posts := h.fleet.posts.write slots ⟨fun reserved => absurd free reserved, fun _ => by rw [name]; nofun,
        fun other => by rw [occupied] at other; rcases other with other | other <;> cases other⟩
      names := by
        refine ⟨fun e after => ?_, fun b n its => ?_⟩
        · obtain ⟨e, there, rfl⟩ := List.mem_map.mp after
          split
          · next same =>
            rw [own e there same]
            exact ⟨fun _ => ⟨a, at_a, by rw [namedAt_set slots, if_pos rfl, name, id]⟩, fun unseen => absurd (docked.symm.trans unseen) nofun⟩
          · obtain ⟨was, unseen⟩ := h.fleet.names.1 e there
            refine ⟨fun state => ?_, unseen⟩
            obtain ⟨b, at_b, its⟩ := was state
            refine ⟨b, at_b, (named b fun same => ?_).trans its⟩
            rw [same, namedAt_of slot, (h.fleet.posts a x slot).2.2 (.inr probing)] at its
            cases its
        · by_cases same : b = a
          · rw [same, namedAt_set slots, if_pos rfl, name, Option.some_inj] at its
            rw [same]
            exact ⟨f d, List.mem_map.mpr ⟨d, mem, if_pos rfl⟩, id.trans its, by rw [docked]; nofun, at_a⟩
          · rw [named b same] at its
            obtain ⟨e, there, rfl, rest⟩ := h.fleet.names.2 b n its
            exact ⟨e, stays e there fun same => unnamed b (same ▸ its), rfl, rest⟩
      outs := h.fleet.outs.map (t := u) alike rfl fun _ => ⟨rfl, rfl⟩
      roster := h.fleet.roster.map (t := u) alike rfl rfl rfl
      candidates := {
        each := fun o there => by
          rcases h.fleet.candidates.each o there with ⟨none, -⟩ | ⟨c, candidate, at_slot, e, known, its, rest⟩
          · cases none
          · have other : c.slot ≠ a := fun same => by
              rw [same, reservedAt_of slot, unheld] at at_slot
              cases at_slot
            exact .inr ⟨c, candidate, (reserved _).trans at_slot, e, stays e known fun same => unnamed _ (same ▸ its),
              (named _ other).trans its, rest⟩
        reserved := fun b n at_slot => h.fleet.candidates.reserved b n ((reserved b).symm.trans at_slot) } }
    running := {
      live := nofun
      queued := fun q e there => .inl ((backed_none.mp (h.running.queued q e there)).elsewhere (unqueued q e there) (fun _ => rfl)
        fun b other => by rw [occupancyAt_set slots, if_neg other])
      probes := (List.nodup_cons.mp h.running.probes).2
      tasks := (h.land (e := .probe a) nofun).running.tasks } }

/-! ## A new device -/

/-- A device that is UNSEEN takes a record. -/
theorem Held.enrolled (h : Held flying none none s) (room : s.devices.length < 384) (unknown : s.device? d.id = none) (nonzero : d.id ≠ 0)
    (unseen : d.state = .unseen) (nowhere : d.slot = none) (unassigned : d.assignment = none) :
    Held flying none none { s with devices := s.devices ++ [d] } := by
  have absent := device?_eq_none.mp unknown
  have inside : d.state ≠ .out := by rw [unseen]; nofun
  have mem {e : Device} : e ∈ s.devices ++ [d] ↔ e ∈ s.devices ∨ e = d := by rw [List.mem_append, List.mem_singleton]
  obtain ⟨-, nodup, ids⟩ := h.table
  exact {
    charged := h.charged.congr rfl rfl rfl
    table := by
      refine ⟨by rw [List.length_append]; exact room, ?_, fun e there => ?_⟩
      · rw [List.map_append]
        exact (List.perm_append_singleton d.id _).nodup_iff.mpr (List.nodup_cons.mpr ⟨absent, nodup⟩)
      · rcases mem.mp there with there | rfl
        · exact ids e there
        · exact nonzero
    issues := h.issues.congr rfl fun _ => ⟨rfl, rfl⟩
    fleet := {
      posts := h.fleet.posts
      names := by
        refine ⟨fun e there => ?_, fun b n its => ?_⟩
        · rcases mem.mp there with there | rfl
          · exact h.fleet.names.1 e there
          · exact ⟨fun docked => absurd (unseen.symm.trans docked) nofun, fun _ => nowhere⟩
        · obtain ⟨e, there, rest⟩ := h.fleet.names.2 b n its
          exact ⟨e, mem.mpr (.inl there), rest⟩
      outs := by
        refine ⟨fun e there => ?_, fun g => ?_⟩
        · rcases mem.mp there with there | rfl
          · exact h.fleet.outs.1 e there
          · exact iff_of_false inside fun assigned => assigned unassigned
        · have same : outOf g { s with devices := s.devices ++ [d] } = outOf g s := by
            unfold outOf
            rw [List.filter_append, List.filter_cons_of_neg (by simp [inside]), List.filter_nil, List.append_nil]
          rw [same]
          exact h.fleet.outs.2 g
      roster := {
        bound := fun k id => by
          rw [h.fleet.roster.bound k id]
          constructor
          · rintro ⟨e, there, rest⟩
            exact ⟨e, mem.mpr (.inl there), rest⟩
          · rintro ⟨e, there, name, out, rest⟩
            rcases mem.mp there with there | rfl
            · exact ⟨e, there, name, out, rest⟩
            · exact absurd out inside
        out := fun e there out => by
          rcases mem.mp there with there | rfl
          · exact h.fleet.roster.out e there out
          · exact absurd out inside
        held := h.fleet.roster.held
        receiver := h.fleet.roster.receiver
        mic := h.fleet.roster.mic }
      candidates := {
        each := fun o there => by
          rcases h.fleet.candidates.each o there with ⟨none, -⟩ | ⟨c, candidate, at_slot, e, known, rest⟩
          · cases none
          · exact .inr ⟨c, candidate, at_slot, e, mem.mpr (.inl known), rest⟩
        reserved := h.fleet.candidates.reserved } }
    running := ⟨h.running.live, h.running.queued, h.running.probes, h.running.tasks⟩ }

/-! ## A device that returns (R161) -/

/-- A device out of the fleet's count: in no slot, with no assignment. -/
def Device.recalled (e : Device) : Device := { e with state := .unseen, slot := none, assignment := none }

/-- The group of a returned device. -/
def Group.fewer (g : Group) : Group :=
  if g.state = .closing ∧ g.outCount ≤ 1 then { g with state := .free, channel := none, outCount := 0 } else { g with outCount := g.outCount - 1 }

/-- The state without a returned device's assignment, its roster entry and its place in the group's count. -/
def State.recalling (d : Device) (asg : Assignment) (s : State) : State :=
  { s with
    roster := Vector.ofFn (fun i : RosterId => if asg.roster = some i then .free else s.roster[i]),
    groups := s.groups.set asg.group s.groups[asg.group].fewer,
    devices := s.devices.map fun e => if e.id = d.id then e.recalled else e }

theorem device_split (table : DevicesSound s) (mem : d ∈ s.devices) (f : Device → Device) :
    ∃ l m, s.devices = l ++ d :: m ∧ (s.devices.map fun e => if e.id = d.id then f e else e) = l ++ f d :: m := by
  obtain ⟨l, m, split⟩ := List.append_of_mem mem
  have nodup := table.2.1
  rw [split, List.map_append, List.map_cons] at nodup
  obtain ⟨-, later, apart⟩ := List.nodup_append.mp nodup
  have same (p : List Device) (away : ∀ e ∈ p, e.id ≠ d.id) : (p.map fun e => if e.id = d.id then f e else e) = p :=
    (List.map_congr_left fun e there => if_neg (away e there)).trans (List.map_id' p)
  refine ⟨l, m, split, ?_⟩
  rw [split, List.map_append, List.map_cons, if_pos rfl,
    same l fun e there => apart e.id (List.mem_map_of_mem there) d.id List.mem_cons_self,
    same m fun e there same => (List.nodup_cons.mp later).1 (same ▸ List.mem_map_of_mem there)]

/-- How the count of a group's OUT devices changes with one device. -/
theorem outOf_change (table : DevicesSound s) (mem : d ∈ s.devices) (f : Device → Device) (g : GroupId) {t : State}
    (devices : t.devices = s.devices.map fun e => if e.id = d.id then f e else e) :
    outOf g t + (if d.state = .out ∧ d.assignment.map Assignment.group = some g then 1 else 0) =
      outOf g s + (if (f d).state = .out ∧ (f d).assignment.map Assignment.group = some g then 1 else 0) := by
  obtain ⟨l, m, before, after⟩ := device_split table mem f
  unfold outOf
  rw [devices, after, before]
  simp only [List.filter_append, List.length_append, List.filter_cons, decide_eq_true_eq]
  split_ifs <;> simp only [List.length_cons] <;> omega

theorem Held.recalling (h : Held flying none none s) (mem : d ∈ s.devices) (out : d.state = .out) (assigned : d.assignment = some asg)
    (unnamed : ∀ b, namedAt s b ≠ some d.id) : Held flying none none (s.recalling d asg) := by
  let u := s.recalling d asg
  have own (e : Device) (there : e ∈ s.devices) (same : e.id = d.id) : e = d := eq_of_id_eq h.table there mem same
  have devices {e : Device} : e ∈ u.devices ↔ e = d.recalled ∨ (e ∈ s.devices ∧ e.id ≠ d.id) := by
    unfold u State.recalling
    rw [List.mem_map]
    constructor
    · rintro ⟨e, there, rfl⟩
      split
      · next same => exact .inl (by rw [own e there same])
      · next other => exact .inr ⟨there, other⟩
    · rintro (rfl | ⟨there, other⟩)
      · exact ⟨d, mem, if_pos rfl⟩
      · exact ⟨e, there, if_neg other⟩
  have entry (k : RosterId) : u.roster[k] = if asg.roster = some k then .free else s.roster[k] := ofFn_get ..
  have bound (k : RosterId) (names : asg.roster = some k) : s.roster[k] = .bound d.id := by
    refine (h.fleet.roster.bound k d.id).mpr ⟨d, mem, rfl, out, ?_, by rw [assigned]; exact names⟩
    exact (h.fleet.roster.out d mem out).mpr (by rw [assigned, Option.bind_some, names]; nofun)
  have group (g : GroupId) : u.groups[g] = if g = asg.group then s.groups[asg.group].fewer else s.groups[g] := get_set_cases ..
  have counted := h.fleet.outs.2 asg.group
  have change (g : GroupId) := outOf_change (t := s.recalling d asg) h.table mem Device.recalled g rfl
  have some_out : 0 < outOf asg.group s :=
    List.length_pos_of_mem (List.mem_filter.mpr ⟨mem, decide_eq_true ⟨out, by rw [assigned]; rfl⟩⟩)
  have records : Records s (s.setGroup asg.group s.groups[asg.group].fewer) := by
    unfold Group.fewer
    split
    · next closes => exact (Records.refl s).idleGroup fun sound => sound.idle (by rw [closes.1]; nofun)
    · exact (Records.refl s).setGroup rfl rfl
  exact {
    charged := h.charged.congr rfl rfl rfl
    table := h.table.congr (modDevice_ids (f := Device.recalled) (fun _ => rfl) d.id s)
    issues := (records.issues h.issues).congr rfl fun _ => ⟨rfl, rfl⟩
    fleet := {
      posts := h.fleet.posts
      names := by
        refine ⟨fun e there => ?_, fun b n its => ?_⟩
        · rcases devices.mp there with rfl | ⟨there, -⟩
          · exact ⟨nofun, fun _ => rfl⟩
          · exact h.fleet.names.1 e there
        · obtain ⟨e, there, rfl, rest⟩ := h.fleet.names.2 b n its
          exact ⟨e, devices.mpr (.inr ⟨there, fun same => unnamed b (same ▸ its)⟩), rfl, rest⟩
      outs := by
        refine ⟨fun e there => ?_, fun g => ?_⟩
        · rcases devices.mp there with rfl | ⟨there, -⟩
          · exact iff_of_false nofun fun assigned => assigned rfl
          · exact h.fleet.outs.1 e there
        · have change := change g
          rw [if_neg (c := d.recalled.state = .out ∧ _) (fun both => by cases both.1), assigned, Option.map_some] at change
          rw [group]
          split
          · next same =>
            rw [same] at change ⊢
            rw [if_pos ⟨out, rfl⟩] at change
            unfold Group.fewer
            split
            · next closes => exact ⟨by dsimp only; omega, fun _ => rfl⟩
            · refine ⟨by dsimp only; omega, fun free => ?_⟩
              have none := counted.2 free
              omega
          · next other =>
            rw [if_neg fun both => other (Option.some.inj both.2).symm] at change
            rw [← Nat.add_zero (outOf g (s.recalling d asg)), change]
            exact h.fleet.outs.2 g
      roster := {
        bound := fun k id => by
          rw [entry]
          split
          · next names =>
            refine iff_of_false nofun ?_
            rintro ⟨e, there, name, gone, mic, seat⟩
            rcases devices.mp there with rfl | ⟨there, other⟩
            · cases gone
            · have also := (h.fleet.roster.bound k e.id).mpr ⟨e, there, rfl, gone, mic, seat⟩
              rw [bound k names] at also
              injection also with also
              exact other also.symm
          · next away =>
            rw [h.fleet.roster.bound k id]
            constructor
            · rintro ⟨e, there, name, gone, mic, seat⟩
              refine ⟨e, devices.mpr (.inr ⟨there, fun same => away ?_⟩), name, gone, mic, seat⟩
              rw [own e there same, assigned] at seat
              exact seat
            · rintro ⟨e, there, name, gone, rest⟩
              rcases devices.mp there with rfl | ⟨there, -⟩
              · cases gone
              · exact ⟨e, there, name, gone, rest⟩
        out := fun e there gone => by
          rcases devices.mp there with rfl | ⟨there, -⟩
          · cases gone
          · exact h.fleet.roster.out e there gone
        held := fun k n its => by
          rw [entry] at its
          split at its
          · cases its
          · exact h.fleet.roster.held k n its
        receiver := h.fleet.roster.receiver
        mic := fun o there mic => by
          obtain ⟨count, unissued, held⟩ := h.fleet.roster.mic o there mic
          refine ⟨count, unissued, fun none => ?_⟩
          obtain ⟨k, names, its⟩ := held none
          refine ⟨k, names, ?_⟩
          rw [entry, if_neg fun same => ?_]
          · exact its
          · rw [bound k same] at its
            cases its }
      candidates := {
        each := fun o there => by
          rcases h.fleet.candidates.each o there with ⟨none, -⟩ | ⟨c, candidate, at_slot, e, known, its, rest⟩
          · cases none
          · exact .inr ⟨c, candidate, at_slot, e, devices.mpr (.inr ⟨known, fun same => unnamed _ (same ▸ its)⟩), its, rest⟩
        reserved := h.fleet.candidates.reserved } }
    running := ⟨h.running.live, h.running.queued, h.running.probes, h.running.tasks⟩ }

end

end Sys2Proof.Machine
end

section
/-! PROOF. The judgement of a PROBE keeps the laws (R124, R145, R161). -/

namespace Sys2Proof.Machine

/-! ## The slot that a device has taken -/

/-- The slot's record with the device that its PROBE brought. -/
def Slot.taken (id : DeviceId) (n : Nat) (x : Slot) : Slot := { x with occupancy := .occupied, deviceId := some id, level := n }

/-- The device's record when it has taken its slot. -/
def Device.placed (a : SlotAddr) (kind : DeviceKind) (n : Nat) (e : Device) : Device :=
  { e with state := .docked, slot := some a, kind := kind, level := n }

/-- The state with device id in slot a. -/
def State.placing (s : State) (a : SlotAddr) (x : Slot) (id : DeviceId) (kind : DeviceKind) (n : Nat) : State :=
  { s with
    slots := s.slots.set a (some (x.taken id n))
    devices := s.devices.map fun e => if e.id = id then e.placed a kind n else e }

section
variable {flying : List Exchange} {idle : Option GroupId} {s t : State} {a b : SlotAddr} {x y : Slot} {d : Device} {id : DeviceId}
  {kind : DeviceKind} {n : Nat}

theorem mapId_mapId (l : List Device) (id : DeviceId) {f : Device → Device} (named : ∀ e, (f e).id = e.id) (g : Device → Device) :
    (l.map fun e => if e.id = id then f e else e).map (fun e => if e.id = id then g e else e) =
      l.map fun e => if e.id = id then g (f e) else e := by
  rw [List.map_map]
  refine List.map_congr_left fun e _ => ?_
  by_cases own : e.id = id
  · simp only [Function.comp_apply, own, if_true, named]
  · simp only [Function.comp_apply, own, if_false]

theorem occupySlot_taken (slot : s.slots[a] = some x) : occupySlot a id kind n s = { s with
    slots := s.slots.set a (some (x.taken id n)), devices := s.devices.map fun e => if e.id = id then { e with kind := kind, level := n } else e } := by
  unfold occupySlot
  rw [modSlot_eq slot]
  rfl

/-- The device in its slot, and the slot's charging begun. -/
theorem Held.placed (h : Held [.probe a] none none s) (slot : s.slots[a] = some x) (probing : x.occupancy = .probing) (mem : d ∈ s.devices)
    (inside : d.state ≠ .out) (unnamed : ∀ b, namedAt s b ≠ some d.id) (kind : DeviceKind) (n : Nat) :
    Held [] none none (s.placing a x d.id kind n) := by
  obtain ⟨phase, free⟩ := h.vacant_free slot (by rw [probing]; nofun)
  exact h.fill (y := x.taken d.id n) slot probing mem inside unnamed ⟨rfl, rfl⟩ phase free ⟨rfl, rfl, rfl, rfl⟩

/-- A slot that holds a device enters charging. -/
theorem Held.charges (h : Held [] none none t) (slot : t.slots[a] = some (x.taken id n)) (phase : x.phase = .none) (free : x.reservation = none) :
    Held [] none none (Machine.enterCharging a t) := h.enterCharging slot phase ⟨.inl rfl, free⟩

theorem requestClear_slots (a : SlotAddr) (id : DeviceId) (s : State) : (requestClear a id s).slots = s.slots := by
  have asked := (ask_aside (.clear a id) s).2.2.1
  unfold ask at asked
  unfold requestClear
  split
  · next eq => rw [eq] at asked; exact asked
  · next eq => rw [eq] at asked; exact asked

/-- A device that returns and takes its slot (R161). -/
theorem returns_placing {asg : Assignment} (found : s.device? id = some d) (slot : s.slots[a] = some x) (assigned : d.assignment = some asg) :
    Moored ((s.recalling d asg).placing a x id kind n) (occupySlot a id kind n (returnDevice d a n s)) := by
  have own := device?_id found
  subst own
  have at_slot : (returnDevice d a n s).slots[a] = some x := by rw [(returnDevice_devices d a n s).1]; exact slot
  have devices : ((s.devices.map fun e => if e.id = d.id then e.recalled else e).map fun e => if e.id = d.id then e.placed a kind n else e) =
      (s.devices.map fun e => if e.id = d.id then e.back a n else e).map fun e =>
        if e.id = d.id then { e with kind := kind, level := n } else e := by
    rw [mapId_mapId (f := Device.recalled) _ _ fun _ => rfl, mapId_mapId (f := Device.back a n) _ _ fun _ => rfl]
    rfl
  rw [occupySlot_taken at_slot, returnDevice_eq assigned rfl]
  refine (Moored.refl _).aside ?_
  unfold State.placing State.recalling
  dsimp only
  rw [devices]
  split <;> unfold State.returned <;> simp only [reported_eq] <;> rfl

theorem probeOutcome_out (found : s.device? id = some d) (out : d.state = .out) : probeOutcome a id kind n s =
    enterCharging a (requestClear a id (occupySlot a id kind n (returnDevice d a n s))) := by
  unfold probeOutcome
  rw [found]
  dsimp only
  rw [out]

theorem probeOutcome_inside (found : s.device? id = some d) (inside : d.state ≠ .out) : probeOutcome a id kind n s =
    enterCharging a (occupySlot a id kind n (s.modDevice id fun e => { e with state := .docked, slot := some a })) := by
  unfold probeOutcome
  rw [found]
  dsimp only
  split
  · next out => exact absurd out inside
  · rfl

/-- A slot that names nothing stays as it is when its name is taken. -/
theorem modSlot_unnamed (slot : s.slots[a] = some x) (unnamed : x.deviceId = none) : (s.modSlot a fun x => { x with deviceId := none }) = s := by
  rw [modSlot_eq slot, ← unnamed]
  exact setSlot_own slot

/-- The outcome of a PROBE by a new device, with room for its record or without (R145). -/
theorem Held.probeNew (h : Held [.probe a] none none s) (slot : s.slots[a] = some x) (probing : x.occupancy = .probing)
    (unknown : s.device? id = none) (nonzero : id ≠ 0) (kind : DeviceKind) (n : Nat) :
    Held [] none none (Machine.probeOutcome a id kind n s) := by
  obtain ⟨phase, free⟩ := h.vacant_free slot (by rw [probing]; nofun)
  have unnamed (b : SlotAddr) (named : namedAt s b = some id) : False := by
    obtain ⟨d, mem, name, -⟩ := h.fleet.names.2 b id named
    exact device?_eq_none.mp unknown (List.mem_map.mpr ⟨d, mem, name⟩)
  unfold Machine.probeOutcome
  rw [unknown]
  dsimp only
  split
  · next room =>
    let d : Device := { id := id, kind := kind, state := .unseen, slot := none, level := n, assignment := none, clearState := .none }
    have enrolled := h.enrolled (d := d) room unknown nonzero rfl rfl rfl
    have placed := enrolled.placed (d := d) slot probing (List.mem_append_right _ List.mem_cons_self) nofun unnamed kind n
    rw [occupySlot_taken (s := { s with devices := s.devices ++ _ }) slot]
    refine Held.charges ?_ (get_set_same ..) phase free
    have absent (e : Device) (mem : e ∈ s.devices) : e.id ≠ id := fun same => device?_eq_none.mp unknown (List.mem_map.mpr ⟨e, mem, same⟩)
    have devices (f g : Device → Device) (e : Device) (same : f d = g e) (named : e.id = id) :
        (s.devices ++ [d]).map (fun e => if e.id = id then f e else e) = (s.devices ++ [e]).map fun e => if e.id = id then g e else e := by
      rw [List.map_append, List.map_append, List.map_singleton, List.map_singleton, if_pos rfl, if_pos named, same]
      congr 1
      exact List.map_congr_left fun e mem => (if_neg (absent e mem)).trans (if_neg (absent e mem)).symm
    rw [State.placing, devices _ (fun e => { e with kind := kind, level := n })
      { id := id, kind := kind, state := .docked, slot := some a, level := n, assignment := none, clearState := .none } rfl rfl] at placed
    exact placed
  · rw [modSlot_unnamed slot ((h.fleet.posts a x slot).2.2 (.inr probing))]
    exact ((h.land (e := .probe a) nofun).enterFault slot .fleetFull).raise

/-- The outcome of a PROBE by a device that no slot names (R124, R145, R161). -/
theorem Held.probeOutcome (h : Held [.probe a] none none s) (slot : s.slots[a] = some x) (probing : x.occupancy = .probing)
    (unnamed : ∀ b, namedAt s b ≠ some id) (nonzero : id ≠ 0) (kind : DeviceKind) (n : Nat) :
    Held [] none none (Machine.probeOutcome a id kind n s) := by
  obtain ⟨phase, free⟩ := h.vacant_free slot (by rw [probing]; nofun)
  cases found : s.device? id with
  | none => exact h.probeNew slot probing found nonzero kind n
  | some d =>
    obtain ⟨mem, rfl⟩ := (device?_eq_some h.table).mp found
    by_cases state : d.state = .out
    · obtain ⟨asg, assigned⟩ := Option.ne_none_iff_exists'.mp ((h.fleet.outs.1 d mem).mp state)
      have recalled := h.recalling mem state assigned unnamed
      have there : d.recalled ∈ (s.recalling d asg).devices := List.mem_map.mpr ⟨d, mem, if_pos rfl⟩
      have placed := recalled.placed slot probing there nofun unnamed kind n
      have occupied := placed.moored (returns_placing found slot assigned)
      rw [probeOutcome_out found state]
      refine (occupied.requestClear a d.id).charges (x := x) (id := d.id) (n := n) ?_ phase free
      rw [requestClear_slots, occupySlot_taken (by rw [(returnDevice_devices d a n s).1]; exact slot)]
      exact get_set_same ..
    · have placed := h.placed slot probing mem state unnamed kind n
      rw [probeOutcome_inside found state, occupySlot_taken (s := s.modDevice d.id _) slot]
      refine Held.charges ?_ (get_set_same ..) phase free
      have devices := mapId_mapId s.devices d.id (f := fun e => { e with state := .docked, slot := some a }) (fun _ => rfl) fun e =>
        { e with kind := kind, level := n }
      unfold State.modDevice
      dsimp only
      rw [devices]
      exact placed

/-! ## A PROBE whose device another slot names (R124) -/

/-- Whether the earlier slot's device was left DOCKED or made UNSEEN, the PROBE's outcome is the same. -/
theorem probeOutcome_stale (slot : s.slots[b] = some y) (named : y.deviceId = some id) :
    probeOutcome a id kind n (emptySlot .stale b s) = probeOutcome a id kind n (emptySlot .lost b s) := by
  unfold emptySlot
  rw [slot]
  dsimp only
  split
  · rfl
  · have minor : Minor s (emptiedReservation b (endCharging b (discardSlot b true s))) :=
      ((Minor.refl s).discardSlot.charging (.endCharging (.refl _))).emptiedReservation
    generalize emptiedReservation b (endCharging b (discardSlot b true s)) = v at minor
    have name : (v.slots[b]).bind Slot.deviceId = some id := by
      have plate := minor.plate b
      rw [slot] at plate
      cases there : v.slots[b] with
      | none => rw [there] at plate; cases plate
      | some z =>
        rw [there] at plate
        exact (plate_deviceId (Option.some.inj plate)).trans named
    unfold emptiedDevice
    rw [name, Option.bind_some]
    cases found : v.device? id with
    | none => rfl
    | some d =>
      have own := device?_id found
      subst own
      dsimp only
      cases state : d.state with
      | out => rfl
      | unseen => rfl
      | docked =>
        have after : ((v.modDevice d.id Device.unseen).setSlot b (some .initial)).device? d.id = some d.unseen :=
          device?_modDevice_own found Device.unseen fun _ => rfl
        have before : (v.setSlot b (some .initial)).device? d.id = some d := found
        rw [probeOutcome_inside before (by rw [state]; nofun), probeOutcome_inside after nofun]
        have same : (v.setSlot b (some .initial)).modDevice d.id (fun e => { e with state := .docked, slot := some a }) =
            ((v.modDevice d.id Device.unseen).setSlot b (some .initial)).modDevice d.id fun e => { e with state := .docked, slot := some a } := by
          unfold State.modDevice State.setSlot
          dsimp only
          rw [mapId_mapId (f := Device.unseen) _ _ fun _ => rfl]
          rfl
        rw [same]

/-- A completed PROBE (R124). -/
theorem Held.probeComplete (h : Held [.probe a] none none s) (params : List Byte) : Held [] none none (Machine.probeComplete a params s) := by
  have supported : (s.slots[a]).map Slot.occupancy = some .probing :=
    backed_none.mp (h.running.live (.probe a) List.mem_cons_self)
  obtain ⟨x, slot, probing⟩ := Option.map_eq_some_iff.mp supported
  have unnamed := (h.fleet.posts a x slot).2.2 (.inr probing)
  have faults : Held [] none none (Machine.enterFault a .device (s.modSlot a fun x => { x with deviceId := none })) := by
    rw [modSlot_unnamed slot unnamed]
    exact (h.land (e := .probe a) nofun).enterFault slot .device
  unfold Machine.probeComplete
  dsimp only
  split
  · exact faults
  · next kind _ =>
    split
    · exact faults
    · next good =>
      have nonzero : BitVec.ofNat 32 (field32 params 0) ≠ 0 := fun zero => good (.inr zero)
      generalize (BitVec.ofNat 32 (field32 params 0) : DeviceId) = id at nonzero
      generalize reportedLevel params 5 = n
      have own : namedAt s a ≠ some id := by rw [namedAt_of slot, unnamed]; nofun
      cases other : otherSlotOf a id s with
      | none =>
        refine h.probeOutcome slot probing (fun b named => ?_) nonzero kind n
        by_cases same : b = a
        · exact own (same ▸ named)
        · have never := List.find?_eq_none.mp other b (List.mem_finRange b)
          simp only [Bool.and_eq_true, decide_eq_true_eq] at never
          exact never ⟨same, named⟩
      | some b =>
        have found := List.find?_some other
        simp only [Bool.and_eq_true, decide_eq_true_eq] at found
        obtain ⟨apart, named⟩ := found
        obtain ⟨y, there, name⟩ := Option.bind_eq_some_iff.mp named
        dsimp only
        rw [probeOutcome_stale there name]
        have away : ∀ e ∈ [Exchange.probe a], e.slot? ≠ some b := fun e mem => by
          rw [List.mem_singleton.mp mem]
          exact fun same => apart (Option.some.inj same).symm
        have emptied := h.emptySlot away (reason := .lost) nofun
        have effect := emptySlot_emptied .lost b s
        have filled : y.occupancy ≠ .empty := fun empty => by
          rw [(h.fleet.posts b y there).2.2 (.inl empty)] at name
          cases name
        have gone := emptySlot_initial (reason := .lost) there filled
        have plate := effect.other a (Ne.symm apart)
        rw [slot] at plate
        obtain ⟨z, after, plate⟩ := Option.map_eq_some_iff.mp plate
        refine emptied.probeOutcome after ((plate_occupancy plate).trans probing) (fun c named => ?_) nonzero kind n
        by_cases same : c = b
        · rw [same, namedAt_of gone] at named
          cases named
        · have plates := effect.other c same
          have before : namedAt s c = some id := by
            have names (u : State) : namedAt u c = ((u.slots[c]).map Slot.plate).bind Plate.deviceId := by
              rw [Option.bind_map]
              rfl
            rw [names, ← plates, ← names]
            exact named
          exact same (namedAt_inj h.table h.fleet.names before ((namedAt_of there).trans name))

end

end Sys2Proof.Machine
end

section
/-! PROOF. A candidate's TUNE and RELEASE answered keep the laws (R155, R156). -/

namespace Sys2Proof.Machine

section
variable {flying : List Exchange} {bad : Option SlotAddr} {idle : Option GroupId} {s : State} {o : IssueOperation} {c : Candidate} {x : Slot}
  {e : Exchange} {d : Device}

/-! ## The TUNE answered (R155) -/

/-- The operation when its candidate's RELEASE is wanted. -/
def IssueOperation.releasing (o : IssueOperation) (c : Candidate) : IssueOperation := { o with candidate := some { c with stage := .release } }

/-- The candidate waits for its RELEASE in the place of its TUNE. -/
theorem Held.releasing (h : Held [e] none none s) (mem : o ∈ s.ops) (candidate : o.candidate = some c) (task : taskOf o = some e) :
    Held [.release c.slot] none none { s with ops := s.opChanged o (o.releasing c) } := by
  obtain ⟨x, candidacy, -, -, fit⟩ := h.candidacy mem candidate
  have occupied := fit.resolve_right nofun
  obtain ⟨-, -, -, -, cls⟩ := taskOf_class task
  obtain ⟨rest, before, after, -⟩ := tasks_split h.issues mem (o.releasing c)
  exact {
    charged := h.charged.congr rfl rfl rfl
    table := h.table.congr rfl
    issues := h.issues.congr (opChanged_groups s rfl) fun _ => ⟨rfl, rfl⟩
    fleet := {
      posts := h.fleet.posts
      names := h.fleet.names.congr (fun _ => rfl) rfl
      outs := h.fleet.outs
      roster := h.fleet.roster.change h.issues mem (p := o.releasing c) ⟨rfl, rfl, rfl, rfl, rfl⟩
        (fun q there mic _ => (h.fleet.roster.mic q there mic).2.1 nofun) rfl rfl rfl
      candidates := {
        each := fun q there => by
          rcases (mem_opChanged_iff mem).mp there with rfl | ⟨there, -⟩
          · obtain ⟨k, same, stands⟩ := (h.fleet.candidates.each o mem).resolve_left fun both => by cases both.1
            rw [candidate] at same
            cases same
            exact .inr ⟨_, rfl, stands⟩
          · exact h.fleet.candidates.each q there
        reserved := fun b n at_slot => by
          obtain ⟨q, there, handle, standing⟩ := h.fleet.candidates.reserved b n at_slot
          by_cases own : q.group = o.group
          · obtain rfl := op_unique h.issues mem there own
            exact ⟨q.releasing c, (mem_opChanged_iff mem).mpr (.inl rfl), handle, by rw [candidate] at standing; exact standing⟩
          · exact ⟨q, (mem_opChanged_iff mem).mpr (.inr ⟨there, own⟩), handle, standing⟩ } }
    running := {
      live := fun f there => by
        rw [List.mem_singleton.mp there]
        refine .inl fun b named => ?_
        cases named
        exact (congrArg (Option.map Slot.occupancy) candidacy.slot).trans (congrArg some occupied)
      queued := h.running.queued
      probes := by
        refine List.nodup_cons.mpr ⟨fun there => ?_, (List.nodup_cons.mp h.running.probes).2⟩
        have other := (h.charged.windows.2.2.2 2).2 _ there
        cases other
      tasks := by
        have tasks := h.running.tasks.trans before
        rw [tunes_cons cls, task] at tasks
        rw [tunes_cons rfl]
        exact ((List.perm_cons _).mpr ((List.perm_cons e).mp tasks)).trans after.symm } }

theorem Held.tuneAnswered (h : Held [e] none none s) (mem : o ∈ s.ops) (candidate : o.candidate = some c) (task : taskOf o = some e)
    (stage : c.stage = .tune) : Held [] none none (Machine.tuneAnswered c.slot s) := by
  obtain ⟨x, candidacy, -, -, fit⟩ := h.candidacy mem candidate
  have occupied := fit.resolve_right nofun
  obtain ⟨id, named⟩ := Option.ne_none_iff_exists'.mp ((h.fleet.posts c.slot x candidacy.slot).2.1 occupied)
  rw [candidacy.tuneAnswered occupied named stage]
  refine Held.queueTask (e := .release c.slot) ?_ rfl
  refine (h.releasing mem candidate task).moored ((Moored.refl _).devicesMapped fun d => ?_)
  split <;> rfl

/-! ## The RELEASE answered (R156) -/

/-- The operation when its candidate's device has been handed out. -/
def IssueOperation.issuing (o : IssueOperation) (c : Candidate) (k : ChannelId) : IssueOperation :=
  { o with issued := o.issued + 1, candidate := none, retuned := o.retuned || decide (k ≠ c.tunedChannel) }

/-- The device handed out. -/
def Device.handed (o : IssueOperation) (k : ChannelId) (d : Device) : Device :=
  { d with state := .out, assignment := some { group := o.group, channel := k, roster := o.roster } }

/-- The state when the candidate's device has been handed out, before the operation goes on; its microphone's source aside. -/
def State.issuing (s : State) (o : IssueOperation) (c : Candidate) (x : Slot) (id : DeviceId) (k : ChannelId) : State :=
  { s with
    slots := s.slots.set c.slot (some { x with reservation := none, released := true }),
    ops := s.opChanged o (o.issuing c k),
    groups := s.groups.set o.group { s.groups[o.group] with outCount := s.groups[o.group].outCount + 1 },
    devices := s.devices.map (fun d => if d.id = id then d.handed o k else d),
    roster := Vector.ofFn fun i : RosterId => if o.seat = some i then .bound id else s.roster[i] }

theorem Held.issuing (h : Held [e] none none s) (mem : o ∈ s.ops) (candidate : o.candidate = some c) (slot : s.slots[c.slot] = some x)
    (task : taskOf o = some e) {id : DeviceId} (named : x.deviceId = some id) (k : ChannelId) :
    Held [] none (some o.group) (s.issuing o c x id k) := by
  obtain ⟨z, candidacy, reserved, idle, fit⟩ := h.candidacy mem candidate
  obtain rfl : z = x := Option.some.inj (candidacy.slot.symm.trans slot)
  obtain ⟨-, -, -, -, cls⟩ := taskOf_class task
  obtain ⟨rest, before, after, -⟩ := tasks_split h.issues mem (o.issuing c k)
  obtain ⟨k', same, at_slot, d, known, name, docked, kind⟩ := (h.fleet.candidates.each o mem).resolve_left fun both => by cases both.1
  rw [candidate] at same
  cases same
  rw [namedAt_of slot, named, Option.some_inj] at name
  subst name
  let y : Slot := { z with reservation := none, released := true }
  let u := s.issuing o c z d.id k
  have slots : u.slots = s.slots.set c.slot (some y) := rfl
  have names := namedAt_kept slots slot rfl
  have occupancy := occupancyAt_kept slots slot rfl
  have others (b : SlotAddr) (other : b ≠ c.slot) : reservedAt u b = reservedAt s b := by rw [reservedAt_set slots, if_neg other]
  have own (e : Device) (there : e ∈ s.devices) (same : e.id = d.id) : e = d := eq_of_id_eq h.table there known same
  have devices {e : Device} : e ∈ u.devices ↔ e = d.handed o k ∨ (e ∈ s.devices ∧ e.id ≠ d.id) := by
    unfold u State.issuing
    rw [List.mem_map]
    constructor
    · rintro ⟨e, there, rfl⟩
      split
      · next same => exact .inl (by rw [own e there same])
      · next other => exact .inr ⟨there, other⟩
    · rintro (rfl | ⟨there, other⟩)
      · exact ⟨d, known, if_pos rfl⟩
      · exact ⟨e, there, if_neg other⟩
  have entry (i : RosterId) : u.roster[i] = if o.seat = some i then .bound d.id else s.roster[i] := ofFn_get ..
  have group (g : GroupId) : u.groups[g] = if g = o.group then { s.groups[o.group] with outCount := s.groups[o.group].outCount + 1 } else s.groups[g] :=
    get_set_cases ..
  have desk (g : GroupId) : (u.groups[g]).state = (s.groups[g]).state ∧ (u.groups[g]).issueHandle = (s.groups[g]).issueHandle := by
    rw [group]
    split
    · next same => rw [same]; exact ⟨rfl, rfl⟩
    · exact ⟨rfl, rfl⟩
  have seated (i : RosterId) (seat : o.seat = some i) : s.roster[i] = .held (o.group.val + 1) := by
    obtain ⟨mic, names⟩ := (o.seat_eq i).mp seat
    obtain ⟨-, unissued, held⟩ := h.fleet.roster.mic o mem mic
    obtain ⟨j, same, held⟩ := held (unissued nofun)
    rw [names] at same
    cases same
    exact held
  have backed {f : Exchange} (backed : Backed none f s) : Backed none f u :=
    backed.imp_left fun supported => supported.congr (fun _ => rfl) occupancy
  exact {
    charged := (h.charged.rewrite (y := y) slot rfl (fun _ _ suspect => suspect) fun charging => absurd idle charging).congr rfl rfl rfl
    table := h.table.congr (modDevice_ids (f := Device.handed o k) (fun _ => rfl) d.id s)
    issues := h.issues.congr (opChanged_groups s rfl) desk
    fleet := {
      posts := by
        obtain ⟨-, occupied, unnamed⟩ := h.fleet.posts c.slot z slot
        exact h.fleet.posts.write slots ⟨fun reserved => absurd rfl reserved, occupied, unnamed⟩
      names := by
        refine ⟨fun e there => ?_, fun b n its => ?_⟩
        · rcases devices.mp there with rfl | ⟨there, -⟩
          · exact ⟨nofun, nofun⟩
          · obtain ⟨was, unseen⟩ := h.fleet.names.1 e there
            refine ⟨fun state => ?_, unseen⟩
            obtain ⟨b, at_b, its⟩ := was state
            exact ⟨b, at_b, (names b).trans its⟩
        · rw [names] at its
          obtain ⟨e, there, rfl, seen, at_b⟩ := h.fleet.names.2 b n its
          by_cases same : e.id = d.id
          · exact ⟨d.handed o k, devices.mpr (.inl rfl), same.symm, nofun, by rw [own e there same] at at_b; exact at_b⟩
          · exact ⟨e, devices.mpr (.inr ⟨there, same⟩), rfl, seen, at_b⟩
      outs := by
        refine ⟨fun e there => ?_, fun g => ?_⟩
        · rcases devices.mp there with rfl | ⟨there, -⟩
          · exact iff_of_true rfl nofun
          · exact h.fleet.outs.1 e there
        · have change := outOf_change (t := s.issuing o c z d.id k) h.table known (Device.handed o k) g rfl
          have counted := h.fleet.outs.2 g
          rw [if_neg fun both => by rw [docked] at both; cases both.1] at change
          rw [(desk g).1, group]
          split
          · next same =>
            subst same
            rw [if_pos ⟨rfl, rfl⟩] at change
            refine ⟨by dsimp only; omega, fun free => ?_⟩
            have opened := ((h.issues.2.2 o.group).1 ⟨o, mem, rfl⟩).1
            rw [opened] at free
            cases free
          · next other =>
            rw [if_neg fun both => other (Option.some.inj both.2).symm] at change
            rw [← Nat.add_zero (outOf g (s.issuing o c z d.id k)), change]
            exact counted
      roster := {
        bound := fun i id => by
          rw [entry]
          split
          · next seat =>
            obtain ⟨mic, names⟩ := (o.seat_eq i).mp seat
            constructor
            · intro same
              injection same with same
              exact ⟨d.handed o k, devices.mpr (.inl rfl), same, rfl, kind.trans mic, names⟩
            · rintro ⟨e, there, rfl, out, its, at_seat⟩
              rcases devices.mp there with rfl | ⟨there, -⟩
              · rfl
              · have also := (h.fleet.roster.bound i e.id).mpr ⟨e, there, rfl, out, its, at_seat⟩
                rw [seated i seat] at also
                cases also
          · next away =>
            rw [h.fleet.roster.bound i id]
            constructor
            · rintro ⟨e, there, name, out, rest⟩
              refine ⟨e, devices.mpr (.inr ⟨there, fun same => ?_⟩), name, out, rest⟩
              rw [own e there same, docked] at out
              cases out
            · rintro ⟨e, there, name, out, mic, at_seat⟩
              rcases devices.mp there with rfl | ⟨there, -⟩
              · exact absurd ((o.seat_eq i).mpr ⟨kind.symm.trans mic, at_seat⟩) away
              · exact ⟨e, there, name, out, mic, at_seat⟩
        out := fun e there out => by
          rcases devices.mp there with rfl | ⟨there, -⟩
          · change d.kind = .mic ↔ o.roster ≠ none
            rw [kind]
            cases its : o.kind with
            | mic =>
              obtain ⟨-, unissued, held⟩ := h.fleet.roster.mic o mem its
              obtain ⟨j, names, -⟩ := held (unissued nofun)
              exact iff_of_true rfl (by rw [names]; nofun)
            | receiver => exact iff_of_false nofun fun assigned => assigned (h.fleet.roster.receiver o mem its)
          · exact h.fleet.roster.out e there out
        held := fun i n its => by
          rw [entry] at its
          split at its
          · cases its
          · next away =>
            obtain ⟨q, there, handle, held, unissued⟩ := h.fleet.roster.held i n its
            refine ⟨q, (mem_opChanged_iff mem).mpr (.inr ⟨there, fun same => away ?_⟩), handle, held, unissued⟩
            obtain rfl := op_unique h.issues mem there same
            refine (q.seat_eq i).mpr ⟨?_, held⟩
            cases its : q.kind with
            | mic => rfl
            | receiver => rw [h.fleet.roster.receiver q mem its] at held; cases held
        receiver := fun q there receiver => by
          rcases (mem_opChanged_iff mem).mp there with rfl | ⟨there, -⟩
          · exact h.fleet.roster.receiver o mem receiver
          · exact h.fleet.roster.receiver q there receiver
        mic := fun q there mic => by
          rcases (mem_opChanged_iff mem).mp there with rfl | ⟨there, other⟩
          · exact ⟨(h.fleet.roster.mic o mem mic).1, fun away => absurd rfl away, nofun⟩
          · obtain ⟨count, unissued, held⟩ := h.fleet.roster.mic q there mic
            have none := unissued nofun
            obtain ⟨j, names, held⟩ := held none
            refine ⟨count, fun _ => none, fun _ => ⟨j, names, ?_⟩⟩
            rw [entry, if_neg fun seat => ?_]
            · exact held
            · have both := (seated j seat).symm.trans held
              injection both with both
              exact other (Fin.ext (by omega)) }
      candidates := {
        each := fun q there => by
          rcases (mem_opChanged_iff mem).mp there with rfl | ⟨there, other⟩
          · exact .inl ⟨rfl, rfl⟩
          · obtain ⟨j, its, held, f, known', name, rest⟩ := (h.fleet.candidates.each q there).resolve_left fun both => by cases both.1
            have apart : j.slot ≠ c.slot := fun same => candidacy.alone q there other (by rw [its, Option.map_some, same])
            refine .inr ⟨j, its, (others _ apart).trans held, f, devices.mpr (.inr ⟨known', fun same => apart ?_⟩), (names _).trans name, rest⟩
            exact namedAt_inj h.table h.fleet.names name ((namedAt_of slot).trans (same ▸ named))
        reserved := fun b n there => by
          by_cases same : b = c.slot
          · rw [same, reservedAt_set slots, if_pos rfl] at there
            cases there
          · obtain ⟨q, known', handle, standing⟩ := h.fleet.candidates.reserved b n ((others b same).symm.trans there)
            refine ⟨q, (mem_opChanged_iff mem).mpr (.inr ⟨known', fun group => ?_⟩), handle, standing⟩
            obtain rfl := op_unique h.issues mem known' group
            rw [candidate, Option.map_some, Option.some_inj] at standing
            exact same standing.symm } }
    running := {
      live := nofun
      queued := fun q f there => backed (h.running.queued q f there)
      probes := (List.nodup_cons.mp h.running.probes).2
      tasks := by
        have tasks := h.running.tasks.trans before
        rw [tunes_cons cls, task] at tasks
        exact ((List.perm_cons e).mp tasks).trans after.symm } }

/-- What the hand-out of a device comes to. -/
theorem issueDevice_issuing (h : Candidacy o c x s) (id : DeviceId) : let k := (s.groups[o.group].channel).getD 0
    Moored (s.issuing o c x id k) (issueDevice o.group o c.slot id s) ∧
      (issueDevice o.group o c.slot id s).ops = s.opChanged o (o.issuing c k) := by
  intro k
  let out := fun d : Device => { d with state := .out, assignment := some { group := o.group, channel := k, roster := o.roster } }
  let v : State := { s with
    slots := s.slots.set c.slot (some { x with reservation := none, released := true }), ops := s.opChanged o (o.issuing c k),
    groups := s.groups.set o.group { s.groups[o.group] with outCount := s.groups[o.group].outCount + 1 },
    devices := s.devices.map (fun d => if d.id = id then d.handed o k else d) }
  have changed : (s.modDevice id out).modOp o.group (fun q =>
      { q with retuned := q.retuned || decide (k ≠ c.tunedChannel), issued := q.issued + 1, candidate := none }) =
      { s.modDevice id out with ops := s.opChanged o (o.issuing c k) } :=
    modOp_eq (s := s.modDevice id out) (o := o) (h.issues.congr rfl fun _ => ⟨rfl, rfl⟩) h.mem _
  have slot : (({ s.modDevice id out with ops := s.opChanged o (o.issuing c k) } : State).setGroup o.group
      { s.groups[o.group] with outCount := s.groups[o.group].outCount + 1 }).slots[c.slot] = some x := h.slot
  have written := modSlot_eq slot fun x => { x with reservation := none, released := true }
  have seats (seat : Option RosterId) (same : o.seat = seat) : s.issuing o c x id k = { v with
      roster := Vector.ofFn fun i : RosterId => if seat = some i then .bound id else s.roster[i] } := by
    rw [← same]
    rfl
  unfold issueDevice
  rw [h.candidate]
  dsimp only [Option.map_some, Option.getD_some]
  rw [changed]
  split
  · next j kind roster =>
    have entry : (Vector.ofFn fun i : RosterId => if some j = some i then RosterEntry.bound id else s.roster[i]) = s.roster.set j (.bound id) := by
      rw [← ofFn_set]
      exact congrArg Vector.ofFn (funext fun i => if_congr (Option.some_inj.trans eq_comm) rfl rfl)
    have seated : s.issuing o c x id k = v.setRoster j (.bound id) := by
      rw [seats (some j) ((if_pos kind).trans roster), entry]
      rfl
    have bound : Moored (s.issuing o c x id k) (bindRoster j id v) ∧ (bindRoster j id v).ops = s.opChanged o (o.issuing c k) := by
      rw [seated]
      unfold bindRoster
      dsimp only
      split
      · exact ⟨(Moored.refl _).sourceWaiting, congrArg State.ops (sourceWaiting_offSources ..)⟩
      · exact ⟨Moored.refl _, rfl⟩
    have same := congrArg (bindRoster j id) written
    exact ⟨(congrArg State.dock same).trans bound.1, (congrArg State.ops same).trans bound.2⟩
  · next other =>
    have seat : o.seat = none := by
      unfold IssueOperation.seat
      split
      · next kind =>
        cases roster : o.roster with
        | none => rfl
        | some j => exact absurd roster (other j kind)
      · rfl
    have seated : s.issuing o c x id k = v := by
      rw [seats none seat]
      simp only [reduceCtorEq, if_false, ofFn_own]
      rfl
    rw [seated]
    exact ⟨congrArg State.dock written, congrArg State.ops written⟩

theorem Held.releaseAnswered (h : Held [e] none none s) (mem : o ∈ s.ops) (candidate : o.candidate = some c) (task : taskOf o = some e)
    (stage : c.stage = .release) : Held [] none none (Machine.releaseAnswered c.slot s) := by
  obtain ⟨x, candidacy, -, -, fit⟩ := h.candidacy mem candidate
  have occupied := fit.resolve_right nofun
  obtain ⟨id, named⟩ := Option.ne_none_iff_exists'.mp ((h.fleet.posts c.slot x candidacy.slot).2.1 occupied)
  obtain ⟨moored, ops⟩ := issueDevice_issuing candidacy id
  let k := (s.groups[o.group].channel).getD 0
  have handed := (h.issuing mem candidate candidacy.slot task named k).moored moored
  have there : o.issuing c k ∈ (issueDevice o.group o c.slot id s).ops := by
    rw [ops]
    exact mem_opChanged mem
  unfold Machine.releaseAnswered
  rw [candidacy.candidateGroup (by rw [stage]; exact List.mem_cons_self)]
  dsimp only
  rw [candidacy.op?, candidacy.slot, Option.bind_some, named]
  dsimp only
  split
  · rw [completeOp_eq (g := o.group) (op?_of_mem (o := o.issuing c k) handed.issues there)]
    exact Held.completed (o := o.issuing c k) handed there rfl
  · next more =>
    refine Held.nextOrComplete (o := o.issuing c k) handed there rfl (fun mic => absurd ?_ more)
    exact le_of_eq_of_le (h.fleet.roster.mic o mem mic).1 (Nat.le_add_left ..)

end

end Sys2Proof.Machine
end

section
/-! PROOF. What is in flight stays in flight: only EXCHANGE_START, the end of an exchange, RACK_REMOVE and a reset touch it (R118, R122). -/

namespace Sys2Proof.Machine

/-- The exchange in flight as the laws see it: what it is, its rack, and whether that has been removed. -/
def State.flight (s : State) : Option InFlight := s.bus.inFlight.map InFlight.berth

section
variable {s t u : State}

theorem Minor.flight_eq (h : Minor s t) : t.flight = s.flight := congrArg (Option.map InFlight.berth) h.flight

theorem Charging.flight_eq (h : Charging s t) : t.flight = s.flight := h.minor.flight_eq

theorem Moored.flight_eq (h : Moored s t) : t.flight = s.flight := h.berthed.flight

end

variable (s : State) (a : SlotAddr)

/-! ## The parts of the work -/

@[simp] theorem raise_flight (k : EventKind) (o d : Nat) : (raise k o d s).flight = s.flight := (Moored.refl s).raise.flight_eq

@[simp] theorem modSlot_flight (f : Slot → Slot) : (s.modSlot a f).flight = s.flight := rfl

@[simp] theorem modDevice_flight (id : DeviceId) (f : Device → Device) : (s.modDevice id f).flight = s.flight := rfl

@[simp] theorem modOp_flight (g : GroupId) (f : IssueOperation → IssueOperation) : (s.modOp g f).flight = s.flight := rfl

@[simp] theorem setGroup_flight (g : GroupId) (x : Group) : (s.setGroup g x).flight = s.flight := rfl

@[simp] theorem setSlot_flight (x : Option Slot) : (s.setSlot a x).flight = s.flight := rfl

@[simp] theorem setRack_flight (r : RackId) (w : Option RackWindow) : (s.setRack r w).flight = s.flight := rfl

@[simp] theorem setRoster_flight (k : RosterId) (e : RosterEntry) : (s.setRoster k e).flight = s.flight := rfl

@[simp] theorem modRack_flight (r : RackId) (f : RackWindow → RackWindow) : (s.modRack r f).flight = s.flight := rfl

@[simp] theorem ask_flight (e : Exchange) : (ask e s).flight = s.flight := congrArg (Option.map InFlight.berth) (ask_aside e s).1

@[simp] theorem endCharging_flight : (endCharging a s).flight = s.flight := (Charging.refl s).endCharging.flight_eq

@[simp] theorem enterCharging_flight : (enterCharging a s).flight = s.flight := (Charging.refl s).enterCharging.flight_eq

@[simp] theorem judgePoll_flight : (judgePoll a s).flight = s.flight := (Charging.refl s).judgePoll.flight_eq

@[simp] theorem attempt_flight (r : RackId) : (attempt r s).flight = s.flight := (Charging.refl s).attempt.flight_eq

@[simp] theorem shedLoop_flight (n : Nat) (r : RackId) : (shedLoop n r s).2.flight = s.flight := (Charging.refl s).shedLoop.flight_eq

@[simp] theorem discardSlot_flight (emptying : Bool) : (discardSlot a emptying s).flight = s.flight := (Minor.refl s).discardSlot.flight_eq

@[simp] theorem deliverDiscarded_flight (emptying : Bool) (e : Exchange) : (deliverDiscarded emptying e s).flight = s.flight :=
  (Minor.refl s).deliverDiscarded.flight_eq

@[simp] theorem deliverTimeout_flight (e : Exchange) : (deliverTimeout e s).flight = s.flight := (Minor.refl s).deliverTimeout.flight_eq

@[simp] theorem setClear_flight (id : DeviceId) (c : ClearState) : (setClear id c s).flight = s.flight := rfl

@[simp] theorem requestClear_flight (id : DeviceId) : (requestClear a id s).flight = s.flight := (Minor.refl s).requestClear.flight_eq

@[simp] theorem clearOwed_flight : (clearOwed a s).flight = s.flight := (Minor.refl s).clearOwed.flight_eq

@[simp] theorem emptiedReservation_flight : (emptiedReservation a s).flight = s.flight := (Minor.refl s).emptiedReservation.flight_eq

@[simp] theorem completeOp_flight (g : GroupId) : (completeOp g s).flight = s.flight := (Minor.refl s).completeOp.flight_eq

@[simp] theorem chooseNext_flight (g : GroupId) : (chooseNext g s).flight = s.flight := (Minor.refl s).chooseNext.flight_eq

@[simp] theorem nextOrComplete_flight (g : GroupId) : (nextOrComplete g s).flight = s.flight := (Minor.refl s).nextOrComplete.flight_eq

@[simp] theorem tuneAnswered_flight : (tuneAnswered a s).flight = s.flight := (Minor.refl s).tuneAnswered.flight_eq

@[simp] theorem setTimeouts_flight (n : Nat) : (setTimeouts a n s).flight = s.flight := modSlot_flight ..

@[simp] theorem storeLevel_flight (n : Nat) : (storeLevel a n s).flight = s.flight := by
  unfold storeLevel
  split
  · exact (modDevice_flight ..).trans (modSlot_flight ..)
  · exact modSlot_flight ..

theorem forEach_flight {α : Type} {f : α → State → State} (each : ∀ x u, (f x u).flight = u.flight) (l : List α) :
    (forEach l f s).flight = s.flight := forEach_same State.flight f each l s

/-! ## Slots emptied and faulted -/

@[simp] theorem emptiedDevice_flight (reason : EmptyReason) : (emptiedDevice reason a s).flight = s.flight := by
  unfold emptiedDevice
  (repeat' split) <;> simp

@[simp] theorem emptySlot_flight (reason : EmptyReason) : (emptySlot reason a s).flight = s.flight := by
  unfold emptySlot
  (repeat' split) <;> simp

@[simp] theorem markFault_flight (cause : FaultCause) : (markFault a cause s).flight = s.flight := by
  unfold markFault
  cases cause <;> simp

@[simp] theorem enterFault_flight (cause : FaultCause) : (enterFault a cause s).flight = s.flight := by simp [enterFault]

/-! ## Completions and timeouts -/

theorem scanPosition_flight (w : RackWindow) (params : List Byte) : (scanPosition w params a s).flight = s.flight := by
  unfold scanPosition
  dsimp only
  (repeat' split) <;> simp

theorem scanComplete_flight (r : RackId) (params : List Byte) : (scanComplete r params s).flight = s.flight := by
  unfold scanComplete
  split
  · rfl
  · refine (forEach_flight _ (fun a u => clearOwed_flight u a) _).trans ((forEach_flight _ (fun a u => scanPosition_flight u a ..) _).trans ?_)
    exact modRack_flight ..

@[simp] theorem unbindRoster_flight (k : RosterId) : (unbindRoster k s).flight = s.flight := by
  unfold unbindRoster
  exact ((Moored.refl _).sourceOff.flight_eq).trans (setRoster_flight ..)

@[simp] theorem bindRoster_flight (k : RosterId) (id : DeviceId) : (bindRoster k id s).flight = s.flight := by
  unfold bindRoster
  dsimp only
  split
  · exact ((Moored.refl _).sourceWaiting.flight_eq).trans (setRoster_flight ..)
  · exact setRoster_flight ..

@[simp] theorem freeGroup_flight (g : GroupId) : (freeGroup g s).flight = s.flight := by
  unfold freeGroup
  dsimp only
  split <;> rfl

@[simp] theorem closeIfEmpty_flight (g : GroupId) : (closeIfEmpty g s).flight = s.flight := by
  unfold closeIfEmpty
  dsimp only
  split <;> simp

@[simp] theorem returnDevice_flight (d : Device) (n : Nat) : (returnDevice d a n s).flight = s.flight := by
  unfold returnDevice
  dsimp only
  (repeat' split) <;> simp

@[simp] theorem occupySlot_flight (id : DeviceId) (k : DeviceKind) (n : Nat) : (occupySlot a id k n s).flight = s.flight := by
  simp [occupySlot]

@[simp] theorem probeOutcome_flight (id : DeviceId) (k : DeviceKind) (n : Nat) : (probeOutcome a id k n s).flight = s.flight := by
  unfold probeOutcome
  dsimp only
  (repeat' split) <;> simp
  rfl

theorem probeComplete_flight (params : List Byte) : (probeComplete a params s).flight = s.flight := by
  unfold probeComplete
  dsimp only
  (repeat' split) <;> simp

theorem pollComplete_flight (params : List Byte) : (pollComplete a params s).flight = s.flight := by
  unfold pollComplete
  dsimp only
  split <;> simp

@[simp] theorem issueDevice_flight (g : GroupId) (o : IssueOperation) (id : DeviceId) : (issueDevice g o a id s).flight = s.flight := by
  unfold issueDevice
  dsimp only
  split <;> simp

theorem releaseAnswered_flight : (releaseAnswered a s).flight = s.flight := by
  unfold releaseAnswered
  dsimp only
  (repeat' split) <;> simp

/-- No completion puts an exchange in flight. -/
theorem complete_flight (e : Exchange) (params : List Byte) : (complete e params s).flight = s.flight := by
  cases e with
  | scan r => exact scanComplete_flight ..
  | probe a => exact (probeComplete_flight ..).trans (setTimeouts_flight ..)
  | poll a => exact (pollComplete_flight ..).trans (setTimeouts_flight ..)
  | setCharge a m => exact (storeLevel_flight ..).trans (setTimeouts_flight ..)
  | tune a c g k => exact (tuneAnswered_flight ..).trans ((storeLevel_flight ..).trans (setTimeouts_flight ..))
  | release a => exact (releaseAnswered_flight ..).trans ((storeLevel_flight ..).trans (setTimeouts_flight ..))
  | clear a id => exact (setClear_flight ..).trans (setTimeouts_flight ..)

theorem slotTimeout_flight (e : Exchange) : (slotTimeout e a s).flight = s.flight := by
  unfold slotTimeout probeAgain
  (repeat' split) <;> simp

theorem scanTimeout_flight (r : RackId) : (scanTimeout r s).flight = s.flight := by
  unfold scanTimeout
  (repeat' split)
  · rfl
  · rfl
  · rfl
  · exact (forEach_flight _ (fun a u => emptySlot_flight u a _) _).trans ((raise_flight ..).trans (modRack_flight ..))

/-! ## The laws of what is in flight -/

section
variable {s t : State}

/-- The exchange in flight, unless its rack has been removed. -/
theorem liveInFlight_flight (s : State) : liveInFlight s = (s.flight.filter fun x => !x.doomed).toList.map InFlight.exchange := by
  unfold liveInFlight State.flight
  cases s.bus.inFlight with
  | none => rfl
  | some x =>
    obtain ⟨exchange, rack, position, number, settle, answer, doomed⟩ := x
    cases doomed <;> rfl

theorem liveInFlight_congr (flight : t.flight = s.flight) : liveInFlight t = liveInFlight s := by
  rw [liveInFlight_flight, flight, ← liveInFlight_flight]

theorem FlightSound.congr (sound : FlightSound s) (flight : t.flight = s.flight)
    (racks : ∀ (r : RackId) (w : RackWindow), s.racks[r] = some w → ∃ v, t.racks[r] = some v ∧ v.holds = w.holds) : FlightSound t := by
  intro x there
  have berth : x.berth ∈ s.flight := by
    rw [← flight]
    exact Option.mem_map_of_mem _ there
  obtain ⟨y, before, same⟩ := Option.map_eq_some_iff.mp berth
  have exchange : y.exchange = x.exchange := (congrArg InFlight.exchange same :)
  have rack : y.rack = x.rack := (congrArg InFlight.rack same :)
  have doomed : y.doomed = x.doomed := (congrArg InFlight.doomed same :)
  obtain ⟨goes, other⟩ := sound y before
  rw [exchange, rack, doomed] at *
  refine ⟨fun live => ?_, other⟩
  obtain ⟨w, defined, at_slot⟩ := goes live
  obtain ⟨v, after, same⟩ := racks _ w defined
  refine ⟨v, after, at_slot.imp_right ?_⟩
  rintro ⟨a, slot, holds⟩
  exact ⟨a, slot, by rw [same]; exact holds⟩

theorem Records.rack_after (h : Records s t) {r : RackId} {w : RackWindow} (rack : s.racks[r] = some w) :
    ∃ v, t.racks[r] = some v ∧ v.place = w.place := by
  have place := h.place r
  rw [rack] at place
  exact Option.map_eq_some_iff.mp place

/-- Work that leaves the windows and what is in flight. -/
theorem Held.served (h : Held (liveInFlight s) none none t) (sound : FlightSound s) (records : Records s t) (flight : t.flight = s.flight) :
    DockSound t := by
  rw [← liveInFlight_congr flight] at h
  exact h.dockSound (sound.congr flight fun _ _ rack => (records.rack_after rack).imp fun _ both => both.imp_right fun place => funext (holds_of_place place))

/-- With nothing in flight there is nothing to keep of it. -/
theorem Held.grounded (h : Held [] none none t) (flight : t.flight = none) : DockSound t := by
  have idle : t.bus.inFlight = none := Option.map_eq_none_iff.mp flight
  have live : liveInFlight t = [] := by
    unfold liveInFlight
    rw [idle]
  refine Held.dockSound (live ▸ h) fun x there => ?_
  rw [idle] at there
  cases there

end

end Sys2Proof.Machine
end

section
/-! PROOF. The end of an exchange keeps the laws: a good answer acted on, a timeout, a removed rack (R118 to R120). -/

namespace Sys2Proof.Machine

section
variable {flying : List Exchange} {bad : Option SlotAddr} {idle : Option GroupId} {s : State} {e : Exchange} {a : SlotAddr}

/-! ## The exchange in hand -/

/-- The laws see the bus by its queues and by what is in hand. -/
theorem Held.wired (h : Held flying bad idle s) (x : Option InFlight) (n : Byte) (p : Pins) :
    Held flying bad idle { s with bus := { s.bus with inFlight := x, number := n }, pins := p } where
  charged := h.charged.congr rfl rfl rfl
  table := h.table.congr rfl
  issues := h.issues.congr rfl fun _ => ⟨rfl, rfl⟩
  fleet := {
    posts := h.fleet.posts
    names := h.fleet.names
    outs := h.fleet.outs
    roster := ⟨h.fleet.roster.1, h.fleet.roster.2, h.fleet.roster.3, h.fleet.roster.4, h.fleet.roster.5⟩
    candidates := ⟨h.fleet.candidates.1, h.fleet.candidates.2⟩ }
  running := ⟨h.running.live, h.running.queued, h.running.probes, h.running.tasks⟩

theorem Held.freeBus (h : Held flying bad idle s) : Held flying bad idle (Machine.freeBus s) := h.wired none s.bus.number s.pins

/-- A slot exchange under way goes to a defined slot. -/
theorem Supported.slot (supported : Supported e s) (named : e.slot? = some a) : ∃ x, s.slots[a] = some x := by
  have occupied : ∃ o, (s.slots[a]).map Slot.occupancy = some o := by
    cases e with
    | scan r => cases named
    | probe b =>
      cases named
      exact ⟨_, supported⟩
    | poll b | setCharge b _ | tune b _ _ _ | release b | clear b _ => exact ⟨_, supported a named⟩
  obtain ⟨o, occupied⟩ := occupied
  obtain ⟨x, slot, -⟩ := Option.map_eq_some_iff.mp occupied
  exact ⟨x, slot⟩

theorem Held.supported (h : Held [e] none idle s) : Supported e s := backed_none.mp (h.running.live e List.mem_cons_self)

/-- A TUNE or RELEASE in hand is one that a candidate waits for. -/
theorem Held.tasked (h : Held [e] bad idle s) (cls : classOf e = 2) :
    ∃ o ∈ s.ops, ∃ c, o.candidate = some c ∧ taskOf o = some e ∧ c.waitsFor e := by
  have tasks := h.running.tasks
  rw [List.filter_cons_of_pos (p := fun e : Exchange => decide (classOf e = 2)) (decide_eq_true cls)] at tasks
  obtain ⟨o, mem, task⟩ := List.mem_filterMap.mp (tasks.subset (List.mem_append_left _ List.mem_cons_self))
  obtain ⟨c, candidate, waits, -, -⟩ := taskOf_class task
  exact ⟨o, mem, c, candidate, task, waits⟩

/-! ## Outcomes that no candidate waits for -/

theorem Held.discarded_other (h : Held flying bad idle s) (cls : classOf e ≠ 2) (emptying : Bool) :
    Held flying bad idle (deliverDiscarded emptying e s) := by
  cases e with
  | tune | release => exact absurd rfl cls
  | clear b id => exact h.setClear id .owed
  | scan | probe | poll | setCharge => exact h

theorem Held.timedOut_other (h : Held flying bad idle s) (cls : classOf e ≠ 2) : Held flying bad idle (deliverTimeout e s) := by
  cases e with
  | tune | release => exact absurd rfl cls
  | clear b id => exact h.setClear id .owed
  | setCharge b m =>
    refine h.moored ((Moored.refl s).modSlot fun x => ?_)
    split <;> rfl
  | scan | probe | poll => exact h

/-! ## A good answer (R118) -/

theorem Held.scanComplete (h : Held [] none none s) (r : RackId) (params : List Byte) : Held [] none none (Machine.scanComplete r params s) := by
  unfold Machine.scanComplete
  split
  · exact h
  · next w _ =>
    have online : Held [] none none (s.modRack r fun v => { v with rackState := .online, scanMisses := 0 }) :=
      h.moored ((Moored.refl s).modRack fun _ => rfl)
    have compared : Held [] none none (Machine.forEach w.addresses (Machine.scanPosition w params) _) :=
      Held.forEach (fun b u (held : Held [] none none u) => held.scanPosition (List.forall_mem_nil _) w params) w.addresses online
    exact Held.forEach (fun b u held => held.clearOwed b) w.addresses compared

theorem Held.pollComplete (h : Held [] none none s) (defined : (s.slots[a]).isSome) (params : List Byte) :
    Held [] none none (Machine.pollComplete a params s) := by
  have stored := h.storeLevel a (reportedLevel params 0)
  unfold Machine.pollComplete
  dsimp only
  split
  · have there := (Records.refl s).storeLevel (a := a) (level := reportedLevel params 0) |>.slot a
    rw [defined] at there
    obtain ⟨x, slot⟩ := Option.isSome_iff_exists.mp there
    exact stored.enterFault slot .device
  · exact stored.judgePoll a

theorem Held.complete (h : Held [e] none none s) (params : List Byte) : Held [] none none (Machine.complete e params s) := by
  have timed (a : SlotAddr) : Held [e] none none (Machine.setTimeouts a 0 s) := h.setTimeouts a 0
  have answered (a : SlotAddr) : Held [e] none none (Machine.storeLevel a (reportedLevel params 0) (Machine.setTimeouts a 0 s)) := (timed a).storeLevel ..
  cases e with
  | scan r => exact (h.land nofun).scanComplete r params
  | probe a => exact (timed a).probeComplete params
  | poll a =>
    obtain ⟨x, slot⟩ := (timed a).supported.slot rfl
    exact ((timed a).land nofun).pollComplete (Option.isSome_of_eq_some slot) params
  | setCharge a m => exact (answered a).land nofun
  | tune a k g j =>
    obtain ⟨o, mem, c, candidate, task, waits⟩ := (answered a).tasked rfl
    rcases waits with ⟨_, _, _, stage, same⟩ | ⟨-, other⟩
    · cases same
      exact (answered c.slot).tuneAnswered mem candidate task stage
    · cases other
  | release a =>
    obtain ⟨o, mem, c, candidate, task, waits⟩ := (answered a).tasked rfl
    rcases waits with ⟨_, _, _, -, other⟩ | ⟨stage, same⟩
    · cases other
    · cases same
      exact (answered c.slot).releaseAnswered mem candidate task stage
  | clear a id => exact ((timed a).land nofun).setClear id .none

/-! ## Timeouts (R119, R126) -/

theorem Held.slotTimeout (h : Held [e] none none s) (named : e.slot? = some a) : Held [] none none (Machine.slotTimeout e a s) := by
  have once : Held [e] none none (Machine.raise .dockTimeout a.val e.code (Machine.setTimeouts a 1 s)) := (h.setTimeouts a 1).raise
  have twice := h.setTimeouts a 2
  unfold Machine.slotTimeout
  split
  · by_cases cls : classOf e = 2
    · obtain ⟨o, mem, c, candidate, task, waits⟩ := once.tasked cls
      rw [probeAgain_eq waits, deliverTimeout_eq waits]
      exact once.candidateFails mem task false
    · cases e with
      | probe b =>
        cases named
        obtain ⟨x, slot⟩ := once.supported.slot rfl
        have probing : x.occupancy = .probing := by
          have supported : Option.map Slot.occupancy _ = some .probing := once.supported
          rw [slot] at supported
          exact Option.some.inj supported
        exact (once.land cls).askProbe ⟨nofun, once.probed_unqueued slot probing⟩
      | scan r => cases named
      | tune | release => exact absurd rfl cls
      | poll | setCharge | clear => exact (once.land cls).timedOut_other cls
  · by_cases cls : classOf e = 2
    · obtain ⟨o, mem, c, candidate, task, waits⟩ := twice.tasked cls
      cases named.symm.trans waits.named.1
      exact twice.candidateFaults mem candidate task .timeout
    · obtain ⟨x, slot⟩ := twice.supported.slot named
      exact ((twice.land cls).enterFault slot .timeout).timedOut_other cls

theorem Held.scanTimeout (h : Held [] none none s) (r : RackId) : Held [] none none (Machine.scanTimeout r s) := by
  unfold Machine.scanTimeout
  (repeat' split)
  · exact h
  · exact h
  · exact h.moored ((Moored.refl s).modRack fun _ => rfl)
  · have lost (b : SlotAddr) (u : State) (held : Held [] none none u) : Held [] none none (Machine.emptySlot .lost b u) :=
      held.emptySlot (List.forall_mem_nil _) nofun
    refine Held.forEach lost _ (Held.raise ?_)
    exact h.moored ((Moored.refl s).modRack fun _ => rfl)

end

/-! ## EXCHANGE_COMPLETE and EXCHANGE_TIMEOUT -/

section
variable {s t : State} {x : InFlight}

theorem DockSound.inHand (sound : DockSound s) (flight : s.bus.inFlight = some x) (live : x.doomed = false) :
    Held [x.exchange] none none (freeBus s) := by
  have held := dockSound_held sound
  unfold liveInFlight at held
  rw [flight] at held
  dsimp only at held
  rw [live] at held
  exact held.freeBus

theorem DockSound.flight (sound : DockSound s) : FlightSound s := sound.exchanges.2.2.1

/-- The exchange of a removed rack is no candidate's. -/
theorem DockSound.discards (sound : DockSound s) (flight : s.bus.inFlight = some x) (doomed : x.doomed = true) :
    DockSound (deliverDiscarded false x.exchange (freeBus s)) := by
  have held := dockSound_held sound
  unfold liveInFlight at held
  rw [flight] at held
  dsimp only at held
  rw [if_pos doomed] at held
  exact (held.freeBus.discarded_other ((sound.flight x flight).2 doomed) false).grounded (deliverDiscarded_flight ..)

theorem dockSound_complete (sound : DockSound s) (h : exec .exchangeComplete s = .next t) : DockSound t := by
  change execExchangeComplete s = _ at h
  unfold execExchangeComplete at h
  split at h
  · injection h with h
    exact h ▸ sound
  · next x flight =>
    split at h
    · injection h with h
      exact h ▸ sound
    · injection h with h
      subst h
      split
      · next doomed => exact sound.discards flight doomed
      · next live => exact ((sound.inHand flight (Bool.not_eq_true _ ▸ live)).complete _).grounded (complete_flight ..)

theorem dockSound_timeout (sound : DockSound s) (h : exec .exchangeTimeout s = .next t) : DockSound t := by
  change execExchangeTimeout s = _ at h
  unfold execExchangeTimeout at h
  split at h
  · injection h with h
    exact h ▸ sound
  · next x flight =>
    split at h
    · injection h with h
      exact h ▸ sound
    · split at h
      · next doomed =>
        injection h with h
        exact h ▸ sound.discards flight doomed
      · next live =>
        have held := sound.inHand flight (Bool.not_eq_true _ ▸ live)
        split at h
        · next r scan =>
          injection h with h
          rw [scan] at held
          exact h ▸ ((held.land nofun).scanTimeout r).grounded (scanTimeout_flight ..)
        · next other =>
          injection h with h
          subst h
          split
          · next a slot => exact (held.slotTimeout slot).grounded (slotTimeout_flight ..)
          · next none =>
            cases e : x.exchange with
            | scan r => exact absurd e (other r)
            | _ => rw [e] at none; cases none

end

end Sys2Proof.Machine
end

section
/-! PROOF. The start of an exchange, its request, and the soft reset keep the laws (R116, R117, R129). -/

namespace Sys2Proof.Machine

section
variable {s t : State} {e : Exchange}

/-! ## EXCHANGE_START -/

/-- A queued exchange is taken in hand. -/
theorem Held.launch (h : Held [] none none s) (queued : e ∈ s.bus.queues[e.queue]) : Held [e] none none (unqueue e s) := by
  have bounds := h.charged.windows.2.2.2
  have cases (q : Fin 6) : (s.bus.queues.set e.queue ((s.bus.queues[e.queue]).erase e))[q] =
      if q = e.queue then (s.bus.queues[e.queue]).erase e else s.bus.queues[q] := get_set_cases ..
  by_cases cls : e.queue = 1
  · exact h.take (by simpa only [cls] using queued) List.not_mem_nil
  · refine h.requeue (fun q => ?_) (fun f there => ?_) (fun q f there => ?_) ?_ ?_
    · rw [cases]
      split
      · next own =>
        subst own
        exact ⟨List.length_erase_le.trans (bounds _).1, fun f there => (bounds _).2 f (List.mem_of_mem_erase there)⟩
      · exact bounds q
    · rw [List.mem_singleton.mp there]
      exact h.running.queued _ e queued
    · rw [cases] at there
      split at there
      · exact h.running.queued _ f (List.mem_of_mem_erase there)
      · exact h.running.queued q f there
    · have single : (s.bus.queues[(2 : Fin 6)]).Nodup := h.running.probes
      rw [cases, List.singleton_append]
      split
      · next own =>
        have single : (s.bus.queues[e.queue]).Nodup := by simpa only [← own] using single
        exact (List.perm_cons_erase queued).nodup_iff.mp single
      · next other => exact List.nodup_cons.mpr ⟨fun there => other ((bounds 2).2 e there).symm, single⟩
    · have tunes : classOf e ≠ 2 := by
        rw [queue_eq_classOf]
        exact fun two => cls (Fin.ext (Nat.succ.inj two))
      rw [cases, if_neg (Ne.symm cls), List.filter_cons_of_neg (by simpa using tunes)]
      exact h.running.tasks

/-- An exchange under way goes to a window. -/
theorem Supported.goesTo (supported : Supported e s) (windows : WindowsSound s) : ∃ r w, GoesTo e r w s := by
  by_cases named : e.slot? = none
  · cases e with
    | scan r =>
      obtain ⟨w, rack⟩ := Option.ne_none_iff_exists'.mp supported
      exact ⟨r, w, rack, .inl rfl⟩
    | _ => cases named
  · obtain ⟨a, slot⟩ := Option.ne_none_iff_exists'.mp named
    obtain ⟨x, defined⟩ := supported.slot slot
    obtain ⟨r, w, stands⟩ := windows.stands_slot defined
    exact ⟨r, w, stands.rack, .inr ⟨a, slot, stands.holds⟩⟩

theorem dockSound_start (sound : DockSound s) (h : exec .exchangeStart s = .next t) : DockSound t := by
  change execExchangeStart s = _ at h
  unfold execExchangeStart at h
  split at h
  · next e free head =>
    injection h with h
    have idle : liveInFlight s = [] := by
      unfold liveInFlight
      rw [free]
    have held : Held [] none none s := idle ▸ dockSound_held sound
    obtain ⟨-, q, queued⟩ := mem_queuedWhere.mp (List.mem_of_mem_head? head)
    obtain rfl := (sound.windows.2.2.2 q).2 e queued
    obtain ⟨r, w, goes⟩ := (backed_none.mp (held.running.queued _ e queued)).goesTo sound.windows
    rw [← h, launched_of_goesTo sound.windows goes]
    refine Held.dockSound ((held.launch queued).wired ..) fun x flight => ?_
    cases flight
    exact ⟨fun _ => ⟨w, goes⟩, nofun⟩
  · injection h with h
    exact h ▸ sound

/-! ## Requests for exchanges -/

theorem dockSound_scan {r : RackId} (sound : DockSound s) (defined : (s.racks[r]).isSome) : DockSound (ask (.scan r) s) :=
  Held.served ((dockSound_held sound).ask (fun _ => .inl (Option.isSome_iff_ne_none.mp defined)) nofun nofun) sound.flight
    (Records.refl s).ask (ask_flight ..)

theorem dockSound_poll {a : SlotAddr} (sound : DockSound s) : DockSound (ask (.poll a) s) :=
  Held.served ((dockSound_held sound).askSlot nofun nofun nofun) sound.flight (Records.refl s).ask (ask_flight ..)

theorem dockSound_setCharge {a : SlotAddr} {m : ChargeMode} (sound : DockSound s) : DockSound (requestSetCharge a m s) := by
  have work : Charging s (requestSetCharge a m s) := (Charging.refl s).requestSetCharge
  exact Held.served ((dockSound_held sound).requestSetCharge a m) sound.flight work.records work.flight_eq

end

end Sys2Proof.Machine
end

section
/-! PROOF. A soft reset keeps the laws: no slot holds a device, no operation runs, and the OUT devices keep their entries (R129, R163). -/

namespace Sys2Proof.Machine

/-- The account of a window none of whose slots charges. -/
theorem Account.opened {phase : SlotAddr → Option ChargePhase} {w : RackWindow} (sessions : w.sessions = []) (admission : w.admission = [])
    (committed : w.committed = 0) (idle : ∀ a, w.holds a = true → phase a = some .none) : Account phase [] w where
  sessions := sessions ▸ List.nodup_nil
  admission := admission ▸ List.nodup_nil
  committed := by
    rw [committed]
    refine (Finset.sum_eq_zero fun a there => ?_).symm
    rw [idle a (Finset.mem_filter.mp there).2]
    rfl
  session a := by
    rw [sessions]
    refine iff_of_false List.not_mem_nil fun ⟨holds, draws⟩ => draws ?_
    rw [idle a holds]
    rfl
  waits a := by
    rw [admission]
    refine iff_of_false List.not_mem_nil fun ⟨holds, waits, _⟩ => ?_
    rw [idle a holds] at waits
    cases waits

section
variable {s : State}

/-! ## Devices and groups after a soft reset -/

theorem softReset_state (d : Device) : d.softReset.state = if d.state = .docked then .unseen else d.state := rfl

theorem softReset_out (d : Device) : d.softReset.state = .out ↔ d.state = .out := by
  rw [softReset_state]
  cases d.state <;> decide

theorem softReset_undocked (d : Device) : d.softReset.state ≠ .docked := by
  rw [softReset_state]
  cases d.state <;> decide

theorem softReset_group (s : State) (g : GroupId) : (softResetBlocks s).groups[g] = (s.groups[g]).softReset := mapAll_get ..

theorem softReset_rack (s : State) (r : RackId) : (softResetBlocks s).racks[r] = (s.racks[r]).map RackWindow.softReset := mapAll_get ..

theorem softReset_outOf (g : GroupId) (s : State) : outOf g (softResetBlocks s) = outOf g s := by
  unfold outOf softResetBlocks
  rw [List.filter_map, List.length_map]
  refine congrArg List.length (List.filter_congr fun d _ => ?_)
  exact decide_eq_decide.mpr (and_congr_left fun _ => softReset_out d)

theorem softReset_outs (outs : OutCountsSound s) : OutCountsSound (softResetBlocks s) := by
  refine ⟨fun e there => ?_, fun g => ?_⟩
  · obtain ⟨d, mem, rfl⟩ := List.mem_map.mp there
    exact (softReset_out d).trans (outs.1 d mem)
  · rw [softReset_group, softReset_outOf]
    exact outs.2 g

theorem softReset_names (s : State) : NamesSound (softResetBlocks s) := by
  refine ⟨fun e there => ?_, fun a id named => ?_⟩
  · obtain ⟨d, -, rfl⟩ := List.mem_map.mp there
    exact ⟨fun docked => absurd docked (softReset_undocked d), fun _ => rfl⟩
  · unfold namedAt at named
    rw [slot_softReset] at named
    cases slot : s.slots[a] <;> rw [slot] at named <;> cases named

theorem softReset_roster (roster : RosterKept none s) : RosterKept none (softResetBlocks s) where
  bound k id := by
    have entry : (softResetBlocks s).roster[k] = (s.roster[k]).softReset := mapAll_get ..
    have kept : (s.roster[k]).softReset = .bound id ↔ s.roster[k] = .bound id := by cases s.roster[k] <;> simp [RosterEntry.softReset]
    rw [entry, kept, roster.bound k id]
    constructor
    · rintro ⟨d, mem, name, out, rest⟩
      exact ⟨d.softReset, List.mem_map_of_mem mem, name, (softReset_out d).mpr out, rest⟩
    · rintro ⟨e, there, name, out, rest⟩
      obtain ⟨d, mem, rfl⟩ := List.mem_map.mp there
      exact ⟨d, mem, name, (softReset_out d).mp out, rest⟩
  out e there out := by
    obtain ⟨d, mem, rfl⟩ := List.mem_map.mp there
    exact roster.out d mem ((softReset_out d).mp out)
  held k n its := by
    have entry : (softResetBlocks s).roster[k] = (s.roster[k]).softReset := mapAll_get ..
    rw [entry] at its
    cases before : s.roster[k] <;> rw [before] at its <;> cases its
  receiver := nofun
  mic := nofun

theorem softReset_slot {a : SlotAddr} {x : Slot} (slot : (softResetBlocks s).slots[a] = some x) : x = .initial := by
  rw [slot_softReset] at slot
  obtain ⟨y, -, rfl⟩ := Option.map_eq_some_iff.mp slot
  rfl

theorem softReset_fleet (fleet : Fleet none none s) : Fleet none none (softResetBlocks s) where
  posts := fun a x slot => by
    rw [softReset_slot slot]
    exact ⟨fun reserved => absurd rfl reserved, nofun, fun _ => rfl⟩
  names := softReset_names s
  outs := softReset_outs fleet.outs
  roster := softReset_roster fleet.roster
  candidates := {
    each := nofun
    reserved := fun a n reserved => by
      unfold reservedAt at reserved
      cases slot : (softResetBlocks s).slots[a] with
      | none => rw [slot] at reserved; cases reserved
      | some x => rw [slot, softReset_slot slot] at reserved; cases reserved }

theorem Fleet.setQueue (fleet : Fleet none none s) (q : Fin 6) (l : List Exchange) : Fleet none none (s.setQueue q l) where
  posts := fleet.posts
  names := fleet.names
  outs := fleet.outs
  roster := ⟨fleet.roster.1, fleet.roster.2, fleet.roster.3, fleet.roster.4, fleet.roster.5⟩
  candidates := ⟨fleet.candidates.1, fleet.candidates.2⟩

/-! ## The soft reset -/

theorem softReset_accounts (windows : WindowsSound s) : Accounts [] (softResetBlocks s) := by
  intro r w rack
  rw [softReset_rack] at rack
  obtain ⟨v, before, rfl⟩ := Option.map_eq_some_iff.mp rack
  refine Account.opened rfl rfl rfl fun a holds => ?_
  obtain ⟨x, stands⟩ := windows.stands_rack before holds
  refine phaseAt_of (x := .initial) ?_
  rw [slot_softReset, stands.slot]
  rfl

/-- The laws of idle blocks with SCANs of defined windows queued. -/
theorem Held.scanning {l : List Exchange} (records : RecordsSound (s.setQueue 0 l)) (accounts : Accounts [] s)
    (idle : ∀ {a : SlotAddr} {x : Slot}, s.slots[a] = some x → x.phase = .none) (fleet : Fleet none none s) (ops : s.ops = [])
    (queues : ∀ q : Fin 6, s.bus.queues[q] = []) (scans : ∀ e ∈ l, ∃ r : RackId, e = .scan r ∧ (s.racks[r]).isSome) :
    Held [] none none (s.setQueue 0 l) := by
  have queue (q : Fin 6) : (s.setQueue 0 l).bus.queues[q] = if q = 0 then l else [] := by
    unfold State.setQueue
    rw [get_set_cases]
    exact if_congr Iff.rfl rfl (queues q)
  obtain ⟨windows, table, issues⟩ := records
  exact {
    charged := ⟨windows, accounts, fun slot charges => absurd (idle slot) charges⟩
    table := table
    issues := issues
    fleet := fleet.setQueue 0 l
    running := {
      live := nofun
      queued := fun q e there => by
        rw [queue] at there
        split at there
        · obtain ⟨r, rfl, defined⟩ := scans e there
          exact .inl (Option.isSome_iff_ne_none.mp defined)
        · cases there
      probes := by
        rw [queue]
        exact List.nodup_nil
      tasks := by
        rw [queue, show (s.setQueue 0 l).ops = [] from ops]
        exact .refl _ } }

theorem dockSound_softReset (sound : DockSound s) : DockSound (softReset s) := by
  have records := (softReset_records s).sound sound.1
  rw [softReset_eq] at records ⊢
  refine Held.grounded (Held.scanning records (softReset_accounts sound.windows) (fun slot => by rw [softReset_slot slot]; rfl)
    (softReset_fleet (dockSound_held sound).fleet) rfl (fun q => idle_queue ..) fun e there => ?_) rfl
  obtain ⟨r, mem, rfl⟩ := List.mem_map.mp there
  refine ⟨r, rfl, ?_⟩
  rw [softReset_rack, Option.isSome_map]
  exact (List.mem_filter.mp mem).2

end

end Sys2Proof.Machine
end

section
/-! PROOF. Budgets and the charge configuration keep the laws: sessions are shed and handed back to their account (R141 to R143). -/

namespace Sys2Proof.Machine

section
variable {limbo limbo' : List SlotAddr} {bad : Option SlotAddr} {flying : List Exchange} {idle : Option GroupId} {s t : State} {r : RackId}
  {w v : RackWindow} {a : SlotAddr} {x : Slot}

/-! ## A window written -/

/-- A window keeps its place and takes another account, or another budget. -/
theorem WindowsSound.rewindow (windows : WindowsSound s) (rack : s.racks[r] = some w)
    (same : v.base = w.base ∧ v.size = w.size ∧ v.settle = w.settle) (rich : v.budget ≤ 10000)
    (members : ∀ a ∈ v.sessions ++ v.admission, w.holds a = true) : WindowsSound (s.setRack r (some v)) := by
  obtain ⟨each, apart, matched, queues⟩ := windows
  obtain ⟨base, size, settle⟩ := same
  have holds : v.holds = w.holds := funext fun b => holds_congr base size b
  have at_rack (q : RackId) : (s.setRack r (some v)).racks[q] = if q = r then some v else s.racks[q] := get_set_cases ..
  have before {q : RackId} {u : RackWindow} (there : (s.setRack r (some v)).racks[q] = some u) : ∃ m, s.racks[q] = some m ∧ u.holds = m.holds := by
    rw [at_rack] at there
    split at there
    · next own =>
      cases there
      exact ⟨w, own ▸ rack, holds⟩
    · exact ⟨u, there, rfl⟩
  have after {q : RackId} {m : RackWindow} (there : s.racks[q] = some m) : ∃ u, (s.setRack r (some v)).racks[q] = some u ∧ u.holds = m.holds := by
    rw [at_rack]
    split
    · next own =>
      rw [own, rack] at there
      cases there
      exact ⟨v, rfl, holds⟩
    · exact ⟨m, there, rfl⟩
  refine ⟨fun q u there => ?_, fun q p u hu m hm b => ?_, fun b => (matched b).trans ⟨?_, ?_⟩, queues⟩
  · rw [Option.mem_def, at_rack] at there
    split at there
    · cases there
      obtain ⟨legal, aligned, within, settled, -⟩ := each r w rack
      rw [size, base, settle, holds]
      exact ⟨legal, aligned, within, settled, rich, members⟩
    · exact each q u there
  · obtain ⟨u', hu', same⟩ := before hu
    obtain ⟨m', hm', same'⟩ := before hm
    rw [same, same']
    exact apart q p u' hu' m' hm' b
  · rintro ⟨q, m, there, held⟩
    obtain ⟨u, there', same⟩ := after there
    exact ⟨q, u, there', same ▸ held⟩
  · rintro ⟨q, u, there, held⟩
    obtain ⟨m, there', same⟩ := before there
    exact ⟨q, m, there', same ▸ held⟩

/-- The slots of one window leave limbo when its account takes them in. -/
theorem Charged.rewindow (h : Charged limbo bad s) (rack : s.racks[r] = some w) (same : v.base = w.base ∧ v.size = w.size ∧ v.settle = w.settle)
    (rich : v.budget ≤ 10000) (account : Account (phaseAt s) [] v) (within : ∀ b ∈ limbo, w.holds b = true) :
    Charged [] bad (s.setRack r (some v)) where
  windows := by
    have holds (b : SlotAddr) : v.holds b = w.holds b := holds_congr same.1 same.2.1 b
    refine h.windows.rewindow rack same rich fun b mem => (holds b).symm.trans ?_
    rcases List.mem_append.mp mem with there | there
    · exact ((account.session b).mp there).1
    · exact ((account.waits b).mp there).1
  accounts := by
    intro q u there
    rw [show (s.setRack r (some v)).racks[q] = if q = r then some v else s.racks[q] from get_set_cases ..] at there
    split at there
    · cases there
      exact account
    · next other =>
      obtain ⟨sessions, admission, committed, session, waits⟩ := h.accounts q u there
      refine ⟨sessions, admission, committed, session, fun b => (waits b).trans (and_congr_right fun held => and_congr_right fun _ => ?_)⟩
      exact iff_of_true (fun mem => other (h.windows.2.1 q r u there w rack b held (within b mem))) List.not_mem_nil
  charges := h.charges

/-- The charge controller's work, and at its end a window written. -/
theorem Held.recharged (h : Held flying bad idle s) (work : Charging s t) (rack : t.racks[r] = some w)
    (charged : Charged [] bad (t.setRack r (some v))) : Held flying bad idle (t.setRack r (some v)) := by
  have abiding := work.abiding
  refine h.abiding ⟨abiding.tag, abiding.devices, abiding.groups, abiding.ops, abiding.roster⟩ charged
    ((work.records.issues h.issues).congr rfl fun _ => ⟨rfl, rfl⟩) (fun q => ?_) (work.others 1 (by decide) (by decide))
    (work.others 2 (by decide) (by decide)) fun q e mem => ?_
  · rw [← work.racks_isSome q, show (t.setRack r (some v)).racks[q] = if q = r then some v else t.racks[q] from get_set_cases ..]
    split
    · next own => rw [own, rack]; rfl
    · rfl
  · rcases work.queued q e with fewer | ⟨cls, allowed⟩
    · exact .inl (List.count_pos_iff.mp ((List.count_pos_iff.mpr mem).trans_le fewer))
    · by_cases slot : e.slot? = none
      · cases e with
        | scan r => exact .inl (work.others q (by rintro rfl; cases cls) (by rintro rfl; cases cls) ▸ mem)
        | _ => cases slot
      · exact .inr (.inl (supported_of_allowed allowed slot))

/-! ## Shedding (R142) -/

theorem nextShed_draws (next : nextShed w s = some a) : a ∈ w.sessions ∧ (phaseAt s a = some .bulk ∨ phaseAt s a = some .top) := by
  have found {p : ChargePhase} (first : w.sessions.reverse.find? (fun a => decide ((s.slots[a]).map Slot.phase = some p)) = some a) :
      a ∈ w.sessions ∧ phaseAt s a = some p := by
    have phase := List.find?_some first
    exact ⟨List.mem_reverse.mp (List.mem_of_find?_eq_some first), of_decide_eq_true phase⟩
  unfold nextShed at next
  dsimp only at next
  cases bulk : w.sessions.reverse.find? (fun a => decide ((s.slots[a]).map Slot.phase = some .bulk)) with
  | some b =>
    rw [bulk] at next
    cases next
    exact (found bulk).imp_right .inl
  | none =>
    rw [bulk] at next
    exact (found next).imp_right .inr

theorem shedOne_eq (stands : Stands s r w a x) : shedOne r a s = requestSetCharge a .off
    ((s.setRack r (some (w.withoutSession a x.phase.draw))).setSlot a (some { x with topCounter := 0, phase := .waiting })) := by
  unfold shedOne
  rw [stands.slot]
  dsimp only [Option.map_some, Option.getD_some]
  rw [modRack_eq stands.rack, setRack_modSlot stands.slot]

theorem shedOne_phaseAt (stands : Stands s r w a x) (b : SlotAddr) : phaseAt (shedOne r a s) b = if b = a then some .waiting else phaseAt s b := by
  rw [shedOne_eq stands, requestSetCharge_phaseAt]
  exact phaseAt_set (s := s) (t := (s.setRack r (some (w.withoutSession a x.phase.draw))).setSlot a _) rfl b

/-- A slot shed waits in limbo. -/
theorem Charged.shedOne (h : Charged limbo bad s) (stands : Stands s r w a x) (draws : phaseAt s a = some .bulk ∨ phaseAt s a = some .top) :
    Charged (a :: limbo) bad (Machine.shedOne r a s) := by
  have phase := phaseAt_of stands.slot
  have charges := h.charges stands.slot fun none => by
    rw [none] at phase
    rw [phase] at draws
    rcases draws with draws | draws <;> cases draws
  have session : phaseAt s a = some .bulk ∧ x.phase.draw = 450 ∨ phaseAt s a = some .top ∧ x.phase.draw = 120 := by
    refine draws.imp (fun bulk => ⟨bulk, ?_⟩) fun top => ⟨top, ?_⟩
    · rw [Option.some.inj (phase.symm.trans bulk)]
      rfl
    · rw [Option.some.inj (phase.symm.trans top)]
      rfl
  have others (b : SlotAddr) (other : b ≠ a) : b ∈ a :: limbo ↔ b ∈ limbo := by
    rw [List.mem_cons, or_iff_right other]
  have account := (h.accounts r w stands.rack).endSession (p := .waiting) (limbo' := a :: limbo) stands.holds session rfl
    (fun _ => List.mem_cons_self) others
  rw [shedOne_eq stands]
  exact (h.write (y := { x with topCounter := 0, phase := .waiting }) stands (withoutSession_place ..) account others fun _ =>
    charges).requestSetCharge a .off

/-- What shedding leaves: the slots it answers are in limbo too, and had sessions. -/
theorem Charged.shedLoop (n : Nat) (h : Charged limbo bad s) (waits : ∀ b ∈ limbo, phaseAt s b = some .waiting) (rack : s.racks[r] = some w) :
    ∃ limbo', Charged limbo' bad (Machine.shedLoop n r s).2 ∧ (∀ b, b ∈ limbo' ↔ b ∈ (Machine.shedLoop n r s).1 ∨ b ∈ limbo) ∧
      (∀ b ∈ limbo', phaseAt (Machine.shedLoop n r s).2 b = some .waiting) ∧ ∀ b ∈ (Machine.shedLoop n r s).1, b ∈ w.sessions := by
  induction n generalizing limbo s w with
  | zero => exact ⟨limbo, h, fun b => (or_iff_right List.not_mem_nil).symm, waits, nofun⟩
  | succ n ih =>
    have stays : ∃ limbo', Charged limbo' bad s ∧ (∀ b, b ∈ limbo' ↔ b ∈ ([] : List SlotAddr) ∨ b ∈ limbo) ∧
        (∀ b ∈ limbo', phaseAt s b = some .waiting) ∧ ∀ b ∈ ([] : List SlotAddr), b ∈ w.sessions :=
      ⟨limbo, h, fun b => (or_iff_right List.not_mem_nil).symm, waits, nofun⟩
    unfold Machine.shedLoop
    rw [rack]
    dsimp only
    split
    · exact stays
    · split
      · exact stays
      · next a next =>
        obtain ⟨seated, draws⟩ := nextShed_draws next
        obtain ⟨x, stands⟩ := h.windows.stands_rack rack (((h.accounts r w rack).session a).mp seated).1
        have shed := h.shedOne stands draws
        have rack' : (Machine.shedOne r a s).racks[r] = some (w.withoutSession a x.phase.draw) := by
          rw [shedOne_eq stands, requestSetCharge_racks]
          exact get_set_same ..
        obtain ⟨limbo', charged, members, waiting, sessions⟩ := ih shed (fun b mem => by
          rw [shedOne_phaseAt stands]
          split
          · rfl
          · next other => exact waits b ((List.mem_cons.mp mem).resolve_left other)) rack'
        refine ⟨limbo', charged, fun b => ?_, waiting, fun b mem => ?_⟩
        · rw [members, List.mem_cons, List.mem_cons, or_assoc, or_left_comm]
        · rcases List.mem_cons.mp mem with rfl | there
          · exact seated
          · exact List.mem_of_mem_erase (sessions b there)

theorem Held.shed (h : Held flying bad idle s) (r : RackId) : Held flying bad idle (Machine.shed r s).2 := by
  unfold Machine.shed
  split
  · exact h
  · next w rack =>
    obtain ⟨limbo, charged, members, waiting, sessions⟩ := h.charged.shedLoop (limbo := []) w.sessions.length nofun rack
    have work : Charging s (Machine.shedLoop w.sessions.length r s).2 := (Charging.refl s).shedLoop
    obtain ⟨v, after, place⟩ := work.records.rack_after rack
    dsimp only
    generalize Machine.shedLoop w.sessions.length r s = p at *
    have gone (b : SlotAddr) : b ∈ limbo ↔ b ∈ p.1 := (members b).trans (or_iff_left List.not_mem_nil)
    have account := h.charged.accounts r w rack
    have holds (b : SlotAddr) : v.holds b = w.holds b := holds_of_place place b
    have within (b : SlotAddr) (mem : b ∈ limbo) : w.holds b = true := ((account.session b).mp (sessions b ((gone b).mp mem))).1
    split
    · next none =>
      have empty : limbo = [] := List.eq_nil_iff_forall_not_mem.mpr fun b mem => by
        have there := (gone b).mp mem
        rw [none] at there
        cases there
      exact h.charging work (empty ▸ charged)
    · have handed := (charged.accounts r v after).handBack (account.sessions.filter fun b => decide (b ∈ p.1))
        (fun b => by
          rw [List.mem_filter, decide_eq_true_eq, gone, holds]
          exact ⟨fun ⟨seated, shed⟩ => ⟨shed, within b ((gone b).mpr shed)⟩, fun ⟨shed, _⟩ => ⟨sessions b shed, shed⟩⟩)
        fun b mem _ => waiting b mem
      have legal : v.budget ≤ 10000 := (charged.windows.1 r v after).2.2.2.2.1
      have back := charged.rewindow (bad := bad) (v := { v with shedPart := w.sessions.filter (fun b => decide (b ∈ p.1)) ++ v.shedPart }) after
        ⟨rfl, rfl, rfl⟩ legal handed fun b mem => (holds b).trans (within b mem)
      refine Held.attempt (Held.raise ?_) r
      rw [modRack_eq after]
      exact h.recharged work after back

/-! ## RACK_BUDGET and CHARGE_CONFIG (R141, R143) -/

theorem Held.writeBudget (h : Held flying bad idle s) (rack : s.racks[r] = some w) {budget : Nat} (rich : budget ≤ 10000) :
    Held flying bad idle (Machine.writeBudget r w budget s).2 := by
  have account := h.charged.accounts r w rack
  have written : Held flying bad idle (s.modRack r fun v => { v with budget := budget }) := by
    rw [modRack_eq rack]
    refine h.recharged (.refl s) rack (h.charged.rewindow rack ⟨rfl, rfl, rfl⟩ rich ?_ nofun)
    exact ⟨account.sessions, account.admission, account.committed, account.session, account.waits⟩
  unfold Machine.writeBudget
  dsimp only
  split
  · exact written.shed r
  · split
    · exact written.attempt r
    · exact written

end

end Sys2Proof.Machine
end

section
/-! PROOF. The requests of the fleet manager keep the laws: DEVICE_FORGET, GROUP_OPEN, GROUP_CLOSE and ISSUE (R147 to R149, R152). -/

namespace Sys2Proof.Machine

section
variable {flying : List Exchange} {bad : Option SlotAddr} {idle : Option GroupId} {s : State} {d : Device} {g : GroupId} {x : Group}

/-! ## DEVICE_FORGET (R147) -/

/-- An UNSEEN device's record goes. -/
theorem Held.forget (h : Held flying bad idle s) (known : d ∈ s.devices) (unseen : d.state = .unseen) :
    Held flying bad idle { s with devices := s.devices.filter fun e => e.id ≠ d.id } := by
  let u : State := { s with devices := s.devices.filter fun e => e.id ≠ d.id }
  have stays {e : Device} (there : e ∈ s.devices) (seen : e.state ≠ .unseen) : e ∈ u.devices :=
    List.mem_filter.mpr ⟨there, decide_eq_true fun same => seen (eq_of_id_eq h.table there known same ▸ unseen)⟩
  have before {e : Device} (there : e ∈ u.devices) : e ∈ s.devices := List.mem_of_mem_filter there
  have count (k : GroupId) : outOf k u = outOf k s := by
    unfold outOf
    refine congrArg List.length ?_
    rw [List.filter_filter]
    refine List.filter_congr fun e there => ?_
    by_cases out : e.state = .out ∧ e.assignment.map Assignment.group = some k
    · have other : e.id ≠ d.id := (of_decide_eq_true (List.mem_filter.mp (stays there (by rw [out.1]; nofun))).2 :)
      rw [decide_eq_true out, decide_eq_true other, Bool.and_self]
    · rw [decide_eq_false out, Bool.false_and]
  exact {
    charged := h.charged.congr rfl rfl rfl
    table := by
      obtain ⟨few, nodup, zero⟩ := h.table
      exact ⟨(List.length_filter_le ..).trans few, nodup.sublist (List.filter_sublist.map _), fun e there => zero e (before there)⟩
    issues := h.issues.congr rfl fun _ => ⟨rfl, rfl⟩
    fleet := {
      posts := h.fleet.posts
      names := by
        refine ⟨fun e there => h.fleet.names.1 e (before there), fun a id named => ?_⟩
        obtain ⟨e, there, name, seen, slot⟩ := h.fleet.names.2 a id named
        exact ⟨e, stays there seen, name, seen, slot⟩
      outs := ⟨fun e there => h.fleet.outs.1 e (before there), fun k => by rw [count k]; exact h.fleet.outs.2 k⟩
      roster := {
        bound := fun k id => by
          refine (h.fleet.roster.bound k id).trans ⟨?_, ?_⟩
          · rintro ⟨e, there, name, out, rest⟩
            exact ⟨e, stays there (by rw [out]; nofun), name, out, rest⟩
          · rintro ⟨e, there, rest⟩
            exact ⟨e, before there, rest⟩
        out := fun e there => h.fleet.roster.out e (before there)
        held := h.fleet.roster.held
        receiver := h.fleet.roster.receiver
        mic := h.fleet.roster.mic }
      candidates := {
        each := fun o there => (h.fleet.candidates.each o there).imp_right fun ⟨c, candidate, reserved, e, mem, name, docked, kind⟩ =>
          ⟨c, candidate, reserved, e, stays mem (by rw [docked]; nofun), name, docked, kind⟩
        reserved := h.fleet.candidates.reserved } }
    running := ⟨h.running.live, h.running.queued, h.running.probes, h.running.tasks⟩ }

/-! ## Groups (R148, R149) -/

/-- A group's record changes, its count kept. -/
theorem Held.regroup (h : Held flying bad idle s) (issues : IssuesSound (s.setGroup g x)) (count : x.outCount = outOf g s)
    (free : x.state = .free → x.outCount = 0) : Held flying bad idle (s.setGroup g x) where
  charged := h.charged.congr rfl rfl rfl
  table := h.table.congr rfl
  issues := issues
  fleet := {
    posts := h.fleet.posts
    names := h.fleet.names
    outs := by
      refine ⟨h.fleet.outs.1, fun k => ?_⟩
      rw [show (s.setGroup g x).groups[k] = if k = g then x else s.groups[k] from get_set_cases ..]
      split
      · next own =>
        subst own
        exact ⟨count, free⟩
      · exact h.fleet.outs.2 k
    roster := ⟨h.fleet.roster.1, h.fleet.roster.2, h.fleet.roster.3, h.fleet.roster.4, h.fleet.roster.5⟩
    candidates := ⟨h.fleet.candidates.1, h.fleet.candidates.2⟩ }
  running := ⟨h.running.live, h.running.queued, h.running.probes, h.running.tasks⟩

theorem Held.modBound (h : Held flying bad idle s) (c : ChannelId) (f : Nat → Nat) : Held flying bad idle (s.modBound c f) :=
  h.moored ((Moored.refl s).aside rfl)

theorem Held.freeGroup (h : Held flying bad idle s) (quiet : s.groups[g].issueHandle = none) (empty : s.groups[g].outCount = 0) :
    Held flying bad idle (Machine.freeGroup g s) := by
  have records : Records s (s.setGroup g { s.groups[g] with state := .free, channel := none }) :=
    (Records.refl s).idleGroup fun sound => ⟨quiet, sound.absent quiet⟩
  have freed := h.regroup (records.issues h.issues) (h.fleet.outs.2 g).1 fun _ => empty
  unfold Machine.freeGroup
  dsimp only
  split
  · exact freed.modBound ..
  · exact freed

/-! ## ISSUE (R152) -/

/-- The roster entry of an operation about to be created is FREE, and is its own when it is for a microphone. -/
theorem Held.opened {o : IssueOperation} {entries : Vector RosterEntry 12} (h : Held flying bad none s)
    (issues : IssuesSound { s with groups := s.groups.set g x, roster := entries, ops := s.ops ++ [o] }) (group : o.group = g)
    (same : x.state = s.groups[g].state ∧ x.outCount = s.groups[g].outCount) (without : o.candidate = none) (unissued : o.issued = 0)
    (single : o.kind = .mic → o.count = 1 ∧ o.roster ≠ none) (seatless : o.kind = .receiver → o.roster = none)
    (free : ∀ k : RosterId, o.roster = some k → s.roster[k] = .free)
    (entry : ∀ k : RosterId, entries[k] = if o.roster = some k then .held (g.val + 1) else s.roster[k]) :
    Held flying bad (some g) { s with groups := s.groups.set g x, roster := entries, ops := s.ops ++ [o] } where
  charged := h.charged.congr rfl rfl rfl
  table := h.table.congr rfl
  issues := issues
  fleet := {
    posts := h.fleet.posts
    names := h.fleet.names
    outs := by
      refine ⟨h.fleet.outs.1, fun k => ?_⟩
      rw [show (s.groups.set g x)[k] = if k = g then x else s.groups[k] from get_set_cases ..]
      split
      · next own =>
        subst own
        rw [same.1, same.2]
        exact h.fleet.outs.2 k
      · exact h.fleet.outs.2 k
    roster := {
      bound := fun k id => by
        refine Iff.trans ?_ (h.fleet.roster.bound k id)
        rw [entry]
        split
        · next own => exact iff_of_false nofun (by rw [free k own]; nofun)
        · exact Iff.rfl
      out := h.fleet.roster.out
      held := fun k n its => by
        rw [entry] at its
        split at its
        · next own =>
          cases its
          exact ⟨o, List.mem_append_right _ List.mem_cons_self, by rw [group], own, unissued⟩
        · obtain ⟨p, there, rest⟩ := h.fleet.roster.held k n its
          exact ⟨p, List.mem_append_left _ there, rest⟩
      receiver := fun p there => by
        rcases List.mem_append.mp there with there | there
        · exact h.fleet.roster.receiver p there
        · rw [List.mem_singleton.mp there]
          exact seatless
      mic := fun p there mic => by
        rcases List.mem_append.mp there with there | there
        · obtain ⟨count, none, held⟩ := h.fleet.roster.mic p there mic
          refine ⟨count, fun _ => none nofun, fun first => ?_⟩
          obtain ⟨k, names, its⟩ := held first
          refine ⟨k, names, ?_⟩
          rw [entry, if_neg fun own => ?_]
          · exact its
          · rw [free k own] at its
            cases its
        · cases List.mem_singleton.mp there
          obtain ⟨count, seat⟩ := single mic
          obtain ⟨k, names⟩ := Option.ne_none_iff_exists'.mp seat
          exact ⟨count, fun _ => unissued, fun _ => ⟨k, names, by rw [entry, if_pos names, group]⟩⟩ }
    candidates := {
      each := fun p there => by
        rcases List.mem_append.mp there with there | there
        · exact .inr ((h.fleet.candidates.each p there).resolve_left fun both => by cases both.1)
        · rw [List.mem_singleton.mp there]
          exact .inl ⟨by rw [group], without⟩
      reserved := fun a n its => by
        obtain ⟨p, there, rest⟩ := h.fleet.candidates.reserved a n its
        exact ⟨p, List.mem_append_left _ there, rest⟩ } }
  running := {
    live := h.running.live
    queued := h.running.queued
    probes := h.running.probes
    tasks := by
      have idle : taskOf o = none := by
        unfold taskOf
        rw [without]
        rfl
      rw [List.filterMap_append, List.filterMap_cons_none idle, List.filterMap_nil, List.append_nil]
      exact h.running.tasks }

theorem Held.createOp (h : Held flying bad none s) (body : List Byte) (good : issueBadValue body = false)
    (opened : s.groups[g].state = .opened) (quiet : s.groups[g].issueHandle = none) (room : s.ops.length < 4)
    (unseated : rosterConflict (issueRoster body) s = false) : ∃ o ∈ (Machine.createOp g body s).ops, o.group = g ∧ o.candidate = none ∧
      o.issued = 0 ∧ o.cancel = false ∧ Held flying bad (some g) (Machine.createOp g body s) := by
  have records := createOp_records body opened quiet room
  let o : IssueOperation :=
    { group := g, kind := if field8 body 1 = 1 then .mic else .receiver, count := field8 body 2,
      minLevel := if body.length = 5 then min 100 (field8 body 4) else 80, roster := issueRoster body, issued := 0,
      cancel := false, retuned := false, candidate := none, tried := [] }
  let entries : Vector RosterEntry 12 := match issueRoster body with
    | some k => s.roster.set k (.held (g.val + 1))
    | none => s.roster
  let u : State := { s with groups := s.groups.set g { s.groups[g] with issueHandle := some (handleOf g), lastIssue := none }, roster := entries,
                            ops := s.ops ++ [o] }
  have created : Machine.createOp g body s = u := by
    unfold Machine.createOp u entries o
    cases issueRoster body <;> rfl
  rw [created] at records ⊢
  refine ⟨o, List.mem_append_right _ List.mem_cons_self, rfl, rfl, rfl, rfl, ?_⟩
  unfold issueBadValue at good
  simp only [decide_eq_false_iff_not, not_or, not_and, Nat.not_lt, not_not] at good
  obtain ⟨-, -, -, value⟩ := good
  have free (k : RosterId) (names : issueRoster body = some k) : s.roster[k] = .free := by
    rw [names] at unseated
    exact not_not.mp (of_decide_eq_false unseated)
  refine h.opened (o := o) (records.issues h.issues) rfl ⟨rfl, rfl⟩ rfl rfl (fun mic => ?_) (fun receiver => ?_) free fun k => ?_
  · have one : field8 body 1 = 1 := by
      by_contra other
      rw [show o.kind = .receiver from if_neg other] at mic
      cases mic
    obtain ⟨count, entry⟩ := value one
    refine ⟨count, ?_⟩
    change issueRoster body ≠ none
    rw [issueRoster, if_pos one, toIndex, dif_pos (by omega)]
    nofun
  · refine if_neg fun one => ?_
    rw [show o.kind = .mic from if_pos one] at receiver
    cases receiver
  · change entries[k] = if issueRoster body = some k then _ else _
    unfold entries
    cases issueRoster body with
    | none => rfl
    | some j =>
      rw [get_set_cases]
      exact if_congr (eq_comm.trans Option.some_inj.symm) rfl rfl

theorem Held.issue (h : Held flying bad none s) (body : List Byte) (good : issueBadValue body = false)
    (opened : s.groups[g].state = .opened) (quiet : s.groups[g].issueHandle = none) (room : s.ops.length < 4)
    (unseated : rosterConflict (issueRoster body) s = false) : Held flying bad none (chooseNext g (Machine.createOp g body s)) := by
  obtain ⟨o, mem, rfl, without, unissued, runs, held⟩ := h.createOp body good opened quiet room unseated
  have next := held.nextOrComplete mem without fun _ => unissued
  unfold Machine.nextOrComplete at next
  rw [op?_of_mem held.issues mem] at next
  dsimp only at next
  rw [runs] at next
  exact next

end

end Sys2Proof.Machine
end

section
/-! PROOF. The requests that leave the windows keep the laws, and so does RACK_DEFINE (R114, R128, R141, R143, R147 to R149, R152). -/

namespace Sys2Proof.Machine

section
variable {flying : List Exchange} {s t : State} {r : RackId} {w : RackWindow} (body : List Byte)

/-! ## Requests that leave the windows -/

/-- A request's work keeps the laws and what is in flight. -/
def Serves (s t : State) : Prop := (∀ flying, Held flying none none s → Held flying none none t) ∧ t.flight = s.flight

theorem Serves.refl (s : State) : Serves s s := ⟨fun _ h => h, rfl⟩

theorem Serves.dockSound (serves : Serves s t) (sound : DockSound s)
    (racks : ∀ (r : RackId) (w : RackWindow), s.racks[r] = some w → ∃ v, t.racks[r] = some v ∧ v.holds = w.holds) : DockSound t := by
  obtain ⟨held, flight⟩ := serves
  refine Held.dockSound (liveInFlight_congr flight ▸ held _ (dockSound_held sound)) (sound.flight.congr flight racks)

theorem takeChargeConfig_serves (s : State) : Serves s (takeChargeConfig body s).1 := by
  unfold takeChargeConfig
  dsimp only
  split
  · exact .refl s
  · refine ⟨fun flying h => Held.forEach (fun r u held => held.attempt r) _ (h.moored ((Moored.refl s).aside rfl)), ?_⟩
    exact forEach_flight _ (fun r u => attempt_flight u r) _

theorem shed_flight (r : RackId) (s : State) : (shed r s).2.flight = s.flight := by
  unfold shed
  split
  · rfl
  · dsimp only
    split <;> simp

theorem takeRackBudget_serves (s : State) : Serves s (takeRackBudget body s).1 := by
  unfold takeRackBudget
  split
  · exact .refl s
  · next r _ =>
    split
    · exact .refl s
    · next w rack =>
      dsimp only
      split
      · refine ⟨fun flying h => h.writeBudget rack (Nat.min_le_left ..), ?_⟩
        unfold writeBudget
        dsimp only
        (repeat' split) <;> simp [shed_flight]
      · exact .refl s

/-- A budget leaves the windows where they are. -/
theorem takeRackBudget_windows (q : RackId) (v : RackWindow) (rack : s.racks[q] = some v) :
    ∃ u, (takeRackBudget body s).1.racks[q] = some u ∧ u.holds = v.holds := by
  have kept {t u : State} (same : ∃ x, t.racks[q] = some x ∧ x.holds = v.holds) (records : Records t u) :
      ∃ x, u.racks[q] = some x ∧ x.holds = v.holds := by
    obtain ⟨x, before, holds⟩ := same
    obtain ⟨y, after, place⟩ := records.rack_after before
    exact ⟨y, after, (funext (holds_of_place place)).trans holds⟩
  have here : ∃ x, s.racks[q] = some x ∧ x.holds = v.holds := ⟨v, rack, rfl⟩
  unfold takeRackBudget
  split
  · exact here
  · next r _ =>
    split
    · exact here
    · dsimp only
      split
      · have written : ∃ x, (s.modRack r fun v => { v with budget := min 10000 (field16 body 1) }).racks[q] = some x ∧ x.holds = v.holds := by
          rw [show (s.modRack r fun v => { v with budget := min 10000 (field16 body 1) }).racks[q] =
            if q = r then (s.racks[r]).map fun v => { v with budget := min 10000 (field16 body 1) } else s.racks[q] from get_set_cases ..]
          split
          · next own =>
            rw [← own, rack]
            exact ⟨_, rfl, rfl⟩
          · exact here
        unfold writeBudget
        dsimp only
        split
        · exact kept written (Records.refl _).shed
        · split
          · exact kept written (Charging.refl _).attempt.records
          · exact written
      · exact here

theorem takeSlotClearFault_serves (s : State) : Serves s (takeSlotClearFault body s).1 := by
  unfold takeSlotClearFault
  split
  · exact .refl s
  · next a _ =>
    split
    · exact .refl s
    · next x slot =>
      split
      · exact .refl s
      · next fault =>
        refine ⟨fun flying h => h.clearFault slot (not_not.mp fault), ?_⟩
        unfold clearFault
        dsimp only
        (repeat' split) <;> simp

theorem takeDeviceForget_serves (sound : DevicesSound s) : Serves s (takeDeviceForget body s).1 := by
  unfold takeDeviceForget
  split
  · exact .refl s
  · next d found =>
    split
    · exact .refl s
    · next unseen => exact ⟨fun flying h => h.forget ((device?_eq_some sound).mp found).1 (not_not.mp unseen), rfl⟩

theorem takeGroupOpen_serves (s : State) : Serves s (takeGroupOpen body s).1 := by
  unfold takeGroupOpen
  split
  · next g c _ _ =>
    split
    · exact .refl s
    · next free =>
      split
      · exact .refl s
      · refine ⟨fun flying h => Held.modBound ?_ _ _, rfl⟩
        have records : Records s (s.setGroup g { state := .opened, channel := some c, outCount := 0, issueHandle := none, lastIssue := none }) :=
          (Records.refl s).idleGroup fun sound => ⟨rfl, (sound.idle (by rw [not_not.mp free]; nofun)).2⟩
        obtain ⟨count, empty⟩ := h.fleet.outs.2 g
        exact h.regroup (records.issues h.issues) ((empty (not_not.mp free)).symm.trans count) fun _ => rfl
  · exact .refl s

theorem takeGroupClose_serves (s : State) : Serves s (takeGroupClose body s).1 := by
  unfold takeGroupClose
  split
  · exact .refl s
  · next g _ =>
    dsimp only
    split
    · exact .refl s
    · split
      · exact .refl s
      · next quiet =>
        have handle : s.groups[g].issueHandle = none := by simpa using quiet
        split
        · next both => exact ⟨fun flying h => h.freeGroup handle both.2, freeGroup_flight ..⟩
        · refine ⟨fun flying h => ?_, rfl⟩
          have records : Records s (s.setGroup g { s.groups[g] with state := .closing }) :=
            (Records.refl s).idleGroup fun sound => ⟨handle, sound.absent handle⟩
          exact h.regroup (records.issues h.issues) (h.fleet.outs.2 g).1 nofun

theorem takeIssue_serves (s : State) : Serves s (takeIssue body s).1 := by
  unfold takeIssue
  split
  · exact .refl s
  · next g _ =>
    split
    · exact .refl s
    · next good =>
      split
      · exact .refl s
      · next opened =>
        split
        · exact .refl s
        · next quiet =>
          split
          · exact .refl s
          · next room =>
            split
            · exact .refl s
            · next unseated =>
              refine ⟨fun flying h => ?_, ?_⟩
              · exact h.issue body (by simpa using good) (not_not.mp opened) (by simpa using quiet) (Nat.not_le.mp room) (by simpa using unseated)
              · refine (chooseNext_flight ..).trans ?_
                unfold createOp
                dsimp only
                split <;> rfl

/-! ## Windows and slot records that come and go -/

/-- A window's account is told by its own slots' phases. -/
theorem Account.congrPhase {phase phase' : SlotAddr → Option ChargePhase} (account : Account phase [] w)
    (same : ∀ a, w.holds a = true → phase' a = phase a) : Account phase' [] w where
  sessions := account.sessions
  admission := account.admission
  committed := by
    rw [account.committed]
    exact Finset.sum_congr rfl fun a there => by rw [same a (Finset.mem_filter.mp there).2]
  session a := (account.session a).trans (and_congr_right fun holds => by rw [same a holds])
  waits a := (account.waits a).trans (and_congr_right fun holds => by rw [same a holds])

/-- Records without a name and a reservation come and go, and nothing under way is for them. -/
theorem Held.resited {v : Vector (Option RackWindow) 8} {l : Vector (Option Slot) 256} (h : Held flying none none s)
    (charged : Charged [] none { s with racks := v, slots := l })
    (slots : ∀ a : SlotAddr, l[a] = s.slots[a] ∨ (namedAt s a = none ∧ reservedAt s a = none ∧ ∀ x, l[a] = some x → x = .initial))
    (supported : ∀ e, (e ∈ flying ∨ ∃ q : Fin 6, e ∈ s.bus.queues[q]) → Supported e s → Supported e { s with racks := v, slots := l }) :
    Held flying none none { s with racks := v, slots := l } := by
  let u : State := { s with racks := v, slots := l }
  have named (a : SlotAddr) : namedAt u a = namedAt s a := by
    rcases slots a with same | ⟨none, -, initial⟩
    · exact congrArg (fun x => x.bind Slot.deviceId) same
    · rw [none]
      change (l[a]).bind Slot.deviceId = Option.none
      cases there : l[a] with
      | none => rfl
      | some x => rw [initial x there]; rfl
  have reserved (a : SlotAddr) : reservedAt u a = reservedAt s a := by
    rcases slots a with same | ⟨-, none, initial⟩
    · exact congrArg (fun x => x.bind Slot.reservation) same
    · rw [none]
      change (l[a]).bind Slot.reservation = Option.none
      cases there : l[a] with
      | none => rfl
      | some x => rw [initial x there]; rfl
  exact {
    charged := charged
    table := h.table.congr rfl
    issues := h.issues.congr rfl fun _ => ⟨rfl, rfl⟩
    fleet := {
      posts := fun a x there => by
        rcases slots a with same | ⟨-, -, initial⟩
        · exact h.fleet.posts a x (same.symm.trans there)
        · rw [initial x there]
          exact ⟨fun reserved => absurd rfl reserved, nofun, fun _ => rfl⟩
      names := h.fleet.names.congr named rfl
      outs := h.fleet.outs
      roster := ⟨h.fleet.roster.1, h.fleet.roster.2, h.fleet.roster.3, h.fleet.roster.4, h.fleet.roster.5⟩
      candidates := {
        each := fun o there => (h.fleet.candidates.each o there).imp_right fun ⟨c, candidate, its, e, mem, name, rest⟩ =>
          ⟨c, candidate, (reserved _).trans its, e, mem, (named _).trans name, rest⟩
        reserved := fun a n its => h.fleet.candidates.reserved a n ((reserved a).symm.trans its) } }
    running := {
      live := fun e there => backed_none.mpr (supported e (.inl there) (backed_none.mp (h.running.live e there)))
      queued := fun q e there => backed_none.mpr (supported e (.inr ⟨q, there⟩) (backed_none.mp (h.running.queued q e there)))
      probes := h.running.probes
      tasks := h.running.tasks } }

/-! ## RACK_DEFINE (R114) -/

theorem Held.define (h : Held flying none none s) (free : s.racks[r] = none)
    (legal : w.size ∈ [4, 8, 16, 32] ∧ w.base % w.size = 0 ∧ w.base + w.size ≤ 256 ∧ w.settle ≤ 15 ∧ w.budget ≤ 10000)
    (sessions : w.sessions = []) (admission : w.admission = []) (committed : w.committed = 0)
    (apart : ∀ (q : RackId) (v : RackWindow) (a : SlotAddr), s.racks[q] = some v → v.holds a = true → w.holds a = false) :
    Held flying none none (defineRack r w s) := by
  have idle : w.members = [] := by
    unfold RackWindow.members
    rw [sessions, admission]
    rfl
  have windows := h.charged.windows.define (x := .initial) free legal idle apart
  unfold defineRack
  rw [forEach_addresses] at windows ⊢
  let l : Vector (Option Slot) 256 := Vector.ofFn fun a : SlotAddr => if w.holds a then some .initial else s.slots[a]
  have slots (a : SlotAddr) : l[a] = if w.holds a then some .initial else s.slots[a] := ofFn_get ..
  have vacant (a : SlotAddr) (holds : w.holds a = true) : s.slots[a] = none := by
    by_contra there
    obtain ⟨q, v, rack, inside⟩ := (h.charged.windows.2.2.1 a).mp there
    have out := apart q v a rack inside
    rw [holds] at out
    cases out
  have at_rack (q : RackId) : (s.racks.set r (some w))[q] = if q = r then some w else s.racks[q] := get_set_cases ..
  have resited : Held flying none none { s with racks := s.racks.set r (some w), slots := l } := by
    refine h.resited ⟨windows, fun q v there => ?_, fun {a x} there charges => ?_⟩ (fun a => ?_) fun e _ supported => ?_
    · rw [at_rack] at there
      split at there
      · cases there
        refine Account.opened sessions admission committed fun a holds => phaseAt_of (x := .initial) ?_
        rw [slots, if_pos holds]
      · refine (h.charged.accounts q v there).congrPhase fun a holds => congrArg (Option.map Slot.phase) ?_
        rw [slots, if_neg (by rw [apart q v a there holds]; nofun)]
    · rw [slots] at there
      split at there
      · cases there
        exact absurd rfl charges
      · exact h.charged.charges there charges
    · rw [slots]
      split
      · next holds =>
        have none := vacant a holds
        exact .inr ⟨by unfold namedAt; rw [none]; rfl, by unfold reservedAt; rw [none]; rfl, fun x there => (Option.some.inj there).symm⟩
      · exact .inl rfl
    · have defined {a : SlotAddr} {o : Occupancy} (its : (s.slots[a]).map Slot.occupancy = some o) : (l[a]).map Slot.occupancy = some o := by
        rw [slots, if_neg fun holds => ?_]
        · exact its
        · rw [vacant a holds] at its
          cases its
      cases e with
      | scan q =>
        change (s.racks.set r (some w))[q] ≠ none
        rw [at_rack]
        split
        · nofun
        · exact supported
      | probe a => exact defined supported
      | poll a | setCharge a _ | tune a _ _ _ | release a | clear a _ => exact fun b mem => defined (supported b mem)
  refine resited.ask (fun _ => .inl (?_ : (s.racks.set r (some w))[r] ≠ none)) nofun nofun
  rw [at_rack, if_pos rfl]
  nofun

theorem defineRack_rack (free : s.racks[r] = none) {q : RackId} {v : RackWindow} (rack : s.racks[q] = some v) :
    (defineRack r w s).racks[q] = some v := by
  unfold defineRack
  have aside := (ask_aside (.scan r) (forEach w.addresses (fun a t => t.setSlot a (some .initial)) (s.setRack r (some w)))).2.1
  refine (congrArg (fun l : Vector (Option RackWindow) 8 => l[q]) aside).trans ?_
  rw [forEach_addresses]
  refine (get_set_other _ _ _ _ ?_).trans rack
  rintro rfl
  rw [free] at rack
  cases rack

theorem takeRackDefine_serves (s : State) : Serves s (takeRackDefine body s).1 ∧
    ∀ (q : RackId) (v : RackWindow), s.racks[q] = some v → (takeRackDefine body s).1.racks[q] = some v := by
  have same : Serves s s ∧ ∀ (q : RackId) (v : RackWindow), s.racks[q] = some v → s.racks[q] = some v := ⟨.refl s, fun _ _ => id⟩
  unfold takeRackDefine
  split
  · exact same
  · next r _ =>
    dsimp only
    generalize money : (if body.length = 6 then min 10000 (field16 body 4) else 2000) = budget
    have rich : budget ≤ 10000 := by
      rw [← money]
      split
      · exact Nat.min_le_left ..
      · decide
    split
    · exact same
    · next free =>
      split
      · exact same
      · next values =>
        split
        · exact same
        · next apart =>
          simp only [not_or, not_not, Nat.not_lt] at values
          obtain ⟨size, aligned, settle⟩ := values
          have none_there : s.racks[r] = none := by simpa using free
          have within := window_within size aligned (BitVec.isLt _)
          refine ⟨⟨fun flying h => ?_, ?_⟩, fun q v rack => ?_⟩
          · refine h.define none_there ⟨size, aligned, within, settle, rich⟩ rfl rfl rfl fun q v a rack holds => ?_
            rw [Bool.eq_false_iff, ne_eq, holds_iff]
            exact apart_of_overlaps apart rack holds
          · exact (ask_flight ..).trans ((forEach_flight _ (fun a u => setSlot_flight ..) _).trans (setRack_flight ..))
          · exact defineRack_rack none_there rack

end

end Sys2Proof.Machine
end

section
/-! PROOF. RACK_REMOVE keeps the laws: nothing under way is for the window that goes (R122). Every command then keeps them. -/

namespace Sys2Proof.Machine

section
variable {flying : List Exchange} {s t : State} {r : RackId} {w : RackWindow} {e : Exchange}

/-! ## What names a window -/

theorem namesRack_iff : namesRack r w e = true ↔ e = .scan r ∨ ∃ a, e.slot? = some a ∧ w.holds a = true := by
  cases e with
  | scan q =>
    rw [Exchange.scan.injEq, or_iff_left (by rintro ⟨a, named, -⟩; cases named)]
    exact decide_eq_true_iff
  | probe a | poll a | setCharge a _ | tune a _ _ _ | release a | clear a _ =>
    rw [or_iff_right nofun]
    exact ⟨fun holds => ⟨a, rfl, holds⟩, fun ⟨b, same, holds⟩ => by cases same; exact holds⟩

/-- An exchange names the window that it goes to. -/
theorem GoesTo.names (windows : WindowsSound s) (rack : s.racks[r] = some w) {q : RackId} {v : RackWindow} (goes : GoesTo e q v s) :
    namesRack r w e = decide (q = r) := by
  obtain ⟨there, at_window⟩ := goes
  rw [Bool.eq_iff_iff, namesRack_iff, decide_eq_true_iff]
  constructor
  · rintro (rfl | ⟨a, slot, holds⟩)
    · rcases at_window with same | ⟨a, slot, -⟩
      · cases same
        rfl
      · cases slot
    · rcases at_window with rfl | ⟨b, slot', holds'⟩
      · cases slot
      · obtain rfl := Option.some.inj (slot.symm.trans slot')
        exact windows.2.1 q r v there w rack a holds' holds
  · rintro rfl
    obtain rfl := Option.some.inj (there.symm.trans rack)
    exact at_window

/-- No TUNE or RELEASE names a window without a reserved slot. -/
theorem Held.unnamed {bad : Option SlotAddr} {idle : Option GroupId} (h : Held flying bad idle s)
    (free : ∀ a, w.holds a = true → reservedAt s a = none)
    (mem : e ∈ flying.filter (fun e => classOf e = 2) ++ s.bus.queues[(1 : Fin 6)]) : namesRack r w e = false := by
  refine Bool.eq_false_iff.mpr fun names => ?_
  rcases namesRack_iff.mp names with rfl | ⟨a, slot, holds⟩
  · obtain ⟨o, -, task⟩ := List.mem_filterMap.mp (h.running.tasks.subset mem)
    obtain ⟨_, -, -, -, cls⟩ := taskOf_class task
    cases cls
  · exact h.untuned (free a holds) mem slot

/-! ## The removal step by step (R122) -/

/-- Exchanges in hand that no candidate waits for are settled. -/
theorem Held.settled {bad : Option SlotAddr} {idle : Option GroupId} {p : Exchange → Bool} (h : Held flying bad idle s)
    (light : ∀ e ∈ flying, p e = true → classOf e ≠ 2) : Held (flying.filter fun e => !p e) bad idle s where
  charged := h.charged
  table := h.table
  issues := h.issues
  fleet := h.fleet
  running := {
    live := fun e there => h.running.live e (List.mem_of_mem_filter there)
    queued := h.running.queued
    probes := h.running.probes.sublist (List.Sublist.append_right List.filter_sublist _)
    tasks := by
      have same : (flying.filter fun e => !p e).filter (fun e => classOf e = 2) = flying.filter fun e => classOf e = 2 := by
        rw [List.filter_filter]
        refine List.filter_congr fun e there => ?_
        cases meant : p e with
        | true => rw [decide_eq_false (light e there meant), Bool.false_and]
        | false => rw [Bool.not_false, Bool.and_true]
      rw [same]
      exact h.running.tasks }

theorem forEach_keeps_mem {α : Type} {P : State → Prop} {f : α → State → State} {l : List α} (each : ∀ x ∈ l, ∀ u, P u → P (f x u)) (held : P s) :
    P (forEach l f s) := by
  induction l generalizing s with
  | nil => exact held
  | cons x l ih => exact ih (fun y there => each y (List.mem_cons_of_mem x there)) (each x List.mem_cons_self s held)

/-- Emptying a slot asks for no SCAN. -/
theorem emptySlot_unscanned {reason : EmptyReason} {a : SlotAddr} (absent : ∀ q : Fin 6, Exchange.scan r ∉ s.bus.queues[q]) (q : Fin 6) :
    Exchange.scan r ∉ (emptySlot reason a s).bus.queues[q] := by
  unfold emptySlot
  split
  · exact absent q
  · split
    · exact absent q
    · have minor : Minor s (emptiedReservation a (endCharging a (discardSlot a true s))) :=
        .emptiedReservation (.charging (Minor.refl s).discardSlot (Charging.refl _).endCharging)
      have bus := (emptiedDevice_slots reason a (emptiedReservation a (endCharging a (discardSlot a true s)))).2.2.1
      generalize emptiedReservation a (endCharging a (discardSlot a true s)) = m at minor bus
      have few := (minor.fresh q (.scan r)).resolve_right fun both => both.1 rfl
      rw [← List.count_eq_zero]
      refine Nat.le_zero.mp ((le_of_eq ?_).trans (few.trans (le_of_eq (List.count_eq_zero.mpr (absent q)))))
      exact congrArg (fun b : Bus => (b.queues[q]).count (.scan r)) bus

/-- The window goes with its slot records, which are all EMPTY. -/
theorem Held.remove {v : RackWindow} (h : Held flying none none s) (rack : s.racks[r] = some v) (place : v.place = w.place)
    (empty : ∀ a, w.holds a = true → (s.slots[a]).map Slot.occupancy = some .empty)
    (quiet : ∀ e, (e ∈ flying ∨ ∃ q : Fin 6, e ∈ s.bus.queues[q]) → e ≠ .scan r) :
    Held flying none none ((Machine.forEach w.addresses (fun a t => t.setSlot a none) s).setRack r none) := by
  have windows := h.charged.windows.remove rack place
  rw [forEach_addresses] at windows ⊢
  let l : Vector (Option Slot) 256 := Vector.ofFn fun a : SlotAddr => if w.holds a then none else s.slots[a]
  have slots (a : SlotAddr) : l[a] = if w.holds a then none else s.slots[a] := ofFn_get ..
  have at_rack (q : RackId) : (s.racks.set r none)[q] = if q = r then none else s.racks[q] := get_set_cases ..
  refine h.resited (v := s.racks.set r none) (l := l) ⟨windows, fun q u there => ?_, fun {a x} there charges => ?_⟩ (fun a => ?_)
    fun e way supported => ?_
  · rw [at_rack] at there
    split at there
    · cases there
    · next other =>
      refine (h.charged.accounts q u there).congrPhase fun a holds => congrArg (Option.map Slot.phase) ?_
      rw [slots, if_neg fun also => other ?_]
      exact h.charged.windows.2.1 q r u there v rack a holds ((holds_of_place place a).trans also)
  · rw [slots] at there
    split at there
    · cases there
    · exact h.charged.charges there charges
  · rw [slots]
    split
    · next holds =>
      obtain ⟨x, slot, vacant⟩ := Option.map_eq_some_iff.mp (empty a holds)
      have free := (h.vacant_free slot (by rw [vacant]; nofun)).2
      exact .inr ⟨(namedAt_of slot).trans ((h.fleet.posts a x slot).2.2 (.inl vacant)), (reservedAt_of slot).trans free, nofun⟩
    · exact .inl rfl
  · have kept {a : SlotAddr} {o : Occupancy} (full : o ≠ .empty) (its : (s.slots[a]).map Slot.occupancy = some o) :
        (l[a]).map Slot.occupancy = some o := by
      rw [slots, if_neg fun holds => full (Option.some.inj (its.symm.trans (empty a holds)))]
      exact its
    cases e with
    | scan q =>
      change (s.racks.set r none)[q] ≠ none
      rw [at_rack, if_neg fun own => quiet _ way (congrArg Exchange.scan own)]
      exact supported
    | probe a => exact kept nofun supported
    | poll a | setCharge a _ | tune a _ _ _ | release a | clear a _ => exact fun b mem => kept nofun (supported b mem)

/-! ## RACK_REMOVE (R122) -/

/-- The window's exchanges discarded and the one in flight with it marked. -/
theorem Held.doomed (h : Held flying none none s) (free : ∀ a, w.holds a = true → reservedAt s a = none) :
    let u := doomInFlight r (discardWhere (namesRack r w) false (s.modRack r fun v => { v with scanTimer := false }))
    Held (flying.filter fun e => !namesRack r w e) none none u ∧
      u.bus.inFlight = s.bus.inFlight.map (fun x => if x.rack = r then { x with doomed := true } else x) ∧
      (∀ q : Fin 6, .scan r ∉ u.bus.queues[q]) := by
  intro u
  let m := s.modRack r fun v => { v with scanTimer := false }
  have stopped : Held flying none none m := h.moored ((Moored.refl s).modRack fun _ => rfl)
  have spared (e : Exchange) (mem : e ∈ m.bus.queues[(1 : Fin 6)]) : namesRack r w e = false := stopped.unnamed free (List.mem_append_right _ mem)
  have discarded : discardWhere (namesRack r w) false m = m.without (namesRack r w) :=
    discardWhere_eq (fun q e mem => (stopped.charged.windows.2.2.2 q).2 e mem) (fun e mem names => by
      rw [spared e mem] at names
      cases names) false
  have light (e : Exchange) (mem : e ∈ flying) (names : namesRack r w e = true) : classOf e ≠ 2 := fun cls => by
    have none := h.unnamed (r := r) free (List.mem_append_left _ (List.mem_filter.mpr ⟨mem, decide_eq_true cls⟩))
    rw [names] at none
    cases none
  have held := (stopped.without spared).settled light
  have eq : u = doomInFlight r (m.without (namesRack r w)) := congrArg (doomInFlight r) discarded
  rw [eq]
  refine ⟨held.wired _ _ _, rfl, fun q mem => ?_⟩
  have filtered : (doomInFlight r (m.without (namesRack r w))).bus.queues[q] = (m.bus.queues[q]).filter fun e => !namesRack r w e := map_get ..
  rw [filtered] at mem
  have names : namesRack r w (.scan r) = true := namesRack_iff.mpr (.inl rfl)
  have other := (List.mem_filter.mp mem).2
  rw [names] at other
  cases other

/-- The exchange in flight is marked exactly when it names the window. -/
theorem DockSound.unracked (sound : DockSound s) (rack : s.racks[r] = some w) (free : ∀ a, w.holds a = true → reservedAt s a = none)
    (held : Held ((liveInFlight s).filter fun e => !namesRack r w e) none none t)
    (flight : t.bus.inFlight = s.bus.inFlight.map fun x => if x.rack = r then { x with doomed := true } else x)
    (racks : ∀ (q : RackId) (x : RackWindow), q ≠ r → s.racks[q] = some x → ∃ y, t.racks[q] = some y ∧ y.holds = x.holds) : DockSound t := by
  cases before : s.bus.inFlight with
  | none =>
    rw [before] at flight
    have idle : liveInFlight s = [] := by
      unfold liveInFlight
      rw [before]
    rw [idle] at held
    exact held.grounded (congrArg (Option.map InFlight.berth) flight)
  | some x =>
    obtain ⟨goes, other⟩ := sound.flight x before
    have names (live : x.doomed = false) : namesRack r w x.exchange = decide (x.rack = r) := by
      obtain ⟨v, site⟩ := goes live
      exact site.names sound.windows rack
    have lives (live : x.doomed = false) : liveInFlight s = [x.exchange] := by
      unfold liveInFlight
      rw [before]
      dsimp only
      rw [live]
      rfl
    have spent (doomed : x.doomed = true) : liveInFlight s = [] := by
      unfold liveInFlight
      rw [before]
      exact if_pos doomed
    rw [before, Option.map_some] at flight
    have live : liveInFlight t = (liveInFlight s).filter fun e => !namesRack r w e := by
      cases doomed : x.doomed with
      | true =>
        have marked : (if x.rack = r then { x with doomed := true } else x).doomed = true := by split <;> trivial
        rw [spent doomed]
        unfold liveInFlight
        rw [flight]
        exact if_pos marked
      | false =>
        have named := names doomed
        rw [lives doomed]
        unfold liveInFlight
        rw [flight]
        by_cases own : x.rack = r
        · rw [decide_eq_true own] at named
          rw [if_pos own, List.filter_cons_of_neg (by rw [named]; nofun)]
          rfl
        · rw [decide_eq_false own] at named
          rw [if_neg own, List.filter_cons_of_pos (by rw [named]; rfl)]
          dsimp only
          rw [doomed]
          rfl
    refine Held.dockSound (live ▸ held) fun y after => ?_
    rw [flight] at after
    cases after
    split
    · next own =>
      refine ⟨nofun, fun _ cls => ?_⟩
      cases doomed : x.doomed with
      | true => exact other doomed cls
      | false =>
        have mem : x.exchange ∈ liveInFlight s := by
          rw [lives doomed]
          exact List.mem_cons_self
        have unnamed := (dockSound_held sound).unnamed (r := r) free (List.mem_append_left _ (List.mem_filter.mpr ⟨mem, decide_eq_true cls⟩))
        rw [names doomed, decide_eq_true own] at unnamed
        cases unnamed
    · next away =>
      refine ⟨fun live => ?_, other⟩
      obtain ⟨v, defined, at_slot⟩ := goes live
      obtain ⟨u, after, same⟩ := racks _ v away defined
      exact ⟨u, after, at_slot.imp_right fun ⟨a, slot, holds⟩ => ⟨a, slot, by rw [same]; exact holds⟩⟩

theorem removeRack_dockSound (sound : DockSound s) (rack : s.racks[r] = some w) (free : ∀ a, w.holds a = true → reservedAt s a = none) :
    DockSound (removeRack r w s) := by
  have stopped : Records s (s.modRack r fun v => { v with scanTimer := false }) := (Records.refl s).modRack (fun _ => rfl) fun _ => rfl
  have records : Records s (doomInFlight r (discardWhere (namesRack r w) false (s.modRack r fun v => { v with scanTimer := false }))) :=
    (stopped.minor (Minor.refl _).discardWhere).of_eq rfl rfl rfl rfl rfl fun _ => ⟨rfl, rfl⟩
  obtain ⟨held, flight, unscanned⟩ := (dockSound_held sound).doomed (r := r) free
  unfold removeRack
  dsimp only
  generalize doomInFlight r (discardWhere (namesRack r w) false (s.modRack r fun v => { v with scanTimer := false })) = u
    at records held flight unscanned
  have emptied := forEach_emptied .lost w.addresses u
  have kept := records.trans emptied.toRecords
  have away (e : Exchange) (mem : e ∈ (liveInFlight s).filter fun e => !namesRack r w e) : namesRack r w e = false := by
    simpa using (List.mem_filter.mp mem).2
  have cleared : Held ((liveInFlight s).filter fun e => !namesRack r w e) none none (forEach w.addresses (emptySlot .lost) u) := by
    refine forEach_keeps_mem (fun a mem _ kept => kept.emptySlot (fun e there slot => ?_) nofun) held
    have names : namesRack r w e = true := namesRack_iff.mpr (.inr ⟨a, slot, mem_addresses.mp mem⟩)
    rw [away e there] at names
    cases names
  have quiet (q : Fin 6) : Exchange.scan r ∉ (forEach w.addresses (emptySlot .lost) u).bus.queues[q] :=
    forEach_keeps_mem (P := fun u => ∀ q : Fin 6, Exchange.scan r ∉ u.bus.queues[q]) (fun _ _ _ absent => emptySlot_unscanned absent) unscanned q
  have empty (a : SlotAddr) (holds : w.holds a = true) :
      ((forEach w.addresses (emptySlot .lost) u).slots[a]).map Slot.occupancy = some .empty := by
    obtain ⟨x, stands⟩ := sound.windows.stands_rack rack holds
    have defined := records.slot a
    rw [stands.slot] at defined
    obtain ⟨y, slot⟩ := Option.isSome_iff_exists.mp defined
    have own := emptied.own a (mem_addresses.mpr holds)
    rw [slot] at own
    exact own
  obtain ⟨v, there, place⟩ := kept.rack_after rack
  refine sound.unracked rack free (cleared.remove there place empty fun e way => ?_) ?_ fun q x other before => ?_
  · rintro rfl
    rcases way with mem | ⟨q, mem⟩
    · have names : namesRack r w (.scan r) = true := namesRack_iff.mpr (.inl rfl)
      rw [away _ mem] at names
      cases names
    · exact quiet q mem
  · rw [forEach_addresses]
    exact emptied.flight.trans flight
  · obtain ⟨y, after, place⟩ := kept.rack_after before
    refine ⟨y, ?_, funext (holds_of_place place)⟩
    rw [forEach_addresses]
    exact (get_set_other _ _ _ _ other).trans after

end

end Sys2Proof.Machine
end

section
/-! PROOF. The laws of racks, charging and fleet are a law of the dock: every command keeps them. -/

namespace Sys2Proof.Machine

section
variable (body : List Byte) {s : State}

theorem takeRackRemove_dockSound (sound : DockSound s) : DockSound (takeRackRemove body s).1 := by
  unfold takeRackRemove
  split
  · exact sound
  · split
    · exact sound
    · next w rack =>
      split
      · exact sound
      · next unreserved =>
        refine removeRack_dockSound sound rack fun a holds => ?_
        by_contra reserved
        exact unreserved (List.any_eq_true.mpr ⟨a, mem_addresses.mpr holds, Option.isSome_iff_ne_none.mpr reserved⟩)

/-- A request that keeps the windows, or their budgets aside, keeps the laws. -/
theorem take_dockSound {k : RequestKind} (docks : k.docks) (sound : DockSound s) : DockSound (k.take body s).1 := by
  have kept {t : State} (records : Records s t) (serves : Serves s t) : DockSound t :=
    serves.dockSound sound fun _ _ rack => (records.rack_after rack).imp fun _ both => both.imp_right fun place => funext (holds_of_place place)
  cases k with
  | rackDefine =>
    obtain ⟨serves, racks⟩ := takeRackDefine_serves body s
    exact serves.dockSound sound fun q v rack => ⟨v, racks q v rack, rfl⟩
  | rackRemove => exact takeRackRemove_dockSound body sound
  | rackBudget => exact (takeRackBudget_serves body s).dockSound sound (takeRackBudget_windows body)
  | chargeConfig => exact kept (takeChargeConfig_records body) (takeChargeConfig_serves body s)
  | slotClearFault => exact kept (takeSlotClearFault_records body) (takeSlotClearFault_serves body s)
  | deviceForget => exact kept (takeDeviceForget_records body) (takeDeviceForget_serves body sound.deviceTable)
  | groupOpen => exact kept (takeGroupOpen_records body) (takeGroupOpen_serves body s)
  | groupClose => exact kept (takeGroupClose_records body) (takeGroupClose_serves body s)
  | issue => exact kept (takeIssue_records body) (takeIssue_serves body s)
  | _ => exact docks.elim

end

/-! ## What the dock does not see keeps the laws -/

theorem dockSound_moored {s t : State} (sound : DockSound s) (work : Moored s t) : DockSound t := by
  have serves : Serves s t := ⟨fun _ h => h.moored work, work.flight_eq⟩
  refine serves.dockSound sound fun r w rack => ?_
  have yards := work.berthed.yards r
  rw [rack] at yards
  obtain ⟨v, after, yard⟩ := Option.map_eq_some_iff.mp yards
  exact ⟨v, after, funext fun a => holds_congr (congrArg RackWindow.base yard :) (congrArg RackWindow.size yard :) a⟩

theorem dockSound_law : DockLaw DockSound where
  moored := dockSound_moored
  hardReset := hardReset_dockSound
  softReset := dockSound_softReset
  scan := dockSound_scan
  poll := dockSound_poll
  setCharge := dockSound_setCharge
  start := dockSound_start
  complete := dockSound_complete
  timeout := dockSound_timeout
  take body _ docks sound := take_dockSound body docks sound

/-- Settles O8: the laws, held with an exchange in hand, a slot on its way to FAULT and an operation between two candidates, are a law of
the dock. -/
theorem dockLawsKept : Obligations.DockLawsKept := fun _ _ sound h => dockSound_law.step sound h

end Sys2Proof.Machine
end
